-- ==== Sys2Proof/Word.lean ====
section
/-! DEFINITION. The word types of the model (R12: little-endian, bit 0 least significant) and their plainest
arithmetic. -/

namespace Sys2Proof

/-- One byte. -/
abbrev Byte := BitVec 8
/-- One 32-bit register word (R16). -/
abbrev W32 := BitVec 32
/-- One 64-bit value. -/
abbrev W64 := BitVec 64

/-- `ceil (a / b)`. -/
def cdiv (a b : Nat) : Nat := (a + b - 1) / b

end Sys2Proof
end

