-- ==== Sys2Proof/Syntax.lean ====
section
/-! DEFINITION. The commands of the block: the one inductive `Instr`, one constructor per row of the table of
operations and events, with the operands each carries, and the plain data those operands are made of. -/

namespace Sys2Proof

/-- Who makes a register access (R380): a host partition through BAR0, the rack BMC over SMBus, a management
core, the debug master, or the keystone agent arriving on a Camtex port from a bond path (R139). -/
inductive Who where
  | host (p : Fin 8)
  | smbus
  | mgmt (c : Fin 4)
  | debug
  | keystone (k : Fin 8) (path : Fin 4096)
  deriving DecidableEq, Repr

/-- How a read that the module issued ended (R168, R84, R116): data, UR, UR marked port-gone (R218), CA, a poisoned
completion, or no completion within the completion timeout. -/
inductive CplStatus where
  | ok
  | ur
  | portGone
  | ca
  | poisoned
  | timeout
  deriving DecidableEq, Repr

/-- A completion of a read that the module issued: its status and the bytes it carries, lowest address first. -/
structure Cpl where
  status : CplStatus
  data : List Byte
  deriving DecidableEq, Repr

/-- The kinds of TLP that the switch core tells apart (R38, R62). -/
inductive TlpKind where
  | memWrite
  | memRead
  | atomic
  | cfgRead
  | cfgWrite
  | ioRead
  | ioWrite
  | msg
  | cpl
  deriving DecidableEq, Repr

/-- How a TLP is routed (R203): by address, by ID to a bus/device/function, to the root, or kept local. -/
inductive TlpRoute where
  | addr
  | id (bdf : Nat)
  | toRoot
  | broadcast
  | localTerm
  deriving DecidableEq, Repr

/-- A TLP as the module handles it, after link framing is stripped (R39). `hdr` counts the bytes of prefixes,
header and ECRC; `len` is the byte count that a read asks for. `relaxed`, `ido` and `noSnoop` are the attributes that R47 leaves in
the frame, and `ecrc` is the digest of a TLP that carries one. -/
structure Tlp where
  kind : TlpKind
  route : TlpRoute := .addr
  addr : Nat := 0
  rid : Nat := 0
  tag : Nat := 0
  pasid : Option Nat := none
  tc : Nat := 0
  relaxed : Bool := false
  ido : Bool := false
  noSnoop : Bool := false
  ecrc : Option W32 := none
  ep : Bool := false
  hdr : Nat := 16
  len : Nat := 0
  data : List Byte := []
  code : Nat := 0
  status : Nat := 0
  translated : Bool := false
  deriving DecidableEq, Repr

/-- What a link partner's credits still let a port send (R64): for each virtual channel none when no header credit is left, else the
data credits of 16 B that are. -/
structure PartnerCredit where
  p : Option Nat := none
  np : Option Nat := none
  cpl : Option Nat := none
  deriving DecidableEq, Repr

/-- The two results of a firmware or image slot check at boot (R332, R333): each slot's validity. -/
structure SlotCheck where
  valid0 : Bool
  valid1 : Bool
  deriving DecidableEq, Repr

/-- What an image slot check at boot found and loaded (R332 step 5, R333): slot validity, the register words that
the image gives (BAR0 offset and value, img fields only are taken), and the BAR2 sizes by partition in GiB (R157). -/
structure ImageLoad where
  check : SlotCheck
  words : List (Nat × W32) := []
  parkHold : Bool := false
  bar2Gib : List Nat := []
  deriving DecidableEq, Repr

/-- The calibration set as step 3 of the boot reads it (R335): whether it passes its check, and its cal words. -/
structure CalLoad where
  good : Bool
  words : List (Nat × W32) := []
  deriving DecidableEq, Repr

/-- The stream class of a bond segment (R271). -/
inductive SegClass where
  | request
  | response
  deriving DecidableEq, Repr

/-- The segment types of R271; `other` is a reserved value. -/
inductive SegType where
  | data
  | msg
  | cack
  | sync
  | key
  | other
  deriving DecidableEq, Repr

/-- A segment with the flit header fields that go with it (R251, R271). -/
structure Segment where
  cseq : Nat := 0
  stype : SegType := .data
  cls : SegClass := .request
  sof : Bool := true
  eof : Bool := true
  hops : Nat := 15
  dstPort : Nat := 63
  origin : Nat := 72
  data : List Byte := []
  vc : Nat := 0
  tc : Nat := 0
  world : Bool := false
  ks : Bool := false
  poison : Bool := false
  dstPath : Nat := 0
  srcPath : Nat := 0
  deriving DecidableEq, Repr

/-- One Camtex port as a HEARTBEAT_ACK reports it (R281): is it ACTIVE, and its partner's path. -/
structure PortReport where
  active : Bool
  partner : Nat
  deriving DecidableEq, Repr

/-- The body of a HEARTBEAT_ACK (R281), and the modules that the sender holds segments or frames for (R284): none where they are too many
to list. -/
structure HbAck where
  path : Nat
  ports : List PortReport := []
  m2Request : Bool := false
  kept : List Nat := []
  busy : Option (List Nat) := some []
  deriving DecidableEq, Repr

/-- The park messages of R98 and R292, and the outcome that the owner of a shelf returns for an entry of another member
(R32): its status and the bytes delivered. An orphan handed back comes as its index and its 64 B entry. -/
inductive ParkMsg where
  | refuse (idx : Nat)
  | free (idx : Nat)
  | evict (idx : Nat)
  | outcome (idx status bytes detail : Nat)
  | again (idx : Nat)
  | handBack (idx : Nat) (entry : List Byte)
  | handBackDone
  deriving DecidableEq, Repr

/-- A lend or unlend as LEND_REQ carries it (R285). -/
structure LendReq where
  unlend : Bool
  ownerPath : Nat
  slot : Nat
  borrowerPath : Nat
  partition : Nat
  dev : Nat
  deriving DecidableEq, Repr

/-- What a link partner asks of a PCI Express transmitter in equalisation (R234, R235): a preset, or coefficients in units of 1/48. -/
inductive EqRequest where
  | preset (p : Fin 16)
  | coefs (pre post : Nat)
  deriving DecidableEq, Repr

/-- What training settled for a PCI Express link beside its width and rate: FLIT mode and scaled flow control (R200, R207); the lane order
and the lanes that arrived inverted (R241); whether the partner precodes (R228), and what it last asked of each lane's transmitter (R235). -/
structure LinkModes where
  flit : Bool := true
  scaled : Bool := true
  reversed : Bool := false
  inverted : List (Fin 16) := []
  precode : Bool := false
  eq : List EqRequest := []
  deriving DecidableEq, Repr

/-- What a PCI Express link came up with: its lanes, its rate as PRT_STATUS codes it (R199, R200), and what else training settled. -/
structure LinkUp extends LinkModes where
  width : Nat := 16
  rate : Nat := 5
  deriving DecidableEq, Repr

/-- A shelf slot and what its link came up with (R94, R199). -/
structure SlotLink where
  slot : Fin 56
  link : LinkUp := {}
  deriving DecidableEq, Repr

/-- A port whose link goes down, and whether it goes to Loopback because its partner has become a loopback master (R244). -/
structure LinkLoss where
  port : Fin 64
  loopback : Bool := false
  deriving DecidableEq, Repr

/-- What the monitor slicer found of one sub-eye (R237): its disagreements with the data slicer at each voltage and each phase step. -/
structure SubEye where
  volt : List Nat := []
  phase : List Nat := []
  deriving DecidableEq, Repr

/-- What a receiver's adaptation found (R238): CDR lock, the scans of the CTLE codes 0 to 15, that of the best code held again and those of
the codes below and above it, the DFE taps, and the full measurement. -/
structure Adaptation where
  lock : Bool := true
  coarse : List (List SubEye) := []
  again : List SubEye := []
  beside : List (List SubEye) := []
  taps : List Byte := []
  scan : List SubEye := []
  deriving DecidableEq, Repr

/-- Codewords as they arrive on a lane of a Camtex tile, each 2,720 PAM4 levels, 0 the lowest (R232). -/
structure LaneWords where
  lane : Fin 256
  words : List (List (Fin 4)) := []
  deriving DecidableEq, Repr

/-- Sync headers of raw blocks as they arrive on a physical lane of a Camtex port (R230, R264). -/
structure LaneHeaders where
  lane : Fin 8
  headers : List (BitVec 2) := []
  deriving DecidableEq, Repr

/-- The receiver margin commands of R245. -/
inductive MarginCmd where
  | noCommand
  | report (selector : Nat)
  | setErrorLimit (n : Nat)
  | goToNormal
  | clearErrorLog
  | stepTiming (right : Bool) (steps : Nat)
  | stepVoltage (up : Bool) (steps : Nat)
  deriving DecidableEq, Repr

/-- The kinds of storage in which an uncorrectable SRAM error can be found (R85, R299, R303). -/
inductive SramKind where
  | table
  | entryTable (bothCopies : Bool)
  | register (off : Nat)
  deriving DecidableEq, Repr

/-- How the ingest or refetch of one part of an entry ended, beside the completion itself (R84): nothing. -/
inductive FrameFault where
  | none
  | malformed
  | overflow
  | flowControl
  | receiver
  deriving DecidableEq, Repr

/-- How a PCI Express link layer takes what arrives: whole, or with one of the correctable errors of R296. -/
inductive LinkCheck where
  | good
  | receiverError
  | badTlp
  | badDllp
  | replayRollover
  | replayTimeout
  deriving DecidableEq, Repr

/-- The errors of a link for which R296 lets a host enable a DPC trigger. -/
inductive DpcCause where
  | malformed
  | overflow
  | flowControl
  | dataLink
  deriving DecidableEq, Repr

/-- A port on whose link an error comes (R217, R296). -/
structure LinkError where
  port : Fin 64
  cause : DpcCause
  deriving DecidableEq, Repr

/-- The kind of a cell error that the buffer finds (R41). -/
inductive EccKind where
  | correctable
  | data
  | sideband
  deriving DecidableEq, Repr

/-- An access on a host-ingress path that is not a mergeable store (R129): a read or an AtomicOp of the park
window, a poisoned write to it, or an access to the control window. -/
inductive PathAccess where
  | read (off len : Nat)
  | atomic (off len : Nat)
  | poisonedWrite (off : Nat) (data : List Byte)
  | control
  deriving DecidableEq, Repr

/-- A function of the module that has a configuration space: the control endpoint of a partition (R153), its
upstream port, the virtual downstream port above the endpoint, or the virtual port of a port P0-P63 (R201, R203). -/
inductive CfgFn where
  | endpoint (p : Fin 8)
  | upstream (p : Fin 8)
  | epPort (p : Fin 8)
  | down (port : Fin 64)
  deriving DecidableEq, Repr

/-- The commands of the block, one constructor per row of the table, in the table's order but for
those without an operand, which stand last. A command that is a write
carries who makes it and the value written; one that is an arrival carries what arrives; one that is the end of a
time carries which timer ended. -/
inductive Instr where
  | registerWrite (who : Who) (off : Nat) (wide : Bool) (v : W64)
  | refusedRegisterAccess (who : Who) (off : Nat) (isWrite : Bool) (width : Fin 4)
  | counterReadLatch (who : Who) (off : Nat)
  | counterWrite (who : Who) (off : Nat) (wide : Bool) (v : W64)
  | hwmClear (who : Who) (off : Nat) (v : W32)
  | tlpReceive (port : Fin 64) (tlp : Tlp) (check : LinkCheck)
  | ptrReset (who : Who) (v : W32)
  | bufEccError (frame : Nat) (kind : EccKind)
  | bufCommitGo (who : Who) (v : W32)
  | egressSend (port : Fin 64) (creditP creditNp creditCpl : Option Nat)
  | meterWrite (who : Who) (meter : Fin 4096) (reg : Fin 4) (v : W32)
  | sqDoorbell (who : Who) (slice : Fin 1024) (q : Fin 64) (v : W32)
  | cqDoorbell (who : Who) (slice : Fin 1024) (q : Fin 64) (v : W32)
  | eqDoorbell (who : Who) (slice : Fin 1024) (v : W32)
  | qpEnable (who : Who) (slice : Fin 1024) (q : Fin 64) (v : W32)
  | qpDisable (who : Who) (slice : Fin 1024) (q : Fin 64) (v : W32)
  | eqEnable (who : Who) (slice : Fin 1024) (v : W32)
  | descriptorFetch (p : Fin 8)
  | fetchReadCompletion (p : Fin 8) (id : Nat) (cpl : Cpl)
  | move (gqp : Fin 4096)
  | parkWrite (gqp : Fin 4096)
  | parkRead (gqp : Fin 4096)
  | fence (gqp : Fin 4096)
  | nop (gqp : Fin 4096)
  | guardCommit (gqp : Fin 4096)
  | scrubComplete (slice : Fin 1024)
  | blobWriteCompletion (status : CplStatus)
  | blobReadCompletion (cpl : Cpl)
  | sliceAtRest (slice : Fin 1024)
  | quiesceLimitExpiry (slice : Fin 1024)
  | freezeDeadline (slice : Fin 1024)
  | sliceFault (slice : Fin 1024)
  | hodGo (who : Who) (h : Fin 16) (c : Fin 64)
  | hodAbort (who : Who) (h : Fin 16) (c : Fin 64) (go : Bool)
  | hodShadowWrite (who : Who) (h : Fin 16) (c : Fin 64) (off : Nat) (wide : Bool) (v : W64)
  | hodSealWrite (who : Who) (h : Fin 16) (c : Fin 64) (v : W32)
  | hodHoldWrite (who : Who) (h : Fin 16) (v : W32)
  | hodPick (h : Fin 16)
  | hodReservationAdmit (h : Fin 16)
  | hodReadCompletion (h : Fin 16) (tag : Nat) (cpl : Cpl)
  | retryGapExpiry (h : Fin 16)
  | hodFlushCompletion (h : Fin 16) (status : CplStatus)
  | irqTimeExpiry (gqp : Fin 4096)
  | msiUnmask (p : Fin 8) (vector : Option (Fin 2048))
  | completionTimeout (port : Fin 64) (tag : Nat)
  | tagQuarantineExpiry (port : Fin 64) (tag : Nat)
  | lateCompletion (port : Fin 64) (tag : Nat) (header : List W32)
  | parkWindowStore (p : Fin 8) (pasid : Option (Fin 1048576)) (off : Nat) (data : List Byte)
  | parkWindowLoad (p : Fin 8) (pasid : Option (Fin 1048576)) (acc : PathAccess)
  | mergeWindowExpiry (p : Fin 8)
  | slcFenceGo (who : Who) (slice : Fin 1024) (v : W32)
  | loadReserved (who : Who) (slice : Fin 1024)
  | conditionalStore (who : Who) (slice : Fin 1024)
  | rsvAddrWrite (who : Who) (slice : Fin 1024) (off : Fin 2) (wide : Bool) (v : W64)
  | reservationExpiry (slice : Fin 1024)
  | grdCommitGo (who : Who) (v : W32)
  | guardRuleWrite (who : Who) (g : Fin 41) (r : Fin 64) (off : Fin 8) (wide : Bool) (v : W64)
  | guardParityError (g : Fin 41)
  | debugAccess (isWrite : Bool) (addr : Nat) (wide : Bool) (v : W64)
  | ingestCompletion (entry : Nat) (off : Nat) (cpl : Cpl)
  | batchWindowExpiry (slot : Fin 56)
  | promoteExpiry (slot : Fin 56)
  | entryExpiry (entry : Nat)
  | ledgerBudgetWrite (who : Who) (v : W32)
  | shelfPinWrite (who : Who) (slot : Fin 56) (v : W32)
  | wakeNow (who : Who) (slot : Fin 56)
  | clearFail (who : Who) (slot : Fin 56)
  | peekGo (who : Who) (v : W32)
  | shelfPgAssert (slot : Fin 56)
  | perstReleaseExpiry (slot : Fin 56)
  | shelfLinkUp (came : SlotLink)
  | readyDelayExpiry (slot : Fin 56)
  | readyPollTimer (slot : Fin 56)
  | readyPollCompletion (slot : Fin 56) (cpl : Cpl)
  | sweepFlushCompletion (entry : Nat) (status : CplStatus)
  | sweepReadCompletion (entry : Nat) (off : Nat) (cpl : Cpl)
  | refetchCompletion (entry : Nat) (off : Nat) (cpl : Cpl)
  | sweepHoldExpiry (slice : Fin 1024)
  | idleHoldExpiry (slot : Fin 56)
  | pwrreqReleaseExpiry (slot : Fin 56)
  | shelfPgDeassert (slot : Fin 56)
  | minOffExpiry (slot : Fin 56)
  | pgTimeout (slot : Fin 56)
  | linkTimeout (slot : Fin 56)
  | readyTimeout (slot : Fin 56)
  | pgOffTimeout (slot : Fin 56)
  | shelfLinkDown (slot : Fin 56)
  | dramUncorrectableError (addr : Nat) (tableBoth : Bool)
  | patrolScrub (corrected : List (Fin 8)) (bad : List Nat)
  | dramChannelFailure (c : Fin 8) (training : Bool)
  | portLinkUp (p : Fin 64) (width rate : Nat) (modes : LinkModes)
  | portLinkDown (went : LinkLoss)
  | dpcTrigger (error : LinkError)
  | portContain (who : Who) (p : Fin 64) (v : W32)
  | portRelease (who : Who) (p : Fin 64) (v : W32)
  | dpcStatusClear (p : Fin 64)
  | slotPresentWrite (who : Who) (p : Fin 64) (v : W32)
  | secondaryBusReset (p : Fin 64) (set : Bool)
  | mcReceiveWrite (p : Fin 64) (group : Fin 64) (v : Bool)
  | l1IdleExpiry (p : Fin 64)
  | hostPerstAssert (k : Fin 8)
  | hostPerstDeassert (k : Fin 8)
  | bmeClear (p : Fin 8)
  | bmeSet (p : Fin 8)
  | functionLevelReset (p : Fin 8)
  | upstreamLinkReset (p : Fin 8)
  | resetDrainExpiry (p : Fin 8)
  | powerStateWrite (p : Fin 8) (d3hot : Bool)
  | signalDetect (lane : Fin 256)
  | adaptationDone (lane : Fin 256) (lock : Bool) (coarse : List (List SubEye)) (again : List SubEye) (beside : List (List SubEye))
      (taps : List Byte) (scan : List SubEye)
  | eyeMeasurementDone (lane : Fin 256) (scan : List SubEye) (taps : List Byte)
  | txCoefWrite (who : Who) (lane : Fin 256) (v : W32)
  | tileTestWrite (who : Who) (t : Fin 32) (v : W32)
  | camtexRateWrite (who : Who) (t : Fin 32) (v : W32)
  | marginCommand (lane : Fin 256) (cmd : MarginCmd)
  | tileGate (t : Fin 32)
  | tileUngate (t : Fin 32)
  | tilePllLoss (t : Fin 32)
  | framingLoss (came : LaneWords)
  | amReceive (lane : Fin 256) (words : List (List (Fin 4))) (first last : Nat)
  | flitSend (k : Fin 8)
  | flitReceive (k : Fin 8) (lanes : List (Fin 8)) (words : List (List (Fin 4)))
  | replayTimerExpiry (k : Fin 8)
  | lrReceive (k : Fin 8) (reason : Byte)
  | fabReset (who : Who) (k : Fin 8) (v : W32)
  | resetHoldExpiry (k : Fin 8)
  | trainingRecordReceive (k : Fin 8) (lane : Fin 8) (blocks : List (BitVec 66))
  | tuneSettleExpiry (k : Fin 8) (lane : Fin 8) (scan : List SubEye)
  | tuneTimeout (k : Fin 8)
  | trainTimeout (k : Fin 8)
  | backoffExpiry (k : Fin 8)
  | segmentReceive (k : Fin 8) (seg : Segment)
  | sync (k : Fin 8) (seg : Segment)
  | cackReceive (k : Fin 8) (seg : Segment)
  | cackDelayExpiry (path : Fin 4096) (cls : SegClass)
  | resendIntervalExpiry (path : Fin 4096) (cls : SegClass)
  | streamTimeout (path : Fin 4096) (cls : SegClass)
  | candidate (level : Fin 4) (term : Fin 65536) (prio : Byte) (serial : W64) (path : Fin 4096)
  | heartbeat (level : Fin 4) (term : Fin 65536) (prio : Byte) (serial : W64) (path : Fin 4096)
  | heartbeatAck (level : Fin 4) (ack : HbAck)
  | heartbeatTimer (level : Fin 4)
  | electionCollectExpiry (level : Fin 4)
  | keystoneLossTimeout (level : Fin 4)
  | memberLost (path : Fin 4096)
  | orphanExpiry (entry : Nat)
  | alert (srcPath : Fin 4096) (srcPort : Fin 64) (level : Bool)
  | resetReq (srcPath : Fin 4096) (port : Fin 64) (set : Bool)
  | linkState (srcPath : Fin 4096) (srcPort : Fin 64) (present contained failed : Bool)
  | powerGood (srcPath : Fin 4096) (srcPort : Fin 64) (pg : Bool)
  | wakeReq (srcPath : Fin 4096) (sleeper : Fin 4096)
  | errReport (srcPath : Fin 4096) (cause : Fin 16) (origin : Fin 128) (header : List W32)
  | park (srcPath : Fin 4096) (msg : ParkMsg)
  | lendReq (req : LendReq)
  | lendGo (who : Who) (v : W32)
  | rtWordWrite (who : Who) (entry : Fin 65536) (word : Fin 8) (v : W32)
  | rtEntryCommit (who : Who) (entry : Fin 65536) (v : W32)
  | streamPeek (who : Who) (v : W32)
  | wakePatternDetect (k : Fin 8)
  | sleeperSignalDetect (k : Fin 8)
  | eventStormEnd (group : Fin 32) (bit : Fin 32)
  | queueEngineWatchdog (p : Fin 8)
  | parkEngineWatchdog (e : Fin 4)
  | mgmtCoreWatchdog (c : Fin 4)
  | csrWatchdogExpiry (who : Who) (off : Nat) (isWrite : Bool)
  | pmcRunWrite (who : Who) (v : W32)
  | counterWrap (off : Nat) (incr : Nat)
  | samplePoint (off : Nat)
  | clkResetWarm (who : Who) (v : W32)
  | clkResetCold (who : Who) (v : W32)
  | clkResetOff (who : Who) (v : W32)
  | blockReset (who : Who) (v : W32)
  | dramTrainingDone (cal : List Bool)
  | lifecycleCommand (who : Who) (v : W32)
  | imageUpdateGo (who : Who) (v : W32)
  | imageUpdateDone (result : Fin 16)
  | calSave (who : Who) (v : W32)
  | hostTrainingStart (p : Fin 64)
  | telemetrySample (v i t : Nat) (cages : List Nat)
  | supplyResetDetect (v : Nat)
  | overVoltageDetect (v : Nat)
  | presenceChange (a b : Bool)
  | powerGoodQualified (cal : CalLoad)
  | powerOnCommand (who : Who) (v : W32)
  | retryClear (who : Who) (v : W32)
  | cageOvercurrent (c : Fin 8)
  | cagePresenceChange (c : Fin 8) (present : Bool)
  | cageResetRelease (c : Fin 8)
  | cageInterrupt (c : Fin 8)
  | tempWarning (t : Nat)
  | tempCritical (t : Nat)
  | shelfAlertChange (slot : Fin 56) (level : Bool)
  | regAddr (data : List Byte) (pecOk : Bool)
  | regRead (pecOk : Bool)
  | regWrite (data : List Byte) (pecOk : Bool)
  | wake (pecOk : Bool)
  | warmReset (data : List Byte) (pecOk : Bool)
  | coldReset (data : List Byte) (pecOk : Bool)
  | imgBegin (data : List Byte) (pecOk : Bool)
  | imgData (data : List Byte) (pecOk : Bool) (result : Fin 16)
  | imgEnd (pecOk : Bool) (result : Fin 16)
  | jtagSamplePreload (pins preload : List Bool)
  | configurationWrite (fn : CfgFn) (off : Nat) (value : W32) (enables : Fin 16)
  | tilePllLock (t : Fin 32)
  | sramUncorrectableError (kind : SramKind)
  | dramCorrectedError (c : Fin 8)
  | blockLock (k : Fin 8) (came : LaneHeaders)
  | prbsCheckerLock (lane : Fin 256) (bits : List Bool)
  | wakePatternEnd (k : Fin 8)
  | firmwareCheckDone (check : SlotCheck)
  | imageCheckDone (img : ImageLoad)
  | cellSlotMatch
  | bufCommitDone
  | meterTick
  | wheelTick
  | create
  | quiesce
  | reset
  | remove
  | freeze
  | save
  | restore
  | thaw
  | scrub
  | guardCommitDone
  | admissionResume
  | admissionWaitExpiry
  | planTick
  | unlendSettleExpiry
  | resetTakedownExpiry
  | blockResetDone
  | wipeDone
  | calSaveDone
  | m2Entry
  | wakeTimer
  | heldPortLeaveL12
  | dipResumeExpiry
  | insertionDebounceExpiry
  | inputQualified
  | gateFullyEnhanced
  | inrushTimeout
  | currentLimitEngage
  | currentLimitRelease
  | limitTimerClear
  | faultTimerExpiry
  | gateOffExpiry
  | fuseTrip
  | retryTimerExpiry
  | retryCountClear
  | auxLowSave
  | plinthPowerLoss
  | plinthPowerUp
  | alertResponse
  | jtagBypass
  | jtagIdcode
  | jtagExtest
  | jtagExtestPulse
  | jtagExtestTrain
  | jtagDebug
  | corePllLoss
  | dramClockLoss
  deriving DecidableEq, Repr

end Sys2Proof
end

