-- ==== Sys2Proof/WellFormed.lean ====
section
/-! DEFINITION. Which commands a sender can send: the fields of what arrives stay within the widths that the spec gives
them, and lists have the lengths that the spec gives. The meanings are total; a term that fails these checks is no
command of the hardware. -/

namespace Sys2Proof

/-- An offset of a register access: within the 128 MiB of BAR0, aligned to the access's size (R15, R16). -/
def offsetOk (off : Nat) (wide : Bool) : Bool := decide (off < 2 ^ 27) && off % (if wide then 8 else 4) == 0

/-- The data of a read's end are no more than a read asks for (R39); a read that fails may have given data before (R168). -/
def Cpl.wellFormed (c : Cpl) : Bool := decide (c.data.length ≤ 4096)

/-- The fields of a TLP: a requester ID of 16 bits, a tag of 14, a PASID of 20, a class of 3, a 64-bit address, and a payload of
at most 4,096 bytes; its prefixes, header and ECRC are whole double words of at most 64 B (R39, R40, R51). -/
def Tlp.wellFormed (t : Tlp) : Bool :=
  decide (t.addr < 2 ^ 64) && decide (t.rid < 2 ^ 16) && decide (t.tag < 2 ^ 14) && decide (t.pasid.getD 0 < 2 ^ 20) &&
  decide (t.tc < 8) && decide (t.len ≤ 4096) && decide (t.data.length ≤ 4096) &&
  decide (12 ≤ t.hdr) && decide (t.hdr ≤ 64) && t.hdr % 4 == 0

/-- The fields of a segment and of its flit header, at most 240 bytes of data (R251, R271). -/
def Segment.wellFormed (g : Segment) : Bool :=
  decide (g.cseq < 2 ^ 32) && decide (g.hops < 16) && decide (g.dstPort < 64) && decide (g.origin < 128) && decide (g.vc < 8) &&
  decide (g.tc < 8) && decide (g.dstPath < 4096) && decide (g.srcPath < 4096) && decide (g.data.length ≤ 240)

/-- A PCI Express link has 1, 2, 4, 8 or 16 lanes (R199, R225), a rate of R200, and FLIT mode at 64 GT/s. -/
def LinkUp.wellFormed (l : LinkUp) : Bool :=
  [1, 2, 4, 8, 16].contains l.width && decide (l.rate ≤ 5) && (l.flit || l.rate != 5) && decide (l.eq.length ≤ l.width)

/-- A scan has one sub-eye, or the three of PAM4, with at most 128 steps each way (R237). -/
def scanOk (s : List SubEye) : Bool :=
  decide (s.length ≤ 3) && s.all (fun e => decide (e.volt.length ≤ 128) && decide (e.phase.length ≤ 128))

/-- An adaptation scans at most the 16 CTLE codes, the best again and two beside it, and has 12 DFE taps (R236, R238). -/
def Adaptation.wellFormed (a : Adaptation) : Bool :=
  decide (a.coarse.length ≤ 16) && decide (a.beside.length ≤ 2) && decide (a.taps.length ≤ 12) &&
  (a.scan :: a.again :: (a.coarse ++ a.beside)).all scanOk

/-- A power-front-end sample is a 16-bit word (R360). -/
def sampleOk (v : Nat) : Bool := decide (v < 65536)

/-- What a sender can send, command by command. -/
def Instr.wellFormed : Instr → Bool
  | .registerWrite _ off wide _ => offsetOk off wide
  | .counterReadLatch _ off => offsetOk off false
  | .counterWrite _ off wide _ => offsetOk off wide
  | .hwmClear _ off _ => offsetOk off false
  | .refusedRegisterAccess _ off _ _ => decide (off < 2 ^ 27)
  | .csrWatchdogExpiry _ off _ => offsetOk off false
  | .counterWrap off _ => offsetOk off true
  | .samplePoint off => offsetOk off true
  | .tlpReceive _ t _ => t.wellFormed
  | .fetchReadCompletion _ _ c => c.wellFormed
  | .blobReadCompletion c => c.wellFormed
  | .imageCheckDone x => x.bar2Gib.all (fun g => (List.range 12).any (fun i => g == 2 ^ i))
  | .hodReadCompletion _ _ c => c.wellFormed
  | .ingestCompletion _ _ c => c.wellFormed
  | .readyPollCompletion _ c => c.wellFormed
  | .sweepReadCompletion _ _ c => c.wellFormed
  | .refetchCompletion _ _ c => c.wellFormed
  | .parkWindowStore _ _ _ d => decide (d.length ≤ 4096)
  | .lateCompletion _ tag h => decide (tag < 1024) && decide (h.length ≤ 4)
  | .portLinkUp _ width rate x => LinkUp.wellFormed { x with width := width, rate := rate }
  | .shelfLinkUp x => x.link.wellFormed
  | .flitReceive _ ls ws => ls.length == ws.length && ws.all (fun w => w.length == 2720)
  | .amReceive _ ws first last => ws.all (fun w => w.length == 2720) && decide (first ≤ last)
  | .framingLoss x => x.words.all (fun w => w.length == 2720)
  | .adaptationDone _ lock coarse again beside taps scan => Adaptation.wellFormed ⟨lock, coarse, again, beside, taps, scan⟩
  | .eyeMeasurementDone _ s t => scanOk s && decide (t.length ≤ 12)
  | .tuneSettleExpiry _ _ s => scanOk s
  | .segmentReceive _ g => g.wellFormed
  | .sync _ g => g.wellFormed
  | .cackReceive _ g => g.wellFormed
  | .heartbeatAck _ a => decide (a.path < 4096) && decide (a.ports.length ≤ 8)
  | .errReport _ _ _ h => h.length == 4
  | .dramTrainingDone cal => cal.length == 8
  | .telemetrySample v a t cages => sampleOk v && sampleOk a && sampleOk t && decide (cages.length ≤ 8)
  | .supplyResetDetect v => sampleOk v
  | .overVoltageDetect v => sampleOk v
  | .tempWarning t => sampleOk t
  | .tempCritical t => sampleOk t
  | .configurationWrite _ off _ _ => decide (off < 4096) && off % 4 == 0
  | .debugAccess _ addr wide _ => addr % (if wide then 8 else 4) == 0
  | .imgData d _ _ => decide (d.length ≤ 32)
  | .regAddr d _ => decide (d.length ≤ 32)
  | .regWrite d _ => decide (d.length ≤ 32)
  | .warmReset d _ => decide (d.length ≤ 32)
  | .coldReset d _ => decide (d.length ≤ 32)
  | .imgBegin d _ => decide (d.length ≤ 32)
  | .cellSlotMatch => true
  | .ptrReset _ _ => true
  | .bufEccError _ _ => true
  | .bufCommitGo _ _ => true
  | .bufCommitDone => true
  | .egressSend _ _ _ _ => true
  | .meterTick => true
  | .wheelTick => true
  | .meterWrite _ _ _ _ => true
  | .sqDoorbell _ _ _ _ => true
  | .cqDoorbell _ _ _ _ => true
  | .eqDoorbell _ _ _ => true
  | .qpEnable _ _ _ _ => true
  | .qpDisable _ _ _ _ => true
  | .eqEnable _ _ _ => true
  | .descriptorFetch _ => true
  | .move _ => true
  | .parkWrite _ => true
  | .parkRead _ => true
  | .fence _ => true
  | .nop _ => true
  | .guardCommit _ => true
  | .create => true
  | .quiesce => true
  | .reset => true
  | .remove => true
  | .freeze => true
  | .save => true
  | .restore => true
  | .thaw => true
  | .scrub => true
  | .scrubComplete _ => true
  | .blobWriteCompletion _ => true
  | .sliceAtRest _ => true
  | .quiesceLimitExpiry _ => true
  | .freezeDeadline _ => true
  | .sliceFault _ => true
  | .hodGo _ _ _ => true
  | .hodAbort _ _ _ _ => true
  | .hodShadowWrite _ _ _ _ _ _ => true
  | .hodSealWrite _ _ _ _ => true
  | .hodHoldWrite _ _ _ => true
  | .hodPick _ => true
  | .hodReservationAdmit _ => true
  | .retryGapExpiry _ => true
  | .hodFlushCompletion _ _ => true
  | .irqTimeExpiry _ => true
  | .msiUnmask _ _ => true
  | .completionTimeout _ _ => true
  | .tagQuarantineExpiry _ _ => true
  | .parkWindowLoad _ _ _ => true
  | .mergeWindowExpiry _ => true
  | .slcFenceGo _ _ _ => true
  | .loadReserved _ _ => true
  | .conditionalStore _ _ => true
  | .rsvAddrWrite _ _ _ _ _ => true
  | .reservationExpiry _ => true
  | .grdCommitGo _ _ => true
  | .guardCommitDone => true
  | .guardRuleWrite _ _ _ _ _ _ => true
  | .guardParityError _ => true
  | .admissionResume => true
  | .admissionWaitExpiry => true
  | .planTick => true
  | .batchWindowExpiry _ => true
  | .promoteExpiry _ => true
  | .entryExpiry _ => true
  | .ledgerBudgetWrite _ _ => true
  | .shelfPinWrite _ _ _ => true
  | .wakeNow _ _ => true
  | .clearFail _ _ => true
  | .peekGo _ _ => true
  | .shelfPgAssert _ => true
  | .perstReleaseExpiry _ => true
  | .readyDelayExpiry _ => true
  | .readyPollTimer _ => true
  | .sweepFlushCompletion _ _ => true
  | .sweepHoldExpiry _ => true
  | .idleHoldExpiry _ => true
  | .pwrreqReleaseExpiry _ => true
  | .shelfPgDeassert _ => true
  | .minOffExpiry _ => true
  | .pgTimeout _ => true
  | .linkTimeout _ => true
  | .readyTimeout _ => true
  | .pgOffTimeout _ => true
  | .shelfLinkDown _ => true
  | .dramUncorrectableError _ _ => true
  | .patrolScrub _ _ => true
  | .dramChannelFailure _ _ => true
  | .portLinkDown _ => true
  | .dpcTrigger _ => true
  | .portContain _ _ _ => true
  | .portRelease _ _ _ => true
  | .dpcStatusClear _ => true
  | .slotPresentWrite _ _ _ => true
  | .secondaryBusReset _ _ => true
  | .mcReceiveWrite _ _ _ => true
  | .l1IdleExpiry _ => true
  | .hostPerstAssert _ => true
  | .hostPerstDeassert _ => true
  | .bmeClear _ => true
  | .bmeSet _ => true
  | .functionLevelReset _ => true
  | .upstreamLinkReset _ => true
  | .resetDrainExpiry _ => true
  | .powerStateWrite _ _ => true
  | .signalDetect _ => true
  | .txCoefWrite _ _ _ => true
  | .tileTestWrite _ _ _ => true
  | .camtexRateWrite _ _ _ => true
  | .marginCommand _ _ => true
  | .tileGate _ => true
  | .tileUngate _ => true
  | .tilePllLoss _ => true
  | .flitSend _ => true
  | .replayTimerExpiry _ => true
  | .lrReceive _ _ => true
  | .fabReset _ _ _ => true
  | .resetHoldExpiry _ => true
  | .trainingRecordReceive _ _ _ => true
  | .tuneTimeout _ => true
  | .trainTimeout _ => true
  | .backoffExpiry _ => true
  | .cackDelayExpiry _ _ => true
  | .resendIntervalExpiry _ _ => true
  | .streamTimeout _ _ => true
  | .candidate _ _ _ _ _ => true
  | .heartbeat _ _ _ _ _ => true
  | .heartbeatTimer _ => true
  | .electionCollectExpiry _ => true
  | .keystoneLossTimeout _ => true
  | .memberLost _ => true
  | .orphanExpiry _ => true
  | .alert _ _ _ => true
  | .resetReq _ _ _ => true
  | .linkState _ _ _ _ _ => true
  | .powerGood _ _ _ => true
  | .wakeReq _ _ => true
  | .park _ _ => true
  | .lendReq _ => true
  | .lendGo _ _ => true
  | .unlendSettleExpiry => true
  | .rtWordWrite _ _ _ _ => true
  | .rtEntryCommit _ _ _ => true
  | .streamPeek _ _ => true
  | .wakePatternDetect _ => true
  | .sleeperSignalDetect _ => true
  | .eventStormEnd _ _ => true
  | .queueEngineWatchdog _ => true
  | .parkEngineWatchdog _ => true
  | .mgmtCoreWatchdog _ => true
  | .pmcRunWrite _ _ => true
  | .clkResetWarm _ _ => true
  | .clkResetCold _ _ => true
  | .clkResetOff _ _ => true
  | .resetTakedownExpiry => true
  | .blockReset _ _ => true
  | .blockResetDone => true
  | .wipeDone => true
  | .lifecycleCommand _ _ => true
  | .imageUpdateGo _ _ => true
  | .imageUpdateDone _ => true
  | .calSave _ _ => true
  | .calSaveDone => true
  | .m2Entry => true
  | .wakeTimer => true
  | .heldPortLeaveL12 => true
  | .hostTrainingStart _ => true
  | .dipResumeExpiry => true
  | .presenceChange _ _ => true
  | .insertionDebounceExpiry => true
  | .inputQualified => true
  | .gateFullyEnhanced => true
  | .powerGoodQualified _ => true
  | .inrushTimeout => true
  | .currentLimitEngage => true
  | .currentLimitRelease => true
  | .limitTimerClear => true
  | .faultTimerExpiry => true
  | .gateOffExpiry => true
  | .fuseTrip => true
  | .retryTimerExpiry => true
  | .retryCountClear => true
  | .powerOnCommand _ _ => true
  | .retryClear _ _ => true
  | .auxLowSave => true
  | .plinthPowerLoss => true
  | .plinthPowerUp => true
  | .cageOvercurrent _ => true
  | .cagePresenceChange _ _ => true
  | .cageResetRelease _ => true
  | .cageInterrupt _ => true
  | .shelfAlertChange _ _ => true
  | .regRead _ => true
  | .wake _ => true
  | .imgEnd _ _ => true
  | .alertResponse => true
  | .jtagBypass => true
  | .jtagIdcode => true
  | .jtagSamplePreload _ _ => true
  | .jtagExtest => true
  | .jtagExtestPulse => true
  | .jtagExtestTrain => true
  | .jtagDebug => true
  | .corePllLoss => true
  | .dramClockLoss => true
  | .tilePllLock _ => true
  | .sramUncorrectableError _ => true
  | .dramCorrectedError _ => true
  | .blockLock _ _ => true
  | .prbsCheckerLock _ _ => true
  | .wakePatternEnd _ => true
  | .firmwareCheckDone _ => true

end Sys2Proof
end

