-- ==== Sys2Proof/Config.lean ====
section
/-! DEFINITION. What the spec leaves open and the model does not choose: the free values, and the sizes the spec
fixes for the whole module. -/

namespace Sys2Proof

/-- Free value: the gap the random sampler draws (R60 names a 32-bit LFSR and gives no polynomial). -/
opaque Config.freeGap : Nat → BitVec 32

/-- Free value: a byte that the spec does not state (log entry 4). -/
opaque Config.freeByte : Nat → BitVec 8

/-- Free value: a 32-bit word that the spec does not state (log entry 4). -/
opaque Config.freeWord : Nat → BitVec 32

/-- Free value: the SECDED check bits of a sideband word (R38 names the code and gives no matrix). -/
opaque Config.secded : BitVec 40 → BitVec 7

/-- Free value: the slot address that the straps GA2-GA0 of the backplane give (R361, R368). -/
opaque Config.slotAddress : BitVec 3

/-- Cells of the cell buffer (R37). -/
def Config.cells : Nat := 262144
/-- Hold-buffer slots (R273). -/
def Config.holdSlots : Nat := 65536
/-- The code of CLK_RESET and of the SMBus resets. -/
def Config.resetCode : Nat := 0xA5C3
/-- The code of CLK_LC_CMD. -/
def Config.lifecycleCode : Nat := 0x7E11
/-- The code of CLK_CAL_CTL. -/
def Config.calCode : Nat := 0xCA1B

end Sys2Proof
end

