-- ==== Sys2Proof/Machine/RegMap.lean ====
section
/-! DEFINITION. The register map of BAR0 (R378, R387): one row per register type, its address, its layout,
which bits each access code of R13 covers, and its reset word (R17). The rows are the register tables of the
chapters; a field marked img, cal or fix has 0 in the reset word, the gains of the front end's
converters the neutral 0x8000, and is loaded later (log entry 3). -/

namespace Sys2Proof.Machine

/-- The register types of the index (R387). The eight registers of a routing-table entry are named one by one
(R287), and the read-only HOD_CH_ACT registers mirror the shadow layouts of R104. -/
inductive RegName where
  | GLB_PRODUCT_ID | GLB_SERIAL | GLB_PARTITIONS | GLB_ACCESSOR | GLB_BADACC | GLB_SCRATCH | EVT_STATUS | EVT_MASK
  | EVT_CFG | EVT_LOG_PTR | EVT_NEST | EVT_FATAL | EVT_FATAL_CTL | EVT_CNT | EVT_LOG | PMC_GLOBAL | PMC_OVF | PMC_CFG
  | PMC_PERIOD | PMC_CNT | PWR_STATUS | PWR_CTL | PWR_UV_CFG | PWR_OV_CFG | PWR_RETRY | PWR_SHED | PWR_TEMP_CFG
  | PWR_MEAS_V | PWR_MEAS_I | PWR_MEAS_P | PWR_MEAS_T | PWR_ENERGY | PWR_PEAK | PWR_DIP_LOG | PWR_FAULT
  | PWR_FAULT_TOD | PWR_CAL_I | PWR_CAL_V | PWR_CAGE | PWR_CNT | CLK_STATUS | CLK_TOD | CLK_NS | CLK_RESET
  | CLK_RESET_CAUSE | CLK_BLK_RESET | CLK_LC_STATE | CLK_LC_CMD | CLK_IMG_ADDR | CLK_IMG_CTL | CLK_IMG_STATUS
  | CLK_CAL_CTL | CLK_CAL_STATUS | CLK_WAKE | CLK_WAKE_AT | CLK_WDOG_CNT | SER_LANE_CFG | SER_TX_COEF | SER_TX_START
  | SER_RX_CTL | SER_EYE | SER_STATUS | SER_PRBS | SER_LOOP | SER_PRBS_USER | SER_RX_DFE | SER_CNT | SER_TILE_CFG
  | SER_TILE_CTL | SER_TILE_STATUS | SER_EYE_CFG | PRT_CFG | PRT_CTL | PRT_STATUS | PRT_CPL_TO | PRT_SLOT | PRT_PM
  | PRT_MC | PRT_FC_ADV | PRT_CNT | PRT_LATE_LOG | PRT_LATE_INFO | XBR_CTRL | XBR_EGQ_LIMIT | XBR_TILE_WEIGHT
  | XBR_PTR | XBR_MC_VEC | XBR_MC_FAIL_LOG | XBR_MC_FAIL_CNT | XBR_MIR_CFG | XBR_MIR_FLOW | XBR_MIR_DROP
  | XBR_SAMPLE_CFG | XBR_SAMPLE_DROP | BUF_TOTAL | BUF_CFG | BUF_MIRROR_POOL | BUF_SHARED | BUF_COMMIT
  | BUF_SHARED_USE | BUF_MIRROR_USE | BUF_ECC_CE | BUF_ECC_UE | BUF_MIN | BUF_USE | SCH_NOW | SCH_PARK_TC
  | SCH_IN_TCMAP | SCH_IN_METER | SCH_SHELF_METER | SCH_Q_CFG | SCH_Q_SHAPE | SCH_Q_DEPTH | SCH_Q_HWM | SCH_BUF_HWM
  | SCH_METER_CIR | SCH_METER_PIR | SCH_METER_CBS | SCH_METER_PBS | PRK_CTRL | PRK_KEEP | PRK_CAPACITY | PRK_FREE
  | PRK_LIVE | PRK_ADMIT | PRK_PEER | PRK_GUEST | PRK_LEDGER_BUDGET | PRK_LEDGER_USE | PRK_SCRUB | PRK_SIDE_TIME
  | PRK_PLAN_STATE | PRK_PEEK_IDX | PRK_PEEK_STATUS | PRK_PEEK_DATA | PRK_WIN_CFG | PRK_CLASS_CFG | PRK_CLASS_EXPIRE
  | PRK_CLASS_BATCH | PRK_SHELF_PWR | PRK_SHELF_TIME | PRK_SHELF_READY | PRK_SHELF_CTL | PRK_SHELF_READY_ADDR
  | PRK_SHELF_READY_MASK | PRK_SHELF_READY_VAL | PRK_SHELF_STATE | PRK_SHELF_LIVE | PRK_SHELF_GRAN | PRK_SHELF_WAIT
  | PRK_CNT | HOD_CFG | HOD_STATUS | HOD_CTL | HOD_CNT | HOD_CH_SH_SRC | HOD_CH_SH_DST | HOD_CH_SH_COUNT
  | HOD_CH_SH_SPACE | HOD_CH_SH_PASID | HOD_CH_SH_JOB | HOD_CH_SH_TAG | HOD_CH_SH_SEAL | HOD_CH_ACT_SRC
  | HOD_CH_ACT_DST | HOD_CH_ACT_COUNT | HOD_CH_ACT_SPACE | HOD_CH_ACT_PASID | HOD_CH_ACT_JOB | HOD_CH_ACT_TAG
  | HOD_CH_MODE | HOD_CH_CTL | HOD_CH_STATUS | HOD_CH_PROGRESS | HOD_CH_ERRLOG | HOD_CH_ERRINFO | GRD_CFG
  | GRD_STATUS | GRD_FAULT_INFO | GRD_FAULT_ADDR | GRD_FAULT_PASID | GRD_CNT | GRD_RULE_BASE | GRD_RULE_LIMIT
  | GRD_RULE_ATTR | GRD_RULE_MATCH | GRD_COMMIT | GRD_COMMIT_MASK | SLC_FENCE | SLC_RSV_ADDR | SLC_RSV_LR
  | SLC_RSV_NEW | SLC_RSV_SC | SLC_SQ_DB | SLC_CQ_DB | SLC_EQ_DB | SLC_QP_SQ_BASE | SLC_QP_CQ_BASE | SLC_QP_CFG
  | SLC_QP_IRQ | SLC_QP_STATUS | SLC_QP_PTR | SLC_EQ_BASE | SLC_EQ_CFG | SLC_EQ_STATUS | SLC_STATE | SLC_BIND
  | SLC_RES | SLC_BASE | SLC_NAMES | SLC_QUOTA | SLC_CHAN | SLC_POOL_RES | SLC_POOL_METER | SLC_POOL_QUOTA
  | SLC_POOL_SLOTS | SLC_CTL_LAST | SLC_VC_CNT | SLC_VC_SEL | SLC_VC_PERIOD | FAB_CFG | FAB_TIME | FAB_CTL
  | FAB_STATUS | FAB_EXCL | FAB_PARTNER | FAB_PARTNER_INFO | FAB_SEQ | FAB_RX | FAB_CREDIT | FAB_CNT | BND_CFG
  | BND_TIME | BND_IDENT | BND_KEYSTONE | BND_HOLD | BND_HOLD_HWM | BND_ORPHAN | BND_ORPHAN_CNT | BND_STREAM_IDX
  | BND_STREAM_DATA | BND_ROUTE | BND_MEMBER | BND_LEND | BND_PORT_LEND | BND_LEND_CTL | BND_FAR_INFO | BND_FAR_LOG
  | BND_RT_MISS | BND_CNT | BND_RT0 | BND_RT1 | BND_RT2 | BND_RT3 | BND_RT4 | BND_RT5 | BND_RT6 | BND_RT7
  | MEM_CH_STATUS | MEM_CH_CFG | MEM_CH_ERRADDR | MEM_CH_CNT
  deriving DecidableEq, Repr

/-- One row of the register index: the address of instance (0, 0); the count and stride of the outer and of the
inner instance index; the number of 32-bit words; for each access code of R13 the bits that carry it (bits in none
of them are read-only or reserved); the bits kept over a warm reset (R14); the whole register's reset value. -/
structure RegRow where
  name : RegName
  base : Nat
  n1 : Nat := 1
  s1 : Nat := 0
  n2 : Nat := 1
  s2 : Nat := 0
  words : Nat := 1
  rw : Nat := 0
  w1c : Nat := 0
  w1s : Nat := 0
  wo : Nat := 0
  rs : Nat := 0
  img : Nat := 0
  cal : Nat := 0
  reset : Nat := 0
  deriving DecidableEq, Repr

/-- The GLB rows of R387. -/
def rowsGLB : List RegRow := [
  { name := .GLB_PRODUCT_ID, base := 0, reset := 0x25600100 },
  { name := .GLB_SERIAL, base := 8, words := 2 },
  { name := .GLB_PARTITIONS, base := 0x10, img := 0xff07 },
  { name := .GLB_ACCESSOR, base := 0x14 },
  { name := .GLB_BADACC, base := 0x20, words := 2, w1c := 0x8000000000000000 },
  { name := .GLB_SCRATCH, base := 0x40, n1 := 4, s1 := 4, rw := 0xffffffff, rs := 0xffffffff }]

/-- The EVT rows of R387. -/
def rowsEVT : List RegRow := [
  { name := .EVT_STATUS, base := 0x100000, n1 := 32, s1 := 4, w1c := 0xffffffff, rs := 0xffffffff },
  { name := .EVT_MASK, base := 0x100100, n1 := 32, s1 := 4, rw := 0xffffffff, img := 0xffffffff },
  { name := .EVT_CFG, base := 0x100200, rw := 0xffff, reset := 0x110 },
  { name := .EVT_LOG_PTR, base := 0x100204 },
  { name := .EVT_NEST, base := 0x100208 },
  { name := .EVT_FATAL, base := 0x100300, n1 := 4, s1 := 4, rs := 0xffffffff },
  { name := .EVT_FATAL_CTL, base := 0x100310, w1c := 1, rs := 1 },
  { name := .EVT_CNT, base := 0x100400, n1 := 5, s1 := 8, words := 2, w1c := 0x8000000000000000, rs := 0x8000000000000000 },
  { name := .EVT_LOG, base := 0x101000, n1 := 1024, s1 := 4 }]

/-- The PMC rows of R387. -/
def rowsPMC : List RegRow := [
  { name := .PMC_GLOBAL, base := 0x200000, rw := 1 },
  { name := .PMC_OVF, base := 0x200020, n1 := 8, s1 := 4 },
  { name := .PMC_CFG, base := 0x201000, n1 := 256, s1 := 4, rw := 0x1fffffff, reset := 0x1fc00 },
  { name := .PMC_PERIOD, base := 0x201400, n1 := 256, s1 := 4, rw := 0xffffffff },
  { name := .PMC_CNT, base := 0x202000, n1 := 256, s1 := 8, words := 2, rw := 0xffffffffffff, w1c := 0x8000000000000000 }]

/-- The PWR rows of R387. -/
def rowsPWR : List RegRow := [
  { name := .PWR_STATUS, base := 0x300000 },
  { name := .PWR_CTL, base := 0x300004, wo := 0xffffffff },
  { name := .PWR_UV_CFG, base := 0x300008, rw := 0x3ffffff, reset := 0xa5297c },
  { name := .PWR_OV_CFG, base := 0x30000c, rw := 0xffff, reset := 0x5320 },
  { name := .PWR_RETRY, base := 0x300010, rw := 0xff },
  { name := .PWR_SHED, base := 0x300014, rw := 1 },
  { name := .PWR_TEMP_CFG, base := 0x300018, rw := 0xffff, reset := 0x7364 },
  { name := .PWR_MEAS_V, base := 0x300020 },
  { name := .PWR_MEAS_I, base := 0x300024 },
  { name := .PWR_MEAS_P, base := 0x300028 },
  { name := .PWR_MEAS_T, base := 0x30002c },
  { name := .PWR_ENERGY, base := 0x300030, words := 2 },
  { name := .PWR_PEAK, base := 0x300038, wo := 0x80000000 },
  { name := .PWR_DIP_LOG, base := 0x300040, words := 2 },
  { name := .PWR_FAULT, base := 0x300048, w1c := 0x80000000 },
  { name := .PWR_FAULT_TOD, base := 0x300050, words := 2 },
  { name := .PWR_CAL_I, base := 0x300060, rw := 0xffffffff, cal := 0xffffffff, reset := 0x8000 },
  { name := .PWR_CAL_V, base := 0x300064, rw := 0xffffffff, cal := 0xffffffff, reset := 0x8000 },
  { name := .PWR_CAGE, base := 0x300080, n1 := 8, s1 := 4, rw := 1, w1c := 2, img := 1 },
  { name := .PWR_CNT, base := 0x300100, n1 := 8, s1 := 8, words := 2, w1c := 0x8000000000000000, rs := 0x8000000000000000 }]

/-- The CLK rows of R387. -/
def rowsCLK : List RegRow := [
  { name := .CLK_STATUS, base := 0x400000 },
  { name := .CLK_TOD, base := 0x400008, words := 2 },
  { name := .CLK_NS, base := 0x400010, words := 2 },
  { name := .CLK_RESET, base := 0x400020, wo := 0xffffffff },
  { name := .CLK_RESET_CAUSE, base := 0x400024 },
  { name := .CLK_BLK_RESET, base := 0x400028, rw := 0x1ff, w1c := 0x20000000, wo := 0x80000000, reset := 0x40000000 },
  { name := .CLK_LC_STATE, base := 0x400030 },
  { name := .CLK_LC_CMD, base := 0x400034, wo := 0xffffffff },
  { name := .CLK_IMG_ADDR, base := 0x400040, words := 2, rw := 0xffffffffffffffff },
  { name := .CLK_IMG_CTL, base := 0x400048, rw := 0xfffff003, wo := 4, reset := 8 },
  { name := .CLK_IMG_STATUS, base := 0x400050, img := 0xffff0000 },
  { name := .CLK_CAL_CTL, base := 0x400060, wo := 0xffffffff },
  { name := .CLK_CAL_STATUS, base := 0x400064, reset := 1 },
  { name := .CLK_WAKE, base := 0x400070 },
  { name := .CLK_WAKE_AT, base := 0x400078, words := 2, rw := 0xffffffffffffffff },
  { name := .CLK_WDOG_CNT, base := 0x400100, words := 2, w1c := 0x8000000000000000, rs := 0x8000000000000000 }]

/-- The SER rows of R387. -/
def rowsSER : List RegRow := [
  { name := .SER_LANE_CFG, base := 0x800000, n1 := 256, s1 := 0x400, rw := 0xf, img := 0xf },
  { name := .SER_TX_COEF, base := 0x800004, n1 := 256, s1 := 0x400, rw := 0x103ff, w1c := 0x20000, reset := 0xc000 },
  { name := .SER_TX_START, base := 0x800008, n1 := 256, s1 := 0x400, rw := 0x3ff03ff, cal := 0x3ff03ff },
  { name := .SER_RX_CTL, base := 0x80000c, n1 := 256, s1 := 0x400, rw := 0x3f0 },
  { name := .SER_EYE, base := 0x800010, n1 := 256, s1 := 0x400 },
  { name := .SER_STATUS, base := 0x800014, n1 := 256, s1 := 0x400, img := 0x3f0 },
  { name := .SER_PRBS, base := 0x800020, n1 := 256, s1 := 0x400, rw := 0xff },
  { name := .SER_LOOP, base := 0x800024, n1 := 256, s1 := 0x400, rw := 3 },
  { name := .SER_PRBS_USER, base := 0x800028, n1 := 256, s1 := 0x400, words := 2, rw := 0xffffffffffffffff },
  { name := .SER_RX_DFE, base := 0x800040, n1 := 256, s1 := 0x400, n2 := 12, s2 := 4 },
  { name := .SER_CNT, base := 0x800100, n1 := 256, s1 := 0x400, n2 := 8, s2 := 8, words := 2, w1c := 0x8000000000000000, rs := 0x8000000000000000 },
  { name := .SER_TILE_CFG, base := 0x840000, n1 := 32, s1 := 0x400, rw := 0xffffff40, img := 0xffff00ff, reset := 0x2000 },
  { name := .SER_TILE_CTL, base := 0x840004, n1 := 32, s1 := 0x400, rw := 3, img := 2 },
  { name := .SER_TILE_STATUS, base := 0x840008, n1 := 32, s1 := 0x400 },
  { name := .SER_EYE_CFG, base := 0x84000c, n1 := 32, s1 := 0x400, rw := 0x1ff, reset := 0x101 }]

/-- The PRT rows of R387. -/
def rowsPRT : List RegRow := [
  { name := .PRT_CFG, base := 0xc00000, n1 := 64, s1 := 0x1000, img := 0x1fffff },
  { name := .PRT_CTL, base := 0xc00004, n1 := 64, s1 := 0x1000, wo := 3 },
  { name := .PRT_STATUS, base := 0xc00008, n1 := 64, s1 := 0x1000, reset := 0x8000 },
  { name := .PRT_CPL_TO, base := 0xc0000c, n1 := 64, s1 := 0x1000, rw := 0xf, img := 0xf },
  { name := .PRT_SLOT, base := 0xc00010, n1 := 64, s1 := 0x1000, rw := 1, w1c := 2, img := 1 },
  { name := .PRT_PM, base := 0xc00014, n1 := 64, s1 := 0x1000, rw := 0x3ff, img := 0x3ff, reset := 0x78a000 },
  { name := .PRT_MC, base := 0xc00018, n1 := 64, s1 := 0x1000, img := 0x1fff },
  { name := .PRT_FC_ADV, base := 0xc00020, n1 := 64, s1 := 0x1000, n2 := 3, s2 := 4 },
  { name := .PRT_CNT, base := 0xc00100, n1 := 64, s1 := 0x1000, n2 := 8, s2 := 8, words := 2, w1c := 0x8000000000000000, rs := 0x8000000000000000 },
  { name := .PRT_LATE_LOG, base := 0xc00180, n1 := 64, s1 := 0x1000, n2 := 4, s2 := 4 },
  { name := .PRT_LATE_INFO, base := 0xc00190, n1 := 64, s1 := 0x1000, w1c := 0x80000000 }]

/-- The XBR rows of R387. -/
def rowsXBR : List RegRow := [
  { name := .XBR_CTRL, base := 0x1000000, rw := 3, wo := 4, reset := 3 },
  { name := .XBR_EGQ_LIMIT, base := 0x1000010, rw := 0xffffffff, reset := 0x80808080 },
  { name := .XBR_TILE_WEIGHT, base := 0x1000100, n1 := 64, s1 := 4, rw := 0x1f, img := 0x1f },
  { name := .XBR_PTR, base := 0x1000200, n1 := 42, s1 := 4 },
  { name := .XBR_MC_VEC, base := 0x1001000, n1 := 64, s1 := 8, words := 2, rw := 0xffffffffffffffff, img := 0xffffffffffffffff },
  { name := .XBR_MC_FAIL_LOG, base := 0x1001400, w1c := 0x80000000 },
  { name := .XBR_MC_FAIL_CNT, base := 0x1001408, words := 2, w1c := 0x8000000000000000, rs := 0x8000000000000000 },
  { name := .XBR_MIR_CFG, base := 0x1002000, n1 := 4, s1 := 0x20, rw := 0x3ffff },
  { name := .XBR_MIR_FLOW, base := 0x1002004, n1 := 4, s1 := 0x20, rw := 0xffffffff },
  { name := .XBR_MIR_DROP, base := 0x1002008, n1 := 4, s1 := 0x20, words := 2, w1c := 0x8000000000000000, rs := 0x8000000000000000 },
  { name := .XBR_SAMPLE_CFG, base := 0x1002100, rw := 0x1ffffff },
  { name := .XBR_SAMPLE_DROP, base := 0x1002108, words := 2, w1c := 0x8000000000000000, rs := 0x8000000000000000 }]

/-- The BUF rows of R387. -/
def rowsBUF : List RegRow := [
  { name := .BUF_TOTAL, base := 0x1200000, reset := 0x40000 },
  { name := .BUF_CFG, base := 0x1200004, rw := 7, reset := 3 },
  { name := .BUF_MIRROR_POOL, base := 0x1200008, rw := 0xfffff, img := 0xfffff },
  { name := .BUF_SHARED, base := 0x120000c, img := 0xfffff },
  { name := .BUF_COMMIT, base := 0x1200010, w1c := 4, wo := 1, reset := 2 },
  { name := .BUF_SHARED_USE, base := 0x1200014 },
  { name := .BUF_MIRROR_USE, base := 0x1200018 },
  { name := .BUF_ECC_CE, base := 0x1200100, words := 2, w1c := 0x8000000000000000, rs := 0x8000000000000000 },
  { name := .BUF_ECC_UE, base := 0x1200108, words := 2, w1c := 0x8000000000000000, rs := 0x8000000000000000 },
  { name := .BUF_MIN, base := 0x1201000, n1 := 219, s1 := 4, rw := 0xffff, img := 0xffff },
  { name := .BUF_USE, base := 0x1202000, n1 := 219, s1 := 4 }]

/-- The SCH rows of R387. -/
def rowsSCH : List RegRow := [
  { name := .SCH_NOW, base := 0x1400000, words := 2 },
  { name := .SCH_PARK_TC, base := 0x1400010, rw := 0x777, reset := 0x246 },
  { name := .SCH_IN_TCMAP, base := 0x1401000, n1 := 64, s1 := 4, rw := 0xffffff, img := 0xffffff },
  { name := .SCH_IN_METER, base := 0x1401100, n1 := 64, s1 := 4, rw := 0x1fff, img := 0x1fff },
  { name := .SCH_SHELF_METER, base := 0x1401200, n1 := 56, s1 := 4, rw := 0x1fff, img := 0x1fff },
  { name := .SCH_Q_CFG, base := 0x1404000, n1 := 512, s1 := 4, rw := 0x3ffff, img := 0x3ffff },
  { name := .SCH_Q_SHAPE, base := 0x1405000, n1 := 512, s1 := 8, words := 2, rw := 0xfffff00ffffff },
  { name := .SCH_Q_DEPTH, base := 0x1406000, n1 := 512, s1 := 4 },
  { name := .SCH_Q_HWM, base := 0x1407000, n1 := 512, s1 := 4, wo := 0x80000000 },
  { name := .SCH_BUF_HWM, base := 0x1408000, n1 := 221, s1 := 4, wo := 0x80000000 },
  { name := .SCH_METER_CIR, base := 0x1410000, n1 := 4096, s1 := 0x10, rw := 0x1ffffff },
  { name := .SCH_METER_PIR, base := 0x1410004, n1 := 4096, s1 := 0x10, rw := 0xffffff },
  { name := .SCH_METER_CBS, base := 0x1410008, n1 := 4096, s1 := 0x10, rw := 0xffffff, reset := 0x440 },
  { name := .SCH_METER_PBS, base := 0x141000c, n1 := 4096, s1 := 0x10, rw := 0xffffff, reset := 0x440 }]

/-- The PRK rows of R387. -/
def rowsPRK : List RegRow := [
  { name := .PRK_CTRL, base := 0x1800000, rw := 3, img := 1 },
  { name := .PRK_KEEP, base := 0x1800004, rw := 1, rs := 1 },
  { name := .PRK_CAPACITY, base := 0x1800008, img := 0x3fffffff },
  { name := .PRK_FREE, base := 0x180000c, img := 0x3fffffff },
  { name := .PRK_LIVE, base := 0x1800010 },
  { name := .PRK_ADMIT, base := 0x1800014, rw := 0xffff, img := 0xffff },
  { name := .PRK_PEER, base := 0x1800018, rw := 0x1fff, img := 0x1fff },
  { name := .PRK_GUEST, base := 0x180001c, rw := 0xfff, img := 0xfff },
  { name := .PRK_LEDGER_BUDGET, base := 0x1800020, rw := 0xffff, img := 0xffff },
  { name := .PRK_LEDGER_USE, base := 0x1800024 },
  { name := .PRK_SCRUB, base := 0x1800028, rw := 0x1ff, reset := 0x118 },
  { name := .PRK_SIDE_TIME, base := 0x180002c, rw := 0xffffffff, reset := 0xa3e87d0 },
  { name := .PRK_PLAN_STATE, base := 0x1800030 },
  { name := .PRK_PEEK_IDX, base := 0x1800040, rw := 0x3fffff, wo := 0x80000000 },
  { name := .PRK_PEEK_STATUS, base := 0x1800044, reset := 1 },
  { name := .PRK_PEEK_DATA, base := 0x1800080, n1 := 16, s1 := 4 },
  { name := .PRK_WIN_CFG, base := 0x1800100, n1 := 16, s1 := 4, img := 0xbfff07ff },
  { name := .PRK_CLASS_CFG, base := 0x1800200, n1 := 3, s1 := 0x10, rw := 0xfffffff, img := 0xfffffff },
  { name := .PRK_CLASS_EXPIRE, base := 0x1800204, n1 := 3, s1 := 0x10, rw := 0xffffffff, img := 0xffffffff },
  { name := .PRK_CLASS_BATCH, base := 0x1800208, n1 := 3, s1 := 0x10, rw := 0xfff, img := 0xfff },
  { name := .PRK_SHELF_PWR, base := 0x1801000, n1 := 56, s1 := 0x20, rw := 0xfffffff, img := 0xfffffff },
  { name := .PRK_SHELF_TIME, base := 0x1801004, n1 := 56, s1 := 0x20, rw := 0xffffffff, img := 0xffffffff },
  { name := .PRK_SHELF_READY, base := 0x1801008, n1 := 56, s1 := 0x20, rw := 0x3ff, img := 0x3ff },
  { name := .PRK_SHELF_CTL, base := 0x180100c, n1 := 56, s1 := 0x20, rw := 1, wo := 6 },
  { name := .PRK_SHELF_READY_ADDR, base := 0x1801010, n1 := 56, s1 := 0x20, words := 2, rw := 0xffffffffffffffff, img := 0xffffffffffffffff },
  { name := .PRK_SHELF_READY_MASK, base := 0x1801018, n1 := 56, s1 := 0x20, rw := 0xffffffff, img := 0xffffffff },
  { name := .PRK_SHELF_READY_VAL, base := 0x180101c, n1 := 56, s1 := 0x20, rw := 0xffffffff, img := 0xffffffff },
  { name := .PRK_SHELF_STATE, base := 0x1802000, n1 := 56, s1 := 0x10 },
  { name := .PRK_SHELF_LIVE, base := 0x1802004, n1 := 56, s1 := 0x10 },
  { name := .PRK_SHELF_GRAN, base := 0x1802008, n1 := 56, s1 := 0x10 },
  { name := .PRK_SHELF_WAIT, base := 0x180200c, n1 := 56, s1 := 0x10 },
  { name := .PRK_CNT, base := 0x1803000, n1 := 16, s1 := 8, words := 2, w1c := 0x8000000000000000, rs := 0x8000000000000000 }]

/-- The HOD rows of R387. -/
def rowsHOD : List RegRow := [
  { name := .HOD_CFG, base := 0x1c00000, n1 := 16, s1 := 0x10000, rw := 0xfffff7f, img := 1, reset := 0xa80034 },
  { name := .HOD_STATUS, base := 0x1c00004, n1 := 16, s1 := 0x10000 },
  { name := .HOD_CTL, base := 0x1c00008, n1 := 16, s1 := 0x10000, rw := 1 },
  { name := .HOD_CNT, base := 0x1c00100, n1 := 16, s1 := 0x10000, n2 := 8, s2 := 8, words := 2, w1c := 0x8000000000000000, rs := 0x8000000000000000 },
  { name := .HOD_CH_SH_SRC, base := 0x1c01000, n1 := 16, s1 := 0x10000, n2 := 64, s2 := 0x100, words := 2, rw := 0xffffffffffffffff },
  { name := .HOD_CH_SH_DST, base := 0x1c01008, n1 := 16, s1 := 0x10000, n2 := 64, s2 := 0x100, words := 2, rw := 0xffffffffffffffff },
  { name := .HOD_CH_SH_COUNT, base := 0x1c01010, n1 := 16, s1 := 0x10000, n2 := 64, s2 := 0x100, words := 2, rw := 0xffffffffff },
  { name := .HOD_CH_SH_SPACE, base := 0x1c01018, n1 := 16, s1 := 0x10000, n2 := 64, s2 := 0x100, rw := 0x3f3f77 },
  { name := .HOD_CH_SH_PASID, base := 0x1c0101c, n1 := 16, s1 := 0x10000, n2 := 64, s2 := 0x100, rw := 0x1fffff },
  { name := .HOD_CH_SH_JOB, base := 0x1c01020, n1 := 16, s1 := 0x10000, n2 := 64, s2 := 0x100, rw := 0xffffffff, reset := 0x30000 },
  { name := .HOD_CH_SH_TAG, base := 0x1c01028, n1 := 16, s1 := 0x10000, n2 := 64, s2 := 0x100, words := 2, rw := 0x3fffffffff },
  { name := .HOD_CH_SH_SEAL, base := 0x1c01030, n1 := 16, s1 := 0x10000, n2 := 64, s2 := 0x100, rw := 1 },
  { name := .HOD_CH_ACT_SRC, base := 0x1c01040, n1 := 16, s1 := 0x10000, n2 := 64, s2 := 0x100, words := 2 },
  { name := .HOD_CH_ACT_DST, base := 0x1c01048, n1 := 16, s1 := 0x10000, n2 := 64, s2 := 0x100, words := 2 },
  { name := .HOD_CH_ACT_COUNT, base := 0x1c01050, n1 := 16, s1 := 0x10000, n2 := 64, s2 := 0x100, words := 2 },
  { name := .HOD_CH_ACT_SPACE, base := 0x1c01058, n1 := 16, s1 := 0x10000, n2 := 64, s2 := 0x100 },
  { name := .HOD_CH_ACT_PASID, base := 0x1c0105c, n1 := 16, s1 := 0x10000, n2 := 64, s2 := 0x100 },
  { name := .HOD_CH_ACT_JOB, base := 0x1c01060, n1 := 16, s1 := 0x10000, n2 := 64, s2 := 0x100 },
  { name := .HOD_CH_ACT_TAG, base := 0x1c01068, n1 := 16, s1 := 0x10000, n2 := 64, s2 := 0x100, words := 2 },
  { name := .HOD_CH_MODE, base := 0x1c01080, n1 := 16, s1 := 0x10000, n2 := 64, s2 := 0x100, img := 0x7ff },
  { name := .HOD_CH_CTL, base := 0x1c01084, n1 := 16, s1 := 0x10000, n2 := 64, s2 := 0x100, wo := 3 },
  { name := .HOD_CH_STATUS, base := 0x1c01088, n1 := 16, s1 := 0x10000, n2 := 64, s2 := 0x100 },
  { name := .HOD_CH_PROGRESS, base := 0x1c01090, n1 := 16, s1 := 0x10000, n2 := 64, s2 := 0x100, words := 2 },
  { name := .HOD_CH_ERRLOG, base := 0x1c01098, n1 := 16, s1 := 0x10000, n2 := 64, s2 := 0x100, words := 2 },
  { name := .HOD_CH_ERRINFO, base := 0x1c010a0, n1 := 16, s1 := 0x10000, n2 := 64, s2 := 0x100, w1c := 0x80000000 }]

/-- The GRD rows of R387. -/
def rowsGRD : List RegRow := [
  { name := .GRD_CFG, base := 0x2000000, n1 := 41, s1 := 0x4000, img := 1 },
  { name := .GRD_STATUS, base := 0x2000004, n1 := 41, s1 := 0x4000 },
  { name := .GRD_FAULT_INFO, base := 0x2000010, n1 := 41, s1 := 0x4000, w1c := 0x80000000 },
  { name := .GRD_FAULT_ADDR, base := 0x2000018, n1 := 41, s1 := 0x4000, words := 2 },
  { name := .GRD_FAULT_PASID, base := 0x2000020, n1 := 41, s1 := 0x4000 },
  { name := .GRD_CNT, base := 0x2000100, n1 := 41, s1 := 0x4000, n2 := 8, s2 := 8, words := 2, w1c := 0x8000000000000000, rs := 0x8000000000000000 },
  { name := .GRD_RULE_BASE, base := 0x2001000, n1 := 41, s1 := 0x4000, n2 := 64, s2 := 0x20, words := 2, rw := 0xfffffffffffff000, img := 0xfffffffffffff000 },
  { name := .GRD_RULE_LIMIT, base := 0x2001008, n1 := 41, s1 := 0x4000, n2 := 64, s2 := 0x20, words := 2, rw := 0xfffffffffffff000, img := 0xfffffffffffff000 },
  { name := .GRD_RULE_ATTR, base := 0x2001010, n1 := 41, s1 := 0x4000, n2 := 64, s2 := 0x20, rw := 0x5ffff, img := 0x8005ffff },
  { name := .GRD_RULE_MATCH, base := 0x2001018, n1 := 41, s1 := 0x4000, n2 := 64, s2 := 0x20, words := 2, rw := 0xfffffffff, img := 0xfffffffff },
  { name := .GRD_COMMIT, base := 0x2100000, w1c := 4, wo := 1, reset := 2 },
  { name := .GRD_COMMIT_MASK, base := 0x2100008, words := 2, rw := 0x1ffffffffff }]

/-- The SLC rows of R387. -/
def rowsSLC : List RegRow := [
  { name := .SLC_FENCE, base := 0x2400f00, n1 := 1024, s1 := 0x1000, wo := 3, reset := 0x100 },
  { name := .SLC_RSV_ADDR, base := 0x2400f10, n1 := 1024, s1 := 0x1000, words := 2, rw := 0x1ffffffffff },
  { name := .SLC_RSV_LR, base := 0x2400f18, n1 := 1024, s1 := 0x1000, words := 2 },
  { name := .SLC_RSV_NEW, base := 0x2400f20, n1 := 1024, s1 := 0x1000, words := 2, rw := 0xffffffffffffffff },
  { name := .SLC_RSV_SC, base := 0x2400f28, n1 := 1024, s1 := 0x1000 },
  { name := .SLC_SQ_DB, base := 0x2400000, n1 := 1024, s1 := 0x1000, n2 := 64, s2 := 8, wo := 0xffffffff },
  { name := .SLC_CQ_DB, base := 0x2400004, n1 := 1024, s1 := 0x1000, n2 := 64, s2 := 8, wo := 0xffffffff },
  { name := .SLC_EQ_DB, base := 0x2400200, n1 := 1024, s1 := 0x1000, wo := 0xffffffff },
  { name := .SLC_QP_SQ_BASE, base := 0x2400400, n1 := 1024, s1 := 0x1000, n2 := 64, s2 := 0x20, words := 2, rw := 0xfffffffffffff000 },
  { name := .SLC_QP_CQ_BASE, base := 0x2400408, n1 := 1024, s1 := 0x1000, n2 := 64, s2 := 0x20, words := 2, rw := 0xfffffffffffff000 },
  { name := .SLC_QP_CFG, base := 0x2400410, n1 := 1024, s1 := 0x1000, n2 := 64, s2 := 0x20, rw := 0x3fff, w1c := 0x4000, reset := 0x198c },
  { name := .SLC_QP_IRQ, base := 0x2400414, n1 := 1024, s1 := 0x1000, n2 := 64, s2 := 0x20, rw := 0x7fffffff, reset := 0x40001000 },
  { name := .SLC_QP_STATUS, base := 0x2400418, n1 := 1024, s1 := 0x1000, n2 := 64, s2 := 0x20, img := 0x3ffc0 },
  { name := .SLC_QP_PTR, base := 0x240041c, n1 := 1024, s1 := 0x1000, n2 := 64, s2 := 0x20 },
  { name := .SLC_EQ_BASE, base := 0x2400c00, n1 := 1024, s1 := 0x1000, words := 2, rw := 0xfffffffffffff000 },
  { name := .SLC_EQ_CFG, base := 0x2400c08, n1 := 1024, s1 := 0x1000, rw := 0x3ffff, reset := 0xc },
  { name := .SLC_EQ_STATUS, base := 0x2400c0c, n1 := 1024, s1 := 0x1000, w1c := 0x60000 },
  { name := .SLC_STATE, base := 0x2400d00, n1 := 1024, s1 := 0x1000, img := 0xffff0007 },
  { name := .SLC_BIND, base := 0x2400d04, n1 := 1024, s1 := 0x1000, img := 0x7fffff },
  { name := .SLC_RES, base := 0x2400d08, n1 := 1024, s1 := 0x1000, img := 0x1fffff },
  { name := .SLC_BASE, base := 0x2400d0c, n1 := 1024, s1 := 0x1000, img := 0xffffff },
  { name := .SLC_NAMES, base := 0x2400d10, n1 := 1024, s1 := 0x1000, img := 0xffffffff },
  { name := .SLC_QUOTA, base := 0x2400d14, n1 := 1024, s1 := 0x1000, img := 0xfff },
  { name := .SLC_CHAN, base := 0x2400d40, n1 := 1024, s1 := 0x1000, n2 := 64, s2 := 4, img := 0x7ff },
  { name := .SLC_POOL_RES, base := 0x2400ec0, img := 0xffffff },
  { name := .SLC_POOL_METER, base := 0x2400ec4, img := 0x1fff },
  { name := .SLC_POOL_QUOTA, base := 0x2400ec8, img := 0xffffff },
  { name := .SLC_POOL_SLOTS, base := 0x2400ecc, img := 0x7ff },
  { name := .SLC_CTL_LAST, base := 0x2400ed0 },
  { name := .SLC_VC_CNT, base := 0x2400e40, n1 := 1024, s1 := 0x1000, n2 := 8, s2 := 0x10, words := 2, rw := 0xffffffffffff, w1c := 0x8000000000000000 },
  { name := .SLC_VC_SEL, base := 0x2400e48, n1 := 1024, s1 := 0x1000, n2 := 8, s2 := 0x10, rw := 0xfff7ff, w1c := 0x1000000 },
  { name := .SLC_VC_PERIOD, base := 0x2400e4c, n1 := 1024, s1 := 0x1000, n2 := 8, s2 := 0x10, rw := 0xffffffff }]

/-- The FAB rows of R387. -/
def rowsFAB : List RegRow := [
  { name := .FAB_CFG, base := 0x2800000, n1 := 8, s1 := 0x10000, rw := 0xffffffff, img := 0x1e0001, reset := 0xc0009770 },
  { name := .FAB_TIME, base := 0x2800004, n1 := 8, s1 := 0x10000, rw := 0xffffffff, reset := 0x64140a },
  { name := .FAB_CTL, base := 0x2800008, n1 := 8, s1 := 0x10000, wo := 1 },
  { name := .FAB_STATUS, base := 0x280000c, n1 := 8, s1 := 0x10000 },
  { name := .FAB_EXCL, base := 0x2800010, n1 := 8, s1 := 0x10000, w1c := 0xff },
  { name := .FAB_PARTNER, base := 0x2800018, n1 := 8, s1 := 0x10000, words := 2 },
  { name := .FAB_PARTNER_INFO, base := 0x2800020, n1 := 8, s1 := 0x10000 },
  { name := .FAB_SEQ, base := 0x2800028, n1 := 8, s1 := 0x10000, reset := 0xfff000 },
  { name := .FAB_RX, base := 0x280002c, n1 := 8, s1 := 0x10000, reset := 0xfff },
  { name := .FAB_CREDIT, base := 0x2800030, n1 := 8, s1 := 0x10000 },
  { name := .FAB_CNT, base := 0x2800100, n1 := 8, s1 := 0x10000, n2 := 12, s2 := 8, words := 2, w1c := 0x8000000000000000, rs := 0x8000000000000000 }]

/-- The BND rows of R387. -/
def rowsBND : List RegRow := [
  { name := .BND_CFG, base := 0x2c00000, img := 0x1ffffff },
  { name := .BND_TIME, base := 0x2c00004, rw := 0xffffff, reset := 0xc850a },
  { name := .BND_IDENT, base := 0x2c00008, words := 2, img := 0xffffffffffffffff },
  { name := .BND_KEYSTONE, base := 0x2c00010, n1 := 4, s1 := 4 },
  { name := .BND_HOLD, base := 0x2c00020 },
  { name := .BND_HOLD_HWM, base := 0x2c00024, wo := 0x80000000 },
  { name := .BND_ORPHAN, base := 0x2c00028, rw := 0xffff, img := 0xffff },
  { name := .BND_ORPHAN_CNT, base := 0x2c0002c },
  { name := .BND_STREAM_IDX, base := 0x2c00040, rw := 0x3fff, wo := 0x80000000 },
  { name := .BND_STREAM_DATA, base := 0x2c00048, words := 2 },
  { name := .BND_ROUTE, base := 0x2c00100, n1 := 32, s1 := 4, rw := 0xfffff },
  { name := .BND_MEMBER, base := 0x2c00200, n1 := 32, s1 := 4 },
  { name := .BND_LEND, base := 0x2c00400, n1 := 256, s1 := 4, rw := 0x1ffffff },
  { name := .BND_PORT_LEND, base := 0x2c00800, n1 := 64, s1 := 4, rw := 0x1fffff },
  { name := .BND_LEND_CTL, base := 0x2c00c00, rw := 0xfffffff, w1c := 0x40000000, wo := 0x10000000, reset := 0x20000000 },
  { name := .BND_FAR_INFO, base := 0x2c00c10, w1c := 0x80000000 },
  { name := .BND_FAR_LOG, base := 0x2c00c20, n1 := 4, s1 := 4 },
  { name := .BND_RT_MISS, base := 0x2c00c30, w1c := 0x80000000 },
  { name := .BND_CNT, base := 0x2c01000, n1 := 16, s1 := 8, words := 2, w1c := 0x8000000000000000, rs := 0x8000000000000000 },
  { name := .BND_RT0, base := 0x2d00000, n1 := 65536, s1 := 0x20, rw := 0x80ffffff },
  { name := .BND_RT1, base := 0x2d00004, n1 := 65536, s1 := 0x20, rw := 0xfffff },
  { name := .BND_RT2, base := 0x2d00008, n1 := 65536, s1 := 0x20, rw := 0x7ffff },
  { name := .BND_RT3, base := 0x2d0000c, n1 := 65536, s1 := 0x20, rw := 0xffff },
  { name := .BND_RT4, base := 0x2d00010, n1 := 65536, s1 := 0x20, rw := 0xffffffff },
  { name := .BND_RT5, base := 0x2d00014, n1 := 65536, s1 := 0x20, rw := 0xffffffff },
  { name := .BND_RT6, base := 0x2d00018, n1 := 65536, s1 := 0x20 },
  { name := .BND_RT7, base := 0x2d0001c, n1 := 65536, s1 := 0x20 }]

/-- The MEM rows of R387. -/
def rowsMEM : List RegRow := [
  { name := .MEM_CH_STATUS, base := 0x3000000, n1 := 8, s1 := 0x1000 },
  { name := .MEM_CH_CFG, base := 0x3000004, n1 := 8, s1 := 0x1000, rw := 0xffff, reset := 0x64 },
  { name := .MEM_CH_ERRADDR, base := 0x3000008, n1 := 8, s1 := 0x1000, words := 2, w1c := 0x8000000000000000 },
  { name := .MEM_CH_CNT, base := 0x3000100, n1 := 8, s1 := 0x1000, n2 := 4, s2 := 8, words := 2, w1c := 0x8000000000000000, rs := 0x8000000000000000 }]

/-- The rows of the block whose span holds offset `a` (R378). -/
def blockRows (a : Nat) : List RegRow :=
  if a < 0x100000 then rowsGLB
  else if a < 0x200000 then rowsEVT
  else if a < 0x300000 then rowsPMC
  else if a < 0x400000 then rowsPWR
  else if a < 0x800000 then rowsCLK
  else if a < 0xc00000 then rowsSER
  else if a < 0x1000000 then rowsPRT
  else if a < 0x1200000 then rowsXBR
  else if a < 0x1400000 then rowsBUF
  else if a < 0x1800000 then rowsSCH
  else if a < 0x1c00000 then rowsPRK
  else if a < 0x2000000 then rowsHOD
  else if a < 0x2400000 then rowsGRD
  else if a < 0x2800000 then rowsSLC
  else if a < 0x2c00000 then rowsFAB
  else if a < 0x3000000 then rowsBND
  else if a < 0x3100000 then rowsMEM
  else []

/-- A register found at an offset: its row, the outer and inner instance, and which 32-bit word of it. -/
structure RegHit where
  row : RegRow
  i1 : Nat
  i2 : Nat
  word : Nat
  deriving DecidableEq, Repr

/-- Does offset `a` lie in an instance of `r`, and in which (R378: base + i * stride)? -/
def RegRow.hit (r : RegRow) (a : Nat) : Option RegHit :=
  if a < r.base then none else
  let d := a - r.base
  let i1 := if r.s1 = 0 then 0 else d / r.s1
  let d1 := if r.s1 = 0 then d else d % r.s1
  let i2 := if r.s2 = 0 then 0 else d1 / r.s2
  let d2 := if r.s2 = 0 then d1 else d1 % r.s2
  if i1 < r.n1 ∧ i2 < r.n2 ∧ d2 < 4 * r.words then some ⟨r, i1, i2, d2 / 4⟩ else none

/-- The register at BAR0 offset `a`, if any (R379: none elsewhere). -/
def regAt (a : Nat) : Option RegHit :=
  (blockRows a).findSome? (fun r => r.hit a)

/-- Every register of the index (R378). -/
def allRows : List RegRow :=
  rowsGLB ++ rowsEVT ++ rowsPMC ++ rowsPWR ++ rowsCLK ++ rowsSER ++ rowsPRT ++ rowsXBR ++ rowsBUF ++ rowsSCH ++ rowsPRK ++ rowsHOD ++
  rowsGRD ++ rowsSLC ++ rowsFAB ++ rowsBND ++ rowsMEM

/-- The word that a register offset holds after reset (R17): the row's reset entry, 0 where nothing is. -/
def regReset (a : Nat) : BitVec 32 :=
  match regAt a with
  | some hit => BitVec.ofNat 32 (hit.row.reset >>> (32 * hit.word))
  | none => 0#32

/-- A field of a register: its lowest bit and its width. -/
structure Fld where
  lo : Nat
  w : Nat
  deriving DecidableEq, Repr

/-! ### Addresses of the registers, by name and instance -/

def Reg.GLB_PRODUCT_ID : Nat := 0
def Reg.GLB_SERIAL : Nat := 8
def Reg.GLB_PARTITIONS : Nat := 0x10
def Reg.GLB_ACCESSOR : Nat := 0x14
def Reg.GLB_BADACC : Nat := 0x20
def Reg.GLB_SCRATCH (i : Nat) : Nat := 0x40 + i * 4
def Reg.EVT_STATUS (i : Nat) : Nat := 0x100000 + i * 4
def Reg.EVT_MASK (i : Nat) : Nat := 0x100100 + i * 4
def Reg.EVT_CFG : Nat := 0x100200
def Reg.EVT_LOG_PTR : Nat := 0x100204
def Reg.EVT_NEST : Nat := 0x100208
def Reg.EVT_FATAL (i : Nat) : Nat := 0x100300 + i * 4
def Reg.EVT_FATAL_CTL : Nat := 0x100310
def Reg.EVT_CNT (i : Nat) : Nat := 0x100400 + i * 8
def Reg.EVT_LOG (i : Nat) : Nat := 0x101000 + i * 4
def Reg.PMC_GLOBAL : Nat := 0x200000
def Reg.PMC_OVF (i : Nat) : Nat := 0x200020 + i * 4
def Reg.PMC_CFG (i : Nat) : Nat := 0x201000 + i * 4
def Reg.PMC_PERIOD (i : Nat) : Nat := 0x201400 + i * 4
def Reg.PMC_CNT (i : Nat) : Nat := 0x202000 + i * 8
def Reg.PWR_STATUS : Nat := 0x300000
def Reg.PWR_CTL : Nat := 0x300004
def Reg.PWR_UV_CFG : Nat := 0x300008
def Reg.PWR_OV_CFG : Nat := 0x30000c
def Reg.PWR_RETRY : Nat := 0x300010
def Reg.PWR_SHED : Nat := 0x300014
def Reg.PWR_TEMP_CFG : Nat := 0x300018
def Reg.PWR_MEAS_V : Nat := 0x300020
def Reg.PWR_MEAS_I : Nat := 0x300024
def Reg.PWR_MEAS_P : Nat := 0x300028
def Reg.PWR_MEAS_T : Nat := 0x30002c
def Reg.PWR_ENERGY : Nat := 0x300030
def Reg.PWR_PEAK : Nat := 0x300038
def Reg.PWR_DIP_LOG : Nat := 0x300040
def Reg.PWR_FAULT : Nat := 0x300048
def Reg.PWR_FAULT_TOD : Nat := 0x300050
def Reg.PWR_CAL_I : Nat := 0x300060
def Reg.PWR_CAL_V : Nat := 0x300064
def Reg.PWR_CAGE (i : Nat) : Nat := 0x300080 + i * 4
def Reg.PWR_CNT (i : Nat) : Nat := 0x300100 + i * 8
def Reg.CLK_STATUS : Nat := 0x400000
def Reg.CLK_TOD : Nat := 0x400008
def Reg.CLK_NS : Nat := 0x400010
def Reg.CLK_RESET : Nat := 0x400020
def Reg.CLK_RESET_CAUSE : Nat := 0x400024
def Reg.CLK_BLK_RESET : Nat := 0x400028
def Reg.CLK_LC_STATE : Nat := 0x400030
def Reg.CLK_LC_CMD : Nat := 0x400034
def Reg.CLK_IMG_ADDR : Nat := 0x400040
def Reg.CLK_IMG_CTL : Nat := 0x400048
def Reg.CLK_IMG_STATUS : Nat := 0x400050
def Reg.CLK_CAL_CTL : Nat := 0x400060
def Reg.CLK_CAL_STATUS : Nat := 0x400064
def Reg.CLK_WAKE : Nat := 0x400070
def Reg.CLK_WAKE_AT : Nat := 0x400078
def Reg.CLK_WDOG_CNT : Nat := 0x400100
def Reg.SER_LANE_CFG (i : Nat) : Nat := 0x800000 + i * 0x400
def Reg.SER_TX_COEF (i : Nat) : Nat := 0x800004 + i * 0x400
def Reg.SER_TX_START (i : Nat) : Nat := 0x800008 + i * 0x400
def Reg.SER_RX_CTL (i : Nat) : Nat := 0x80000c + i * 0x400
def Reg.SER_EYE (i : Nat) : Nat := 0x800010 + i * 0x400
def Reg.SER_STATUS (i : Nat) : Nat := 0x800014 + i * 0x400
def Reg.SER_PRBS (i : Nat) : Nat := 0x800020 + i * 0x400
def Reg.SER_LOOP (i : Nat) : Nat := 0x800024 + i * 0x400
def Reg.SER_PRBS_USER (i : Nat) : Nat := 0x800028 + i * 0x400
def Reg.SER_RX_DFE (i j : Nat) : Nat := 0x800040 + i * 0x400 + j * 4
def Reg.SER_CNT (i j : Nat) : Nat := 0x800100 + i * 0x400 + j * 8
def Reg.SER_TILE_CFG (i : Nat) : Nat := 0x840000 + i * 0x400
def Reg.SER_TILE_CTL (i : Nat) : Nat := 0x840004 + i * 0x400
def Reg.SER_TILE_STATUS (i : Nat) : Nat := 0x840008 + i * 0x400
def Reg.SER_EYE_CFG (i : Nat) : Nat := 0x84000c + i * 0x400
def Reg.PRT_CFG (i : Nat) : Nat := 0xc00000 + i * 0x1000
def Reg.PRT_CTL (i : Nat) : Nat := 0xc00004 + i * 0x1000
def Reg.PRT_STATUS (i : Nat) : Nat := 0xc00008 + i * 0x1000
def Reg.PRT_CPL_TO (i : Nat) : Nat := 0xc0000c + i * 0x1000
def Reg.PRT_SLOT (i : Nat) : Nat := 0xc00010 + i * 0x1000
def Reg.PRT_PM (i : Nat) : Nat := 0xc00014 + i * 0x1000
def Reg.PRT_MC (i : Nat) : Nat := 0xc00018 + i * 0x1000
def Reg.PRT_FC_ADV (i j : Nat) : Nat := 0xc00020 + i * 0x1000 + j * 4
def Reg.PRT_CNT (i j : Nat) : Nat := 0xc00100 + i * 0x1000 + j * 8
def Reg.PRT_LATE_LOG (i j : Nat) : Nat := 0xc00180 + i * 0x1000 + j * 4
def Reg.PRT_LATE_INFO (i : Nat) : Nat := 0xc00190 + i * 0x1000
def Reg.XBR_CTRL : Nat := 0x1000000
def Reg.XBR_EGQ_LIMIT : Nat := 0x1000010
def Reg.XBR_TILE_WEIGHT (i : Nat) : Nat := 0x1000100 + i * 4
def Reg.XBR_PTR (i : Nat) : Nat := 0x1000200 + i * 4
def Reg.XBR_MC_VEC (i : Nat) : Nat := 0x1001000 + i * 8
def Reg.XBR_MC_FAIL_LOG : Nat := 0x1001400
def Reg.XBR_MC_FAIL_CNT : Nat := 0x1001408
def Reg.XBR_MIR_CFG (i : Nat) : Nat := 0x1002000 + i * 0x20
def Reg.XBR_MIR_FLOW (i : Nat) : Nat := 0x1002004 + i * 0x20
def Reg.XBR_MIR_DROP (i : Nat) : Nat := 0x1002008 + i * 0x20
def Reg.XBR_SAMPLE_CFG : Nat := 0x1002100
def Reg.XBR_SAMPLE_DROP : Nat := 0x1002108
def Reg.BUF_TOTAL : Nat := 0x1200000
def Reg.BUF_CFG : Nat := 0x1200004
def Reg.BUF_MIRROR_POOL : Nat := 0x1200008
def Reg.BUF_SHARED : Nat := 0x120000c
def Reg.BUF_COMMIT : Nat := 0x1200010
def Reg.BUF_SHARED_USE : Nat := 0x1200014
def Reg.BUF_MIRROR_USE : Nat := 0x1200018
def Reg.BUF_ECC_CE : Nat := 0x1200100
def Reg.BUF_ECC_UE : Nat := 0x1200108
def Reg.BUF_MIN (i : Nat) : Nat := 0x1201000 + i * 4
def Reg.BUF_USE (i : Nat) : Nat := 0x1202000 + i * 4
def Reg.SCH_NOW : Nat := 0x1400000
def Reg.SCH_PARK_TC : Nat := 0x1400010
def Reg.SCH_IN_TCMAP (i : Nat) : Nat := 0x1401000 + i * 4
def Reg.SCH_IN_METER (i : Nat) : Nat := 0x1401100 + i * 4
def Reg.SCH_SHELF_METER (i : Nat) : Nat := 0x1401200 + i * 4
def Reg.SCH_Q_CFG (i : Nat) : Nat := 0x1404000 + i * 4
def Reg.SCH_Q_SHAPE (i : Nat) : Nat := 0x1405000 + i * 8
def Reg.SCH_Q_DEPTH (i : Nat) : Nat := 0x1406000 + i * 4
def Reg.SCH_Q_HWM (i : Nat) : Nat := 0x1407000 + i * 4
def Reg.SCH_BUF_HWM (i : Nat) : Nat := 0x1408000 + i * 4
def Reg.SCH_METER_CIR (i : Nat) : Nat := 0x1410000 + i * 0x10
def Reg.SCH_METER_PIR (i : Nat) : Nat := 0x1410004 + i * 0x10
def Reg.SCH_METER_CBS (i : Nat) : Nat := 0x1410008 + i * 0x10
def Reg.SCH_METER_PBS (i : Nat) : Nat := 0x141000c + i * 0x10
def Reg.PRK_CTRL : Nat := 0x1800000
def Reg.PRK_KEEP : Nat := 0x1800004
def Reg.PRK_CAPACITY : Nat := 0x1800008
def Reg.PRK_FREE : Nat := 0x180000c
def Reg.PRK_LIVE : Nat := 0x1800010
def Reg.PRK_ADMIT : Nat := 0x1800014
def Reg.PRK_PEER : Nat := 0x1800018
def Reg.PRK_GUEST : Nat := 0x180001c
def Reg.PRK_LEDGER_BUDGET : Nat := 0x1800020
def Reg.PRK_LEDGER_USE : Nat := 0x1800024
def Reg.PRK_SCRUB : Nat := 0x1800028
def Reg.PRK_SIDE_TIME : Nat := 0x180002c
def Reg.PRK_PLAN_STATE : Nat := 0x1800030
def Reg.PRK_PEEK_IDX : Nat := 0x1800040
def Reg.PRK_PEEK_STATUS : Nat := 0x1800044
def Reg.PRK_PEEK_DATA (i : Nat) : Nat := 0x1800080 + i * 4
def Reg.PRK_WIN_CFG (i : Nat) : Nat := 0x1800100 + i * 4
def Reg.PRK_CLASS_CFG (i : Nat) : Nat := 0x1800200 + i * 0x10
def Reg.PRK_CLASS_EXPIRE (i : Nat) : Nat := 0x1800204 + i * 0x10
def Reg.PRK_CLASS_BATCH (i : Nat) : Nat := 0x1800208 + i * 0x10
def Reg.PRK_SHELF_PWR (i : Nat) : Nat := 0x1801000 + i * 0x20
def Reg.PRK_SHELF_TIME (i : Nat) : Nat := 0x1801004 + i * 0x20
def Reg.PRK_SHELF_READY (i : Nat) : Nat := 0x1801008 + i * 0x20
def Reg.PRK_SHELF_CTL (i : Nat) : Nat := 0x180100c + i * 0x20
def Reg.PRK_SHELF_READY_ADDR (i : Nat) : Nat := 0x1801010 + i * 0x20
def Reg.PRK_SHELF_READY_MASK (i : Nat) : Nat := 0x1801018 + i * 0x20
def Reg.PRK_SHELF_READY_VAL (i : Nat) : Nat := 0x180101c + i * 0x20
def Reg.PRK_SHELF_STATE (i : Nat) : Nat := 0x1802000 + i * 0x10
def Reg.PRK_SHELF_LIVE (i : Nat) : Nat := 0x1802004 + i * 0x10
def Reg.PRK_SHELF_GRAN (i : Nat) : Nat := 0x1802008 + i * 0x10
def Reg.PRK_SHELF_WAIT (i : Nat) : Nat := 0x180200c + i * 0x10
def Reg.PRK_CNT (i : Nat) : Nat := 0x1803000 + i * 8
def Reg.HOD_CFG (i : Nat) : Nat := 0x1c00000 + i * 0x10000
def Reg.HOD_STATUS (i : Nat) : Nat := 0x1c00004 + i * 0x10000
def Reg.HOD_CTL (i : Nat) : Nat := 0x1c00008 + i * 0x10000
def Reg.HOD_CNT (i j : Nat) : Nat := 0x1c00100 + i * 0x10000 + j * 8
def Reg.HOD_CH_SH_SRC (i j : Nat) : Nat := 0x1c01000 + i * 0x10000 + j * 0x100
def Reg.HOD_CH_SH_DST (i j : Nat) : Nat := 0x1c01008 + i * 0x10000 + j * 0x100
def Reg.HOD_CH_SH_COUNT (i j : Nat) : Nat := 0x1c01010 + i * 0x10000 + j * 0x100
def Reg.HOD_CH_SH_SPACE (i j : Nat) : Nat := 0x1c01018 + i * 0x10000 + j * 0x100
def Reg.HOD_CH_SH_PASID (i j : Nat) : Nat := 0x1c0101c + i * 0x10000 + j * 0x100
def Reg.HOD_CH_SH_JOB (i j : Nat) : Nat := 0x1c01020 + i * 0x10000 + j * 0x100
def Reg.HOD_CH_SH_TAG (i j : Nat) : Nat := 0x1c01028 + i * 0x10000 + j * 0x100
def Reg.HOD_CH_SH_SEAL (i j : Nat) : Nat := 0x1c01030 + i * 0x10000 + j * 0x100
def Reg.HOD_CH_ACT_SRC (i j : Nat) : Nat := 0x1c01040 + i * 0x10000 + j * 0x100
def Reg.HOD_CH_ACT_DST (i j : Nat) : Nat := 0x1c01048 + i * 0x10000 + j * 0x100
def Reg.HOD_CH_ACT_COUNT (i j : Nat) : Nat := 0x1c01050 + i * 0x10000 + j * 0x100
def Reg.HOD_CH_ACT_SPACE (i j : Nat) : Nat := 0x1c01058 + i * 0x10000 + j * 0x100
def Reg.HOD_CH_ACT_PASID (i j : Nat) : Nat := 0x1c0105c + i * 0x10000 + j * 0x100
def Reg.HOD_CH_ACT_JOB (i j : Nat) : Nat := 0x1c01060 + i * 0x10000 + j * 0x100
def Reg.HOD_CH_ACT_TAG (i j : Nat) : Nat := 0x1c01068 + i * 0x10000 + j * 0x100
def Reg.HOD_CH_MODE (i j : Nat) : Nat := 0x1c01080 + i * 0x10000 + j * 0x100
def Reg.HOD_CH_CTL (i j : Nat) : Nat := 0x1c01084 + i * 0x10000 + j * 0x100
def Reg.HOD_CH_STATUS (i j : Nat) : Nat := 0x1c01088 + i * 0x10000 + j * 0x100
def Reg.HOD_CH_PROGRESS (i j : Nat) : Nat := 0x1c01090 + i * 0x10000 + j * 0x100
def Reg.HOD_CH_ERRLOG (i j : Nat) : Nat := 0x1c01098 + i * 0x10000 + j * 0x100
def Reg.HOD_CH_ERRINFO (i j : Nat) : Nat := 0x1c010a0 + i * 0x10000 + j * 0x100
def Reg.GRD_CFG (i : Nat) : Nat := 0x2000000 + i * 0x4000
def Reg.GRD_STATUS (i : Nat) : Nat := 0x2000004 + i * 0x4000
def Reg.GRD_FAULT_INFO (i : Nat) : Nat := 0x2000010 + i * 0x4000
def Reg.GRD_FAULT_ADDR (i : Nat) : Nat := 0x2000018 + i * 0x4000
def Reg.GRD_FAULT_PASID (i : Nat) : Nat := 0x2000020 + i * 0x4000
def Reg.GRD_CNT (i j : Nat) : Nat := 0x2000100 + i * 0x4000 + j * 8
def Reg.GRD_RULE_BASE (i j : Nat) : Nat := 0x2001000 + i * 0x4000 + j * 0x20
def Reg.GRD_RULE_LIMIT (i j : Nat) : Nat := 0x2001008 + i * 0x4000 + j * 0x20
def Reg.GRD_RULE_ATTR (i j : Nat) : Nat := 0x2001010 + i * 0x4000 + j * 0x20
def Reg.GRD_RULE_MATCH (i j : Nat) : Nat := 0x2001018 + i * 0x4000 + j * 0x20
def Reg.GRD_COMMIT : Nat := 0x2100000
def Reg.GRD_COMMIT_MASK : Nat := 0x2100008
def Reg.SLC_FENCE (i : Nat) : Nat := 0x2400f00 + i * 0x1000
def Reg.SLC_RSV_ADDR (i : Nat) : Nat := 0x2400f10 + i * 0x1000
def Reg.SLC_RSV_LR (i : Nat) : Nat := 0x2400f18 + i * 0x1000
def Reg.SLC_RSV_NEW (i : Nat) : Nat := 0x2400f20 + i * 0x1000
def Reg.SLC_RSV_SC (i : Nat) : Nat := 0x2400f28 + i * 0x1000
def Reg.SLC_SQ_DB (i j : Nat) : Nat := 0x2400000 + i * 0x1000 + j * 8
def Reg.SLC_CQ_DB (i j : Nat) : Nat := 0x2400004 + i * 0x1000 + j * 8
def Reg.SLC_EQ_DB (i : Nat) : Nat := 0x2400200 + i * 0x1000
def Reg.SLC_QP_SQ_BASE (i j : Nat) : Nat := 0x2400400 + i * 0x1000 + j * 0x20
def Reg.SLC_QP_CQ_BASE (i j : Nat) : Nat := 0x2400408 + i * 0x1000 + j * 0x20
def Reg.SLC_QP_CFG (i j : Nat) : Nat := 0x2400410 + i * 0x1000 + j * 0x20
def Reg.SLC_QP_IRQ (i j : Nat) : Nat := 0x2400414 + i * 0x1000 + j * 0x20
def Reg.SLC_QP_STATUS (i j : Nat) : Nat := 0x2400418 + i * 0x1000 + j * 0x20
def Reg.SLC_QP_PTR (i j : Nat) : Nat := 0x240041c + i * 0x1000 + j * 0x20
def Reg.SLC_EQ_BASE (i : Nat) : Nat := 0x2400c00 + i * 0x1000
def Reg.SLC_EQ_CFG (i : Nat) : Nat := 0x2400c08 + i * 0x1000
def Reg.SLC_EQ_STATUS (i : Nat) : Nat := 0x2400c0c + i * 0x1000
def Reg.SLC_STATE (i : Nat) : Nat := 0x2400d00 + i * 0x1000
def Reg.SLC_BIND (i : Nat) : Nat := 0x2400d04 + i * 0x1000
def Reg.SLC_RES (i : Nat) : Nat := 0x2400d08 + i * 0x1000
def Reg.SLC_BASE (i : Nat) : Nat := 0x2400d0c + i * 0x1000
def Reg.SLC_NAMES (i : Nat) : Nat := 0x2400d10 + i * 0x1000
def Reg.SLC_QUOTA (i : Nat) : Nat := 0x2400d14 + i * 0x1000
def Reg.SLC_CHAN (i j : Nat) : Nat := 0x2400d40 + i * 0x1000 + j * 4
def Reg.SLC_POOL_RES : Nat := 0x2400ec0
def Reg.SLC_POOL_METER : Nat := 0x2400ec4
def Reg.SLC_POOL_QUOTA : Nat := 0x2400ec8
def Reg.SLC_POOL_SLOTS : Nat := 0x2400ecc
def Reg.SLC_CTL_LAST : Nat := 0x2400ed0
def Reg.SLC_VC_CNT (i j : Nat) : Nat := 0x2400e40 + i * 0x1000 + j * 0x10
def Reg.SLC_VC_SEL (i j : Nat) : Nat := 0x2400e48 + i * 0x1000 + j * 0x10
def Reg.SLC_VC_PERIOD (i j : Nat) : Nat := 0x2400e4c + i * 0x1000 + j * 0x10
def Reg.FAB_CFG (i : Nat) : Nat := 0x2800000 + i * 0x10000
def Reg.FAB_TIME (i : Nat) : Nat := 0x2800004 + i * 0x10000
def Reg.FAB_CTL (i : Nat) : Nat := 0x2800008 + i * 0x10000
def Reg.FAB_STATUS (i : Nat) : Nat := 0x280000c + i * 0x10000
def Reg.FAB_EXCL (i : Nat) : Nat := 0x2800010 + i * 0x10000
def Reg.FAB_PARTNER (i : Nat) : Nat := 0x2800018 + i * 0x10000
def Reg.FAB_PARTNER_INFO (i : Nat) : Nat := 0x2800020 + i * 0x10000
def Reg.FAB_SEQ (i : Nat) : Nat := 0x2800028 + i * 0x10000
def Reg.FAB_RX (i : Nat) : Nat := 0x280002c + i * 0x10000
def Reg.FAB_CREDIT (i : Nat) : Nat := 0x2800030 + i * 0x10000
def Reg.FAB_CNT (i j : Nat) : Nat := 0x2800100 + i * 0x10000 + j * 8
def Reg.BND_CFG : Nat := 0x2c00000
def Reg.BND_TIME : Nat := 0x2c00004
def Reg.BND_IDENT : Nat := 0x2c00008
def Reg.BND_KEYSTONE (i : Nat) : Nat := 0x2c00010 + i * 4
def Reg.BND_HOLD : Nat := 0x2c00020
def Reg.BND_HOLD_HWM : Nat := 0x2c00024
def Reg.BND_ORPHAN : Nat := 0x2c00028
def Reg.BND_ORPHAN_CNT : Nat := 0x2c0002c
def Reg.BND_STREAM_IDX : Nat := 0x2c00040
def Reg.BND_STREAM_DATA : Nat := 0x2c00048
def Reg.BND_ROUTE (i : Nat) : Nat := 0x2c00100 + i * 4
def Reg.BND_MEMBER (i : Nat) : Nat := 0x2c00200 + i * 4
def Reg.BND_LEND (i : Nat) : Nat := 0x2c00400 + i * 4
def Reg.BND_PORT_LEND (i : Nat) : Nat := 0x2c00800 + i * 4
def Reg.BND_LEND_CTL : Nat := 0x2c00c00
def Reg.BND_FAR_INFO : Nat := 0x2c00c10
def Reg.BND_FAR_LOG (i : Nat) : Nat := 0x2c00c20 + i * 4
def Reg.BND_RT_MISS : Nat := 0x2c00c30
def Reg.BND_CNT (i : Nat) : Nat := 0x2c01000 + i * 8
def Reg.BND_RT0 (i : Nat) : Nat := 0x2d00000 + i * 0x20
def Reg.BND_RT1 (i : Nat) : Nat := 0x2d00004 + i * 0x20
def Reg.BND_RT2 (i : Nat) : Nat := 0x2d00008 + i * 0x20
def Reg.BND_RT3 (i : Nat) : Nat := 0x2d0000c + i * 0x20
def Reg.BND_RT4 (i : Nat) : Nat := 0x2d00010 + i * 0x20
def Reg.BND_RT5 (i : Nat) : Nat := 0x2d00014 + i * 0x20
def Reg.BND_RT6 (i : Nat) : Nat := 0x2d00018 + i * 0x20
def Reg.BND_RT7 (i : Nat) : Nat := 0x2d0001c + i * 0x20
def Reg.MEM_CH_STATUS (i : Nat) : Nat := 0x3000000 + i * 0x1000
def Reg.MEM_CH_CFG (i : Nat) : Nat := 0x3000004 + i * 0x1000
def Reg.MEM_CH_ERRADDR (i : Nat) : Nat := 0x3000008 + i * 0x1000
def Reg.MEM_CH_CNT (i j : Nat) : Nat := 0x3000100 + i * 0x1000 + j * 8

/-! ### Fields of the registers -/

def F.GLB_PRODUCT_ID_order_code : Fld := ⟨0, 8⟩
def F.GLB_PRODUCT_ID_die_rev : Fld := ⟨8, 4⟩
def F.GLB_PRODUCT_ID_product : Fld := ⟨16, 16⟩
def F.GLB_SERIAL_serial : Fld := ⟨0, 64⟩
def F.GLB_PARTITIONS_manager : Fld := ⟨0, 3⟩
def F.GLB_PARTITIONS_enabled : Fld := ⟨8, 8⟩
def F.GLB_ACCESSOR_partition : Fld := ⟨0, 3⟩
def F.GLB_ACCESSOR_manager : Fld := ⟨3, 1⟩
def F.GLB_ACCESSOR_path : Fld := ⟨4, 2⟩
def F.GLB_BADACC_offset : Fld := ⟨0, 27⟩
def F.GLB_BADACC_write : Fld := ⟨27, 1⟩
def F.GLB_BADACC_partition : Fld := ⟨28, 3⟩
def F.GLB_BADACC_width : Fld := ⟨31, 2⟩
def F.GLB_BADACC_more : Fld := ⟨33, 1⟩
def F.GLB_BADACC_valid : Fld := ⟨63, 1⟩
def F.GLB_SCRATCH_value : Fld := ⟨0, 32⟩
def F.EVT_STATUS_raised : Fld := ⟨0, 32⟩
def F.EVT_MASK_mask : Fld := ⟨0, 32⟩
def F.EVT_CFG_storm_n : Fld := ⟨0, 8⟩
def F.EVT_CFG_storm_ms : Fld := ⟨8, 8⟩
def F.EVT_LOG_PTR_next : Fld := ⟨0, 8⟩
def F.EVT_LOG_PTR_written : Fld := ⟨8, 24⟩
def F.EVT_NEST_line4 : Fld := ⟨0, 1⟩
def F.EVT_NEST_line5 : Fld := ⟨1, 1⟩
def F.EVT_NEST_line6 : Fld := ⟨2, 1⟩
def F.EVT_NEST_line7 : Fld := ⟨3, 1⟩
def F.EVT_FATAL_word : Fld := ⟨0, 32⟩
def F.EVT_FATAL_CTL_valid : Fld := ⟨0, 1⟩
def F.EVT_LOG_word : Fld := ⟨0, 32⟩
def F.PMC_GLOBAL_run : Fld := ⟨0, 1⟩
def F.PMC_OVF_ovf : Fld := ⟨0, 32⟩
def F.PMC_CFG_event : Fld := ⟨0, 10⟩
def F.PMC_CFG_inst : Fld := ⟨10, 7⟩
def F.PMC_CFG_slice_en : Fld := ⟨17, 1⟩
def F.PMC_CFG_slice : Fld := ⟨18, 10⟩
def F.PMC_CFG_en : Fld := ⟨28, 1⟩
def F.PMC_CFG_bad : Fld := ⟨29, 1⟩
def F.PMC_PERIOD_period : Fld := ⟨0, 32⟩
def F.PMC_CNT_count : Fld := ⟨0, 48⟩
def F.PMC_CNT_ovf : Fld := ⟨63, 1⟩
def F.PWR_STATUS_state : Fld := ⟨0, 4⟩
def F.PWR_STATUS_pg : Fld := ⟨4, 1⟩
def F.PWR_STATUS_gate_full : Fld := ⟨5, 1⟩
def F.PWR_STATUS_limit : Fld := ⟨6, 1⟩
def F.PWR_STATUS_zone : Fld := ⟨7, 3⟩
def F.PWR_STATUS_present_a : Fld := ⟨10, 1⟩
def F.PWR_STATUS_present_b : Fld := ⟨11, 1⟩
def F.PWR_STATUS_retry_pending : Fld := ⟨12, 1⟩
def F.PWR_CTL_on : Fld := ⟨0, 1⟩
def F.PWR_CTL_clear : Fld := ⟨1, 1⟩
def F.PWR_CTL_code : Fld := ⟨16, 16⟩
def F.PWR_UV_CFG_warn_dv : Fld := ⟨0, 10⟩
def F.PWR_UV_CFG_reset_dv : Fld := ⟨10, 10⟩
def F.PWR_UV_CFG_hyst_dv : Fld := ⟨20, 6⟩
def F.PWR_OV_CFG_ov_dv : Fld := ⟨0, 10⟩
def F.PWR_OV_CFG_ov_hyst_dv : Fld := ⟨10, 6⟩
def F.PWR_RETRY_count : Fld := ⟨0, 8⟩
def F.PWR_RETRY_used : Fld := ⟨8, 8⟩
def F.PWR_SHED_cage_on_warn : Fld := ⟨0, 1⟩
def F.PWR_TEMP_CFG_temp_warn_c : Fld := ⟨0, 8⟩
def F.PWR_TEMP_CFG_temp_crit_c : Fld := ⟨8, 8⟩
def F.PWR_MEAS_V_v : Fld := ⟨0, 16⟩
def F.PWR_MEAS_I_i : Fld := ⟨0, 16⟩
def F.PWR_MEAS_P_p : Fld := ⟨0, 16⟩
def F.PWR_MEAS_T_t : Fld := ⟨0, 16⟩
def F.PWR_ENERGY_uj : Fld := ⟨0, 64⟩
def F.PWR_PEAK_i : Fld := ⟨0, 16⟩
def F.PWR_PEAK_clear : Fld := ⟨31, 1⟩
def F.PWR_DIP_LOG_min_v : Fld := ⟨0, 16⟩
def F.PWR_DIP_LOG_dur_ms : Fld := ⟨16, 24⟩
def F.PWR_DIP_LOG_brown : Fld := ⟨40, 1⟩
def F.PWR_DIP_LOG_reset : Fld := ⟨41, 1⟩
def F.PWR_DIP_LOG_valid : Fld := ⟨63, 1⟩
def F.PWR_FAULT_cause : Fld := ⟨0, 3⟩
def F.PWR_FAULT_v : Fld := ⟨3, 16⟩
def F.PWR_FAULT_valid : Fld := ⟨31, 1⟩
def F.PWR_FAULT_TOD_count : Fld := ⟨0, 64⟩
def F.PWR_CAL_I_gain : Fld := ⟨0, 16⟩
def F.PWR_CAL_I_offset : Fld := ⟨16, 16⟩
def F.PWR_CAL_V_gain : Fld := ⟨0, 16⟩
def F.PWR_CAL_V_offset : Fld := ⟨16, 16⟩
def F.PWR_CAGE_en : Fld := ⟨0, 1⟩
def F.PWR_CAGE_fault : Fld := ⟨1, 1⟩
def F.PWR_CAGE_on : Fld := ⟨2, 1⟩
def F.PWR_CAGE_i : Fld := ⟨16, 16⟩
def F.CLK_STATUS_stage : Fld := ⟨0, 4⟩
def F.CLK_STATUS_mstate : Fld := ⟨4, 2⟩
def F.CLK_STATUS_core_lock : Fld := ⟨6, 1⟩
def F.CLK_STATUS_mgmt_lock : Fld := ⟨7, 1⟩
def F.CLK_STATUS_dram_lock : Fld := ⟨8, 1⟩
def F.CLK_STATUS_kept : Fld := ⟨9, 1⟩
def F.CLK_TOD_count : Fld := ⟨0, 64⟩
def F.CLK_NS_ns : Fld := ⟨0, 64⟩
def F.CLK_RESET_warm : Fld := ⟨0, 1⟩
def F.CLK_RESET_cold : Fld := ⟨1, 1⟩
def F.CLK_RESET_off : Fld := ⟨2, 1⟩
def F.CLK_RESET_code : Fld := ⟨16, 16⟩
def F.CLK_RESET_CAUSE_cause : Fld := ⟨0, 4⟩
def F.CLK_BLK_RESET_kind : Fld := ⟨0, 3⟩
def F.CLK_BLK_RESET_index : Fld := ⟨3, 6⟩
def F.CLK_BLK_RESET_refused : Fld := ⟨29, 1⟩
def F.CLK_BLK_RESET_done : Fld := ⟨30, 1⟩
def F.CLK_BLK_RESET_go : Fld := ⟨31, 1⟩
def F.CLK_LC_STATE_state : Fld := ⟨0, 3⟩
def F.CLK_LC_STATE_pending : Fld := ⟨3, 1⟩
def F.CLK_LC_CMD_target : Fld := ⟨0, 3⟩
def F.CLK_LC_CMD_code : Fld := ⟨16, 16⟩
def F.CLK_IMG_ADDR_addr : Fld := ⟨0, 64⟩
def F.CLK_IMG_CTL_type : Fld := ⟨0, 2⟩
def F.CLK_IMG_CTL_go : Fld := ⟨2, 1⟩
def F.CLK_IMG_CTL_done : Fld := ⟨3, 1⟩
def F.CLK_IMG_CTL_result : Fld := ⟨4, 4⟩
def F.CLK_IMG_CTL_len_kib : Fld := ⟨12, 20⟩
def F.CLK_IMG_STATUS_fw_active : Fld := ⟨0, 1⟩
def F.CLK_IMG_STATUS_img_active : Fld := ⟨1, 1⟩
def F.CLK_IMG_STATUS_fw_valid : Fld := ⟨2, 2⟩
def F.CLK_IMG_STATUS_img_valid : Fld := ⟨4, 2⟩
def F.CLK_IMG_STATUS_fw_fallback : Fld := ⟨6, 1⟩
def F.CLK_IMG_STATUS_img_fallback : Fld := ⟨7, 1⟩
def F.CLK_IMG_STATUS_img_version : Fld := ⟨16, 16⟩
def F.CLK_CAL_CTL_save : Fld := ⟨0, 1⟩
def F.CLK_CAL_CTL_code : Fld := ⟨16, 16⟩
def F.CLK_CAL_STATUS_factory : Fld := ⟨0, 1⟩
def F.CLK_CAL_STATUS_neutral : Fld := ⟨1, 1⟩
def F.CLK_CAL_STATUS_busy : Fld := ⟨2, 1⟩
def F.CLK_WAKE_cause : Fld := ⟨0, 3⟩
def F.CLK_WAKE_AT_count : Fld := ⟨0, 64⟩
def F.SER_LANE_CFG_tx_inv : Fld := ⟨0, 1⟩
def F.SER_LANE_CFG_rx_inv : Fld := ⟨1, 1⟩
def F.SER_LANE_CFG_disable : Fld := ⟨2, 1⟩
def F.SER_LANE_CFG_precode : Fld := ⟨3, 1⟩
def F.SER_TX_COEF_pre : Fld := ⟨0, 5⟩
def F.SER_TX_COEF_post : Fld := ⟨5, 5⟩
def F.SER_TX_COEF_main : Fld := ⟨10, 6⟩
def F.SER_TX_COEF_override : Fld := ⟨16, 1⟩
def F.SER_TX_COEF_bad : Fld := ⟨17, 1⟩
def F.SER_TX_START_pre64 : Fld := ⟨0, 5⟩
def F.SER_TX_START_post64 : Fld := ⟨5, 5⟩
def F.SER_TX_START_pre85 : Fld := ⟨16, 5⟩
def F.SER_TX_START_post85 : Fld := ⟨21, 5⟩
def F.SER_RX_CTL_ctle : Fld := ⟨0, 4⟩
def F.SER_RX_CTL_ctle_set : Fld := ⟨4, 4⟩
def F.SER_RX_CTL_ctle_ovr : Fld := ⟨8, 1⟩
def F.SER_RX_CTL_freeze : Fld := ⟨9, 1⟩
def F.SER_EYE_ei : Fld := ⟨0, 8⟩
def F.SER_EYE_v : Fld := ⟨8, 8⟩
def F.SER_EYE_h : Fld := ⟨16, 8⟩
def F.SER_EYE_sub : Fld := ⟨24, 2⟩
def F.SER_EYE_valid : Fld := ⟨26, 1⟩
def F.SER_EYE_paused : Fld := ⟨27, 1⟩
def F.SER_STATUS_sig_det : Fld := ⟨0, 1⟩
def F.SER_STATUS_cdr_lock : Fld := ⟨1, 1⟩
def F.SER_STATUS_adapt_done : Fld := ⟨2, 1⟩
def F.SER_STATUS_frame : Fld := ⟨3, 1⟩
def F.SER_STATUS_port : Fld := ⟨4, 6⟩
def F.SER_STATUS_port_lane : Fld := ⟨10, 4⟩
def F.SER_STATUS_pol_det : Fld := ⟨14, 1⟩
def F.SER_STATUS_rate : Fld := ⟨15, 4⟩
def F.SER_PRBS_gen_sel : Fld := ⟨0, 3⟩
def F.SER_PRBS_gen_en : Fld := ⟨3, 1⟩
def F.SER_PRBS_chk_sel : Fld := ⟨4, 3⟩
def F.SER_PRBS_chk_en : Fld := ⟨7, 1⟩
def F.SER_PRBS_chk_lock : Fld := ⟨8, 1⟩
def F.SER_LOOP_mode : Fld := ⟨0, 2⟩
def F.SER_PRBS_USER_pattern : Fld := ⟨0, 64⟩
def F.SER_RX_DFE_tap : Fld := ⟨0, 8⟩
def F.SER_TILE_CFG_family : Fld := ⟨0, 1⟩
def F.SER_TILE_CFG_refclk : Fld := ⟨1, 2⟩
def F.SER_TILE_CFG_host : Fld := ⟨3, 3⟩
def F.SER_TILE_CFG_camtex_85 : Fld := ⟨6, 1⟩
def F.SER_TILE_CFG_pair : Fld := ⟨7, 1⟩
def F.SER_TILE_CFG_good_ei : Fld := ⟨8, 8⟩
def F.SER_TILE_CFG_idle_us : Fld := ⟨16, 16⟩
def F.SER_TILE_CTL_test : Fld := ⟨0, 1⟩
def F.SER_TILE_CTL_no_gate : Fld := ⟨1, 1⟩
def F.SER_TILE_STATUS_pll_lock : Fld := ⟨0, 1⟩
def F.SER_TILE_STATUS_gated : Fld := ⟨1, 1⟩
def F.SER_TILE_STATUS_good_mask : Fld := ⟨8, 8⟩
def F.SER_EYE_CFG_err_thr : Fld := ⟨0, 8⟩
def F.SER_EYE_CFG_run : Fld := ⟨8, 1⟩
def F.PRT_CFG_role : Fld := ⟨0, 3⟩
def F.PRT_CFG_partition : Fld := ⟨3, 3⟩
def F.PRT_CFG_slot : Fld := ⟨6, 6⟩
def F.PRT_CFG_dev : Fld := ⟨12, 5⟩
def F.PRT_CFG_m2_hold : Fld := ⟨17, 1⟩
def F.PRT_CFG_clocking : Fld := ⟨18, 2⟩
def F.PRT_CFG_l1ss : Fld := ⟨20, 1⟩
def F.PRT_CTL_contain : Fld := ⟨0, 1⟩
def F.PRT_CTL_release : Fld := ⟨1, 1⟩
def F.PRT_STATUS_link_up : Fld := ⟨0, 1⟩
def F.PRT_STATUS_width : Fld := ⟨1, 5⟩
def F.PRT_STATUS_rate : Fld := ⟨6, 3⟩
def F.PRT_STATUS_flit : Fld := ⟨9, 1⟩
def F.PRT_STATUS_contained : Fld := ⟨10, 1⟩
def F.PRT_STATUS_cont_cause : Fld := ⟨11, 2⟩
def F.PRT_STATUS_pm : Fld := ⟨13, 3⟩
def F.PRT_STATUS_np_out : Fld := ⟨16, 9⟩
def F.PRT_CPL_TO_value : Fld := ⟨0, 4⟩
def F.PRT_SLOT_present : Fld := ⟨0, 1⟩
def F.PRT_SLOT_changed : Fld := ⟨1, 1⟩
def F.PRT_PM_l1_idle_us : Fld := ⟨0, 10⟩
def F.PRT_PM_t_power_on_us : Fld := ⟨10, 8⟩
def F.PRT_PM_cm_restore_us : Fld := ⟨18, 8⟩
def F.PRT_MC_mc_base : Fld := ⟨0, 6⟩
def F.PRT_MC_mc_count : Fld := ⟨6, 7⟩
def F.PRT_FC_ADV_hdr : Fld := ⟨0, 12⟩
def F.PRT_FC_ADV_data : Fld := ⟨12, 16⟩
def F.PRT_FC_ADV_hdr_scale : Fld := ⟨28, 2⟩
def F.PRT_FC_ADV_data_scale : Fld := ⟨30, 2⟩
def F.PRT_LATE_LOG_dw : Fld := ⟨0, 32⟩
def F.PRT_LATE_INFO_reason : Fld := ⟨0, 2⟩
def F.PRT_LATE_INFO_tag : Fld := ⟨2, 10⟩
def F.PRT_LATE_INFO_valid : Fld := ⟨31, 1⟩
def F.XBR_CTRL_rounds : Fld := ⟨0, 2⟩
def F.XBR_CTRL_ptr_reset : Fld := ⟨2, 1⟩
def F.XBR_EGQ_LIMIT_p_limit : Fld := ⟨0, 8⟩
def F.XBR_EGQ_LIMIT_np_limit : Fld := ⟨8, 8⟩
def F.XBR_EGQ_LIMIT_cpl_limit : Fld := ⟨16, 8⟩
def F.XBR_EGQ_LIMIT_ms_limit : Fld := ⟨24, 8⟩
def F.XBR_TILE_WEIGHT_weight : Fld := ⟨0, 5⟩
def F.XBR_PTR_gptr : Fld := ⟨0, 6⟩
def F.XBR_PTR_aptr : Fld := ⟨8, 6⟩
def F.XBR_MC_VEC_members : Fld := ⟨0, 64⟩
def F.XBR_MC_FAIL_LOG_group : Fld := ⟨0, 6⟩
def F.XBR_MC_FAIL_LOG_port : Fld := ⟨6, 6⟩
def F.XBR_MC_FAIL_LOG_cause : Fld := ⟨12, 2⟩
def F.XBR_MC_FAIL_LOG_valid : Fld := ⟨31, 1⟩
def F.XBR_MIR_CFG_enable : Fld := ⟨0, 1⟩
def F.XBR_MIR_CFG_dir : Fld := ⟨1, 2⟩
def F.XBR_MIR_CFG_flow : Fld := ⟨3, 1⟩
def F.XBR_MIR_CFG_src : Fld := ⟨4, 7⟩
def F.XBR_MIR_CFG_dst_port : Fld := ⟨11, 6⟩
def F.XBR_MIR_CFG_trunc : Fld := ⟨17, 1⟩
def F.XBR_MIR_CFG_bad : Fld := ⟨18, 1⟩
def F.XBR_MIR_FLOW_rid : Fld := ⟨0, 16⟩
def F.XBR_MIR_FLOW_rid_mask : Fld := ⟨16, 16⟩
def F.XBR_SAMPLE_CFG_period : Fld := ⟨0, 24⟩
def F.XBR_SAMPLE_CFG_random : Fld := ⟨24, 1⟩
def F.BUF_TOTAL_cells : Fld := ⟨0, 20⟩
def F.BUF_CFG_alpha_exp : Fld := ⟨0, 3⟩
def F.BUF_MIRROR_POOL_cells : Fld := ⟨0, 20⟩
def F.BUF_SHARED_cells : Fld := ⟨0, 20⟩
def F.BUF_COMMIT_go : Fld := ⟨0, 1⟩
def F.BUF_COMMIT_done : Fld := ⟨1, 1⟩
def F.BUF_COMMIT_error : Fld := ⟨2, 1⟩
def F.BUF_SHARED_USE_cells : Fld := ⟨0, 20⟩
def F.BUF_MIRROR_USE_cells : Fld := ⟨0, 20⟩
def F.BUF_MIN_cells : Fld := ⟨0, 16⟩
def F.BUF_USE_cells : Fld := ⟨0, 20⟩
def F.BUF_USE_above : Fld := ⟨20, 1⟩
def F.SCH_NOW_ticks : Fld := ⟨0, 58⟩
def F.SCH_PARK_TC_saffron_tc : Fld := ⟨0, 3⟩
def F.SCH_PARK_TC_mace_tc : Fld := ⟨4, 3⟩
def F.SCH_PARK_TC_anise_tc : Fld := ⟨8, 3⟩
def F.SCH_IN_TCMAP_map : Fld := ⟨0, 24⟩
def F.SCH_IN_METER_meter : Fld := ⟨0, 12⟩
def F.SCH_IN_METER_enable : Fld := ⟨12, 1⟩
def F.SCH_SHELF_METER_meter : Fld := ⟨0, 12⟩
def F.SCH_SHELF_METER_enable : Fld := ⟨12, 1⟩
def F.SCH_Q_CFG_mode : Fld := ⟨0, 1⟩
def F.SCH_Q_CFG_shape_en : Fld := ⟨1, 1⟩
def F.SCH_Q_CFG_quantum : Fld := ⟨2, 16⟩
def F.SCH_Q_SHAPE_inc : Fld := ⟨0, 24⟩
def F.SCH_Q_SHAPE_burst : Fld := ⟨32, 20⟩
def F.SCH_Q_DEPTH_bytes : Fld := ⟨0, 27⟩
def F.SCH_Q_DEPTH_red : Fld := ⟨27, 1⟩
def F.SCH_Q_DEPTH_shaped : Fld := ⟨28, 1⟩
def F.SCH_Q_DEPTH_no_head : Fld := ⟨29, 1⟩
def F.SCH_Q_HWM_mark : Fld := ⟨0, 27⟩
def F.SCH_Q_HWM_clear : Fld := ⟨31, 1⟩
def F.SCH_BUF_HWM_mark : Fld := ⟨0, 20⟩
def F.SCH_BUF_HWM_clear : Fld := ⟨31, 1⟩
def F.SCH_METER_CIR_cir_inc : Fld := ⟨0, 24⟩
def F.SCH_METER_CIR_enable : Fld := ⟨24, 1⟩
def F.SCH_METER_PIR_pir_inc : Fld := ⟨0, 24⟩
def F.SCH_METER_CBS_cbs : Fld := ⟨0, 24⟩
def F.SCH_METER_PBS_pbs : Fld := ⟨0, 24⟩
def F.PRK_CTRL_enable : Fld := ⟨0, 1⟩
def F.PRK_CTRL_plan_hold : Fld := ⟨1, 1⟩
def F.PRK_KEEP_keep : Fld := ⟨0, 1⟩
def F.PRK_CAPACITY_granules : Fld := ⟨0, 30⟩
def F.PRK_FREE_granules : Fld := ⟨0, 30⟩
def F.PRK_LIVE_entries : Fld := ⟨0, 23⟩
def F.PRK_ADMIT_wait_ms : Fld := ⟨0, 16⟩
def F.PRK_PEER_path : Fld := ⟨0, 12⟩
def F.PRK_PEER_valid : Fld := ⟨12, 1⟩
def F.PRK_GUEST_limit_gib : Fld := ⟨0, 12⟩
def F.PRK_GUEST_use_gib : Fld := ⟨16, 12⟩
def F.PRK_LEDGER_BUDGET_watts : Fld := ⟨0, 16⟩
def F.PRK_LEDGER_USE_watts : Fld := ⟨0, 16⟩
def F.PRK_LEDGER_USE_releasing : Fld := ⟨16, 16⟩
def F.PRK_SCRUB_hours : Fld := ⟨0, 8⟩
def F.PRK_SCRUB_enable : Fld := ⟨8, 1⟩
def F.PRK_SIDE_TIME_pg_timeout_ms : Fld := ⟨0, 12⟩
def F.PRK_SIDE_TIME_pg_off_ms : Fld := ⟨12, 12⟩
def F.PRK_SIDE_TIME_link_timeout_s : Fld := ⟨24, 8⟩
def F.PRK_PLAN_STATE_head : Fld := ⟨0, 6⟩
def F.PRK_PLAN_STATE_head_valid : Fld := ⟨6, 1⟩
def F.PRK_PLAN_STATE_waiting : Fld := ⟨8, 6⟩
def F.PRK_PEEK_IDX_index : Fld := ⟨0, 22⟩
def F.PRK_PEEK_IDX_go : Fld := ⟨31, 1⟩
def F.PRK_PEEK_STATUS_done : Fld := ⟨0, 1⟩
def F.PRK_PEEK_DATA_word : Fld := ⟨0, 32⟩
def F.PRK_WIN_CFG_base_gib : Fld := ⟨0, 11⟩
def F.PRK_WIN_CFG_size_gib : Fld := ⟨16, 11⟩
def F.PRK_WIN_CFG_partition : Fld := ⟨27, 3⟩
def F.PRK_WIN_CFG_enable : Fld := ⟨31, 1⟩
def F.PRK_CLASS_CFG_batch_s : Fld := ⟨0, 12⟩
def F.PRK_CLASS_CFG_promote_s : Fld := ⟨12, 16⟩
def F.PRK_CLASS_EXPIRE_expire_s : Fld := ⟨0, 32⟩
def F.PRK_CLASS_BATCH_batch_gib : Fld := ⟨0, 12⟩
def F.PRK_SHELF_PWR_spin_w : Fld := ⟨0, 12⟩
def F.PRK_SHELF_PWR_run_w : Fld := ⟨12, 12⟩
def F.PRK_SHELF_PWR_retries : Fld := ⟨24, 4⟩
def F.PRK_SHELF_TIME_idle_hold_s : Fld := ⟨0, 16⟩
def F.PRK_SHELF_TIME_min_off_s : Fld := ⟨16, 8⟩
def F.PRK_SHELF_TIME_ready_timeout_s : Fld := ⟨24, 8⟩
def F.PRK_SHELF_READY_mode : Fld := ⟨0, 2⟩
def F.PRK_SHELF_READY_delay_s : Fld := ⟨2, 8⟩
def F.PRK_SHELF_CTL_pin : Fld := ⟨0, 1⟩
def F.PRK_SHELF_CTL_wake_now : Fld := ⟨1, 1⟩
def F.PRK_SHELF_CTL_clear_fail : Fld := ⟨2, 1⟩
def F.PRK_SHELF_READY_ADDR_addr : Fld := ⟨0, 64⟩
def F.PRK_SHELF_READY_MASK_mask : Fld := ⟨0, 32⟩
def F.PRK_SHELF_READY_VAL_val : Fld := ⟨0, 32⟩
def F.PRK_SHELF_STATE_state : Fld := ⟨0, 4⟩
def F.PRK_SHELF_STATE_top_class : Fld := ⟨4, 2⟩
def F.PRK_SHELF_STATE_eligible : Fld := ⟨6, 1⟩
def F.PRK_SHELF_STATE_fails : Fld := ⟨7, 4⟩
def F.PRK_SHELF_LIVE_entries : Fld := ⟨0, 23⟩
def F.PRK_SHELF_GRAN_granules : Fld := ⟨0, 30⟩
def F.PRK_SHELF_WAIT_seconds : Fld := ⟨0, 32⟩
def F.HOD_CFG_enable : Fld := ⟨0, 1⟩
def F.HOD_CFG_mrrs : Fld := ⟨1, 3⟩
def F.HOD_CFG_mps : Fld := ⟨4, 3⟩
def F.HOD_CFG_cpl_cells : Fld := ⟨8, 12⟩
def F.HOD_CFG_retry_gap_us : Fld := ⟨20, 8⟩
def F.HOD_STATUS_channel : Fld := ⟨0, 6⟩
def F.HOD_STATUS_busy : Fld := ⟨6, 1⟩
def F.HOD_STATUS_held : Fld := ⟨7, 1⟩
def F.HOD_STATUS_pending : Fld := ⟨8, 7⟩
def F.HOD_STATUS_resv_cells : Fld := ⟨16, 12⟩
def F.HOD_CTL_hold : Fld := ⟨0, 1⟩
def F.HOD_CH_SH_SRC_addr : Fld := ⟨0, 64⟩
def F.HOD_CH_SH_DST_addr : Fld := ⟨0, 64⟩
def F.HOD_CH_SH_COUNT_bytes : Fld := ⟨0, 40⟩
def F.HOD_CH_SH_SPACE_src_space : Fld := ⟨0, 2⟩
def F.HOD_CH_SH_SPACE_src_sg : Fld := ⟨2, 1⟩
def F.HOD_CH_SH_SPACE_dst_space : Fld := ⟨4, 2⟩
def F.HOD_CH_SH_SPACE_dst_sg : Fld := ⟨6, 1⟩
def F.HOD_CH_SH_SPACE_src_port : Fld := ⟨8, 6⟩
def F.HOD_CH_SH_SPACE_dst_port : Fld := ⟨16, 6⟩
def F.HOD_CH_SH_PASID_pasid : Fld := ⟨0, 20⟩
def F.HOD_CH_SH_PASID_pasid_en : Fld := ⟨20, 1⟩
def F.HOD_CH_SH_JOB_tc : Fld := ⟨0, 3⟩
def F.HOD_CH_SH_JOB_meter_en : Fld := ⟨3, 1⟩
def F.HOD_CH_SH_JOB_meter : Fld := ⟨4, 12⟩
def F.HOD_CH_SH_JOB_retries : Fld := ⟨16, 4⟩
def F.HOD_CH_SH_JOB_pulse_tgt : Fld := ⟨20, 2⟩
def F.HOD_CH_SH_JOB_tgt_ch : Fld := ⟨22, 6⟩
def F.HOD_CH_SH_JOB_tgt_hod : Fld := ⟨28, 4⟩
def F.HOD_CH_SH_TAG_slice : Fld := ⟨0, 10⟩
def F.HOD_CH_SH_TAG_qp : Fld := ⟨10, 12⟩
def F.HOD_CH_SH_TAG_cid : Fld := ⟨22, 16⟩
def F.HOD_CH_SH_SEAL_seal : Fld := ⟨0, 1⟩
def F.HOD_CH_MODE_direct : Fld := ⟨0, 1⟩
def F.HOD_CH_MODE_slice : Fld := ⟨1, 10⟩
def F.HOD_CH_CTL_go : Fld := ⟨0, 1⟩
def F.HOD_CH_CTL_abort : Fld := ⟨1, 1⟩
def F.HOD_CH_STATUS_state : Fld := ⟨0, 3⟩
def F.HOD_CH_STATUS_pending : Fld := ⟨3, 1⟩
def F.HOD_CH_STATUS_last_status : Fld := ⟨4, 8⟩
def F.HOD_CH_STATUS_retries_used : Fld := ⟨12, 4⟩
def F.HOD_CH_PROGRESS_bytes : Fld := ⟨0, 40⟩
def F.HOD_CH_ERRLOG_addr : Fld := ⟨0, 64⟩
def F.HOD_CH_ERRINFO_status : Fld := ⟨0, 8⟩
def F.HOD_CH_ERRINFO_side : Fld := ⟨8, 1⟩
def F.HOD_CH_ERRINFO_list : Fld := ⟨9, 1⟩
def F.HOD_CH_ERRINFO_retries_used : Fld := ⟨10, 4⟩
def F.HOD_CH_ERRINFO_valid : Fld := ⟨31, 1⟩
def F.GRD_CFG_world : Fld := ⟨0, 1⟩
def F.GRD_CFG_ident : Fld := ⟨1, 1⟩
def F.GRD_STATUS_epoch : Fld := ⟨0, 8⟩
def F.GRD_STATUS_stale : Fld := ⟨8, 1⟩
def F.GRD_STATUS_bad_rule : Fld := ⟨9, 1⟩
def F.GRD_STATUS_parity : Fld := ⟨10, 1⟩
def F.GRD_FAULT_INFO_cause : Fld := ⟨0, 3⟩
def F.GRD_FAULT_INFO_write : Fld := ⟨3, 1⟩
def F.GRD_FAULT_INFO_world : Fld := ⟨4, 1⟩
def F.GRD_FAULT_INFO_ident : Fld := ⟨5, 6⟩
def F.GRD_FAULT_INFO_rule : Fld := ⟨11, 7⟩
def F.GRD_FAULT_INFO_slice : Fld := ⟨18, 10⟩
def F.GRD_FAULT_INFO_more : Fld := ⟨28, 1⟩
def F.GRD_FAULT_INFO_valid : Fld := ⟨31, 1⟩
def F.GRD_FAULT_ADDR_addr : Fld := ⟨0, 56⟩
def F.GRD_FAULT_ADDR_space : Fld := ⟨56, 2⟩
def F.GRD_FAULT_ADDR_sel : Fld := ⟨58, 6⟩
def F.GRD_FAULT_PASID_pasid : Fld := ⟨0, 20⟩
def F.GRD_FAULT_PASID_pasid_valid : Fld := ⟨20, 1⟩
def F.GRD_FAULT_PASID_epoch : Fld := ⟨24, 8⟩
def F.GRD_RULE_BASE_base : Fld := ⟨12, 52⟩
def F.GRD_RULE_LIMIT_limit : Fld := ⟨12, 52⟩
def F.GRD_RULE_ATTR_valid : Fld := ⟨0, 1⟩
def F.GRD_RULE_ATTR_rd : Fld := ⟨1, 1⟩
def F.GRD_RULE_ATTR_wr : Fld := ⟨2, 1⟩
def F.GRD_RULE_ATTR_deny : Fld := ⟨3, 1⟩
def F.GRD_RULE_ATTR_s_ok : Fld := ⟨4, 1⟩
def F.GRD_RULE_ATTR_n_ok : Fld := ⟨5, 1⟩
def F.GRD_RULE_ATTR_space : Fld := ⟨6, 2⟩
def F.GRD_RULE_ATTR_sel : Fld := ⟨8, 6⟩
def F.GRD_RULE_ATTR_pasid_en : Fld := ⟨14, 1⟩
def F.GRD_RULE_ATTR_slice_en : Fld := ⟨15, 1⟩
def F.GRD_RULE_ATTR_id_en : Fld := ⟨16, 1⟩
def F.GRD_RULE_ATTR_bad : Fld := ⟨17, 1⟩
def F.GRD_RULE_ATTR_any_sel : Fld := ⟨18, 1⟩
def F.GRD_RULE_ATTR_lock : Fld := ⟨31, 1⟩
def F.GRD_RULE_MATCH_pasid : Fld := ⟨0, 20⟩
def F.GRD_RULE_MATCH_slice : Fld := ⟨20, 10⟩
def F.GRD_RULE_MATCH_ident : Fld := ⟨30, 6⟩
def F.GRD_COMMIT_go : Fld := ⟨0, 1⟩
def F.GRD_COMMIT_done : Fld := ⟨1, 1⟩
def F.GRD_COMMIT_refused : Fld := ⟨2, 1⟩
def F.GRD_COMMIT_MASK_guards : Fld := ⟨0, 41⟩
def F.SLC_FENCE_go : Fld := ⟨0, 1⟩
def F.SLC_FENCE_final : Fld := ⟨1, 1⟩
def F.SLC_FENCE_done : Fld := ⟨8, 1⟩
def F.SLC_FENCE_status : Fld := ⟨16, 8⟩
def F.SLC_RSV_ADDR_offset : Fld := ⟨0, 41⟩
def F.SLC_RSV_LR_value : Fld := ⟨0, 64⟩
def F.SLC_RSV_NEW_value : Fld := ⟨0, 64⟩
def F.SLC_RSV_SC_ok : Fld := ⟨0, 1⟩
def F.SLC_RSV_SC_cause : Fld := ⟨1, 3⟩
def F.SLC_SQ_DB_tail : Fld := ⟨0, 16⟩
def F.SLC_CQ_DB_head : Fld := ⟨0, 16⟩
def F.SLC_EQ_DB_head : Fld := ⟨0, 16⟩
def F.SLC_QP_SQ_BASE_addr : Fld := ⟨12, 52⟩
def F.SLC_QP_CQ_BASE_addr : Fld := ⟨12, 52⟩
def F.SLC_QP_CFG_enable : Fld := ⟨0, 1⟩
def F.SLC_QP_CFG_sq_log2 : Fld := ⟨1, 5⟩
def F.SLC_QP_CFG_cq_log2 : Fld := ⟨6, 5⟩
def F.SLC_QP_CFG_burst : Fld := ⟨11, 3⟩
def F.SLC_QP_CFG_cfg_err : Fld := ⟨14, 1⟩
def F.SLC_QP_IRQ_vector : Fld := ⟨0, 11⟩
def F.SLC_QP_IRQ_irq_en : Fld := ⟨11, 1⟩
def F.SLC_QP_IRQ_cnt_thr : Fld := ⟨12, 8⟩
def F.SLC_QP_IRQ_time_us : Fld := ⟨20, 10⟩
def F.SLC_QP_IRQ_err_now : Fld := ⟨30, 1⟩
def F.SLC_QP_STATUS_state : Fld := ⟨0, 2⟩
def F.SLC_QP_STATUS_busy : Fld := ⟨2, 1⟩
def F.SLC_QP_STATUS_cause : Fld := ⟨3, 3⟩
def F.SLC_QP_STATUS_global : Fld := ⟨6, 12⟩
def F.SLC_QP_PTR_sq_head : Fld := ⟨0, 16⟩
def F.SLC_QP_PTR_cq_tail : Fld := ⟨16, 16⟩
def F.SLC_EQ_BASE_addr : Fld := ⟨12, 52⟩
def F.SLC_EQ_CFG_enable : Fld := ⟨0, 1⟩
def F.SLC_EQ_CFG_log2 : Fld := ⟨1, 5⟩
def F.SLC_EQ_CFG_vector : Fld := ⟨6, 11⟩
def F.SLC_EQ_CFG_irq_en : Fld := ⟨17, 1⟩
def F.SLC_EQ_STATUS_tail : Fld := ⟨0, 16⟩
def F.SLC_EQ_STATUS_enabled : Fld := ⟨16, 1⟩
def F.SLC_EQ_STATUS_overflow : Fld := ⟨17, 1⟩
def F.SLC_EQ_STATUS_bad_db : Fld := ⟨18, 1⟩
def F.SLC_STATE_state : Fld := ⟨0, 3⟩
def F.SLC_STATE_lost : Fld := ⟨3, 1⟩
def F.SLC_STATE_stale_blob : Fld := ⟨4, 1⟩
def F.SLC_STATE_gen : Fld := ⟨16, 16⟩
def F.SLC_BIND_pasid : Fld := ⟨0, 20⟩
def F.SLC_BIND_partition : Fld := ⟨20, 3⟩
def F.SLC_RES_qp_count : Fld := ⟨0, 7⟩
def F.SLC_RES_chan_count : Fld := ⟨7, 7⟩
def F.SLC_RES_meter_count : Fld := ⟨14, 7⟩
def F.SLC_BASE_qp_base : Fld := ⟨0, 12⟩
def F.SLC_BASE_meter_base : Fld := ⟨12, 12⟩
def F.SLC_NAMES_meter_name : Fld := ⟨0, 12⟩
def F.SLC_NAMES_vec_base : Fld := ⟨12, 11⟩
def F.SLC_NAMES_vec_count : Fld := ⟨23, 9⟩
def F.SLC_QUOTA_quota_gib : Fld := ⟨0, 12⟩
def F.SLC_QUOTA_use_gib : Fld := ⟨12, 12⟩
def F.SLC_CHAN_channel : Fld := ⟨0, 10⟩
def F.SLC_CHAN_valid : Fld := ⟨10, 1⟩
def F.SLC_POOL_RES_free_qp : Fld := ⟨0, 13⟩
def F.SLC_POOL_RES_free_chan : Fld := ⟨13, 11⟩
def F.SLC_POOL_METER_free_meter : Fld := ⟨0, 13⟩
def F.SLC_POOL_QUOTA_total_gib : Fld := ⟨0, 12⟩
def F.SLC_POOL_QUOTA_free_gib : Fld := ⟨12, 12⟩
def F.SLC_POOL_SLOTS_empty : Fld := ⟨0, 11⟩
def F.SLC_POOL_SLOTS_worn : Fld := ⟨11, 11⟩
def F.SLC_CTL_LAST_op : Fld := ⟨0, 4⟩
def F.SLC_CTL_LAST_slice : Fld := ⟨4, 10⟩
def F.SLC_CTL_LAST_reason : Fld := ⟨14, 4⟩
def F.SLC_CTL_LAST_discarded : Fld := ⟨18, 12⟩
def F.SLC_VC_CNT_count : Fld := ⟨0, 48⟩
def F.SLC_VC_CNT_ovf : Fld := ⟨63, 1⟩
def F.SLC_VC_SEL_event : Fld := ⟨0, 10⟩
def F.SLC_VC_SEL_en : Fld := ⟨10, 1⟩
def F.SLC_VC_SEL_bad : Fld := ⟨11, 1⟩
def F.SLC_VC_SEL_irq_en : Fld := ⟨12, 1⟩
def F.SLC_VC_SEL_vector : Fld := ⟨13, 11⟩
def F.SLC_VC_SEL_sampled : Fld := ⟨24, 1⟩
def F.SLC_VC_PERIOD_period : Fld := ⟨0, 32⟩
def F.FAB_CFG_enable : Fld := ⟨0, 1⟩
def F.FAB_CFG_replay_ns : Fld := ⟨1, 12⟩
def F.FAB_CFG_replay_max : Fld := ⟨13, 4⟩
def F.FAB_CFG_min_width : Fld := ⟨17, 4⟩
def F.FAB_CFG_window : Fld := ⟨21, 11⟩
def F.FAB_TIME_reset_us : Fld := ⟨0, 8⟩
def F.FAB_TIME_train_ms : Fld := ⟨8, 8⟩
def F.FAB_TIME_backoff_ms : Fld := ⟨16, 16⟩
def F.FAB_CTL_reset : Fld := ⟨0, 1⟩
def F.FAB_STATUS_state : Fld := ⟨0, 3⟩
def F.FAB_STATUS_leader : Fld := ⟨3, 1⟩
def F.FAB_STATUS_width : Fld := ⟨4, 4⟩
def F.FAB_STATUS_active : Fld := ⟨8, 8⟩
def F.FAB_STATUS_reversed : Fld := ⟨16, 1⟩
def F.FAB_STATUS_rate85 : Fld := ⟨17, 1⟩
def F.FAB_STATUS_last_fail : Fld := ⟨18, 4⟩
def F.FAB_EXCL_lanes : Fld := ⟨0, 8⟩
def F.FAB_PARTNER_serial : Fld := ⟨0, 64⟩
def F.FAB_PARTNER_INFO_path : Fld := ⟨0, 12⟩
def F.FAB_PARTNER_INFO_path_valid : Fld := ⟨12, 1⟩
def F.FAB_PARTNER_INFO_good : Fld := ⟨13, 8⟩
def F.FAB_SEQ_next_tx : Fld := ⟨0, 12⟩
def F.FAB_SEQ_acked : Fld := ⟨12, 12⟩
def F.FAB_RX_last_rx : Fld := ⟨0, 12⟩
def F.FAB_RX_expiries : Fld := ⟨16, 3⟩
def F.FAB_CREDIT_req_avail : Fld := ⟨0, 12⟩
def F.FAB_CREDIT_rsp_avail : Fld := ⟨12, 12⟩
def F.BND_CFG_path : Fld := ⟨0, 12⟩
def F.BND_CFG_depth : Fld := ⟨12, 3⟩
def F.BND_CFG_fabric : Fld := ⟨15, 1⟩
def F.BND_CFG_priority : Fld := ⟨16, 8⟩
def F.BND_CFG_enable : Fld := ⟨24, 1⟩
def F.BND_TIME_hb_ms : Fld := ⟨0, 8⟩
def F.BND_TIME_collect_ms : Fld := ⟨8, 4⟩
def F.BND_TIME_resend_us : Fld := ⟨12, 12⟩
def F.BND_IDENT_bond_id : Fld := ⟨0, 64⟩
def F.BND_KEYSTONE_path : Fld := ⟨0, 12⟩
def F.BND_KEYSTONE_valid : Fld := ⟨12, 1⟩
def F.BND_KEYSTONE_self : Fld := ⟨13, 1⟩
def F.BND_KEYSTONE_electing : Fld := ⟨14, 1⟩
def F.BND_KEYSTONE_term : Fld := ⟨16, 16⟩
def F.BND_HOLD_used : Fld := ⟨0, 17⟩
def F.BND_HOLD_HWM_mark : Fld := ⟨0, 17⟩
def F.BND_HOLD_HWM_clear : Fld := ⟨31, 1⟩
def F.BND_ORPHAN_hold_h : Fld := ⟨0, 16⟩
def F.BND_ORPHAN_CNT_entries : Fld := ⟨0, 23⟩
def F.BND_STREAM_IDX_path : Fld := ⟨0, 12⟩
def F.BND_STREAM_IDX_cls : Fld := ⟨12, 1⟩
def F.BND_STREAM_IDX_inbound : Fld := ⟨13, 1⟩
def F.BND_STREAM_IDX_go : Fld := ⟨31, 1⟩
def F.BND_STREAM_DATA_cseq : Fld := ⟨0, 32⟩
def F.BND_STREAM_DATA_held : Fld := ⟨32, 17⟩
def F.BND_STREAM_DATA_port : Fld := ⟨49, 3⟩
def F.BND_STREAM_DATA_state : Fld := ⟨52, 3⟩
def F.BND_STREAM_DATA_valid : Fld := ⟨63, 1⟩
def F.BND_ROUTE_primary : Fld := ⟨0, 8⟩
def F.BND_ROUTE_alternate : Fld := ⟨8, 8⟩
def F.BND_ROUTE_hops : Fld := ⟨16, 4⟩
def F.BND_MEMBER_state : Fld := ⟨0, 2⟩
def F.BND_MEMBER_self : Fld := ⟨2, 1⟩
def F.BND_LEND_owner_path : Fld := ⟨0, 12⟩
def F.BND_LEND_owner_port : Fld := ⟨12, 6⟩
def F.BND_LEND_slot : Fld := ⟨18, 6⟩
def F.BND_LEND_valid : Fld := ⟨24, 1⟩
def F.BND_LEND_pg : Fld := ⟨25, 1⟩
def F.BND_PORT_LEND_borrower_path : Fld := ⟨0, 12⟩
def F.BND_PORT_LEND_partition : Fld := ⟨12, 3⟩
def F.BND_PORT_LEND_dev : Fld := ⟨15, 5⟩
def F.BND_PORT_LEND_valid : Fld := ⟨20, 1⟩
def F.BND_LEND_CTL_op : Fld := ⟨0, 2⟩
def F.BND_LEND_CTL_owner_path : Fld := ⟨2, 12⟩
def F.BND_LEND_CTL_slot : Fld := ⟨14, 6⟩
def F.BND_LEND_CTL_partition : Fld := ⟨20, 3⟩
def F.BND_LEND_CTL_dev : Fld := ⟨23, 5⟩
def F.BND_LEND_CTL_go : Fld := ⟨28, 1⟩
def F.BND_LEND_CTL_done : Fld := ⟨29, 1⟩
def F.BND_LEND_CTL_refused : Fld := ⟨30, 1⟩
def F.BND_FAR_INFO_path : Fld := ⟨0, 12⟩
def F.BND_FAR_INFO_cause : Fld := ⟨12, 4⟩
def F.BND_FAR_INFO_origin : Fld := ⟨16, 7⟩
def F.BND_FAR_INFO_more : Fld := ⟨23, 1⟩
def F.BND_FAR_INFO_valid : Fld := ⟨31, 1⟩
def F.BND_FAR_LOG_dw : Fld := ⟨0, 32⟩
def F.BND_RT_MISS_rid : Fld := ⟨0, 16⟩
def F.BND_RT_MISS_sel : Fld := ⟨16, 6⟩
def F.BND_RT_MISS_kind : Fld := ⟨22, 1⟩
def F.BND_RT_MISS_more : Fld := ⟨23, 1⟩
def F.BND_RT_MISS_valid : Fld := ⟨31, 1⟩
def F.BND_RT0_rid : Fld := ⟨0, 16⟩
def F.BND_RT0_sel : Fld := ⟨16, 6⟩
def F.BND_RT0_kind : Fld := ⟨22, 1⟩
def F.BND_RT0_pasid_en : Fld := ⟨23, 1⟩
def F.BND_RT0_valid : Fld := ⟨31, 1⟩
def F.BND_RT1_pasid : Fld := ⟨0, 20⟩
def F.BND_RT2_dst_path : Fld := ⟨0, 12⟩
def F.BND_RT2_dst_port : Fld := ⟨12, 6⟩
def F.BND_RT2_rewrite : Fld := ⟨18, 1⟩
def F.BND_RT3_new_rid : Fld := ⟨0, 16⟩
def F.BND_RT4_addr_off_lo : Fld := ⟨0, 32⟩
def F.BND_RT5_addr_off_hi : Fld := ⟨0, 32⟩
def F.MEM_CH_STATUS_trained : Fld := ⟨0, 1⟩
def F.MEM_CH_STATUS_dimm0 : Fld := ⟨1, 1⟩
def F.MEM_CH_STATUS_dimm1 : Fld := ⟨2, 1⟩
def F.MEM_CH_STATUS_self_refresh : Fld := ⟨3, 1⟩
def F.MEM_CH_STATUS_failed : Fld := ⟨4, 1⟩
def F.MEM_CH_STATUS_gib : Fld := ⟨16, 9⟩
def F.MEM_CH_CFG_ce_thr : Fld := ⟨0, 16⟩
def F.MEM_CH_ERRADDR_addr : Fld := ⟨0, 41⟩
def F.MEM_CH_ERRADDR_valid : Fld := ⟨63, 1⟩
/-- The count of a counter (the common layout of R61). -/
def F.CNT_count : Fld := ⟨0, 48⟩
/-- The wrap flag of a counter (the common layout of R61). -/
def F.CNT_ovf : Fld := ⟨63, 1⟩

end Sys2Proof.Machine
end

