-- ==== Sys2Proof/Machine/State.lean ====
section
/-! DEFINITION. The state of the module as plain data: every register, queue, buffer, counter, mode and pin the spec
gives it, the queue of waiting commands, and the state at plinth power-up. Registers software can see live in
`Base.regs` at their BAR0 offsets; what an engine holds beside its registers lives in the engine's own structure. -/

namespace Sys2Proof.Machine

/-- No command of this block ends in a fault: the spec gives every one an effect. -/
inductive Fault where
  /-- Raised by no meaning (safe): kept so that the type names the one outcome it could have. -/
  | none
  deriving DecidableEq, Repr

/-- Why a command has no meaning. -/
inductive Refusal where
  /-- The command of this mnemonic has no meaning yet; raised by an arm of `exec` alone (safe). -/
  | notModelled (mnemonic : String)
  deriving DecidableEq, Repr

/-- The register file: the words that have been put, by BAR0 offset, offsets rising; an unlisted word is at its reset value. -/
abbrev RegFile := List (Nat × W32)

/-- The timers of the module (R306); each row named X_EXPIRY ends one of them. -/
inductive TimerKey where
  | irqTime (gqp : Nat)
  | retryGap (h c : Nat)
  | mergeWindow (p : Nat)
  | reservation (s : Nat)
  | admissionWait (id : Nat)
  | batch (slot : Nat)
  | promote (slot : Nat)
  | entryExpiry (e : Nat)
  | perstRelease (slot : Nat)
  | readyDelay (slot : Nat)
  | readyPoll (slot : Nat)
  | sweepHold (s : Nat)
  | idleHold (slot : Nat)
  | pwrreqRelease (slot : Nat)
  | minOff (slot : Nat)
  | pgTimeout (slot : Nat)
  | linkTimeout (slot : Nat)
  | readyTimeout (slot : Nat)
  | pgOff (slot : Nat)
  | quiesceLimit (s : Nat)
  | freezeDeadline (s : Nat)
  | scrub (s : Nat)
  | cplTimeout (port tag : Nat)
  | quarantine (port tag : Nat)
  | resetDrain (p : Nat)
  | l1Idle (port : Nat)
  | replay (k : Nat)
  | resetHold (k : Nat)
  | tuneSettle (k lane : Nat)
  | tune (k : Nat)
  | train (k : Nat)
  | backoff (k : Nat)
  | wakePattern (k : Nat)
  | cackDelay (path : Nat) (cls : SegClass)
  | resend (path : Nat) (cls : SegClass)
  | stream (path : Nat) (cls : SegClass)
  | heartbeat (level : Nat)
  | collect (level : Nat)
  | ksLoss (level : Nat)
  | orphan (e : Nat)
  | unlendSettle
  | bufCommit
  | guardCommit
  | guardRecommit (g : Nat)
  | blockReset
  | calSave
  | takedown
  | dipResume
  | debounce
  | inputQual
  | pgQual
  | inrush
  | limitClear
  | faultTimer
  | gateOff
  | retry
  | retryClear
  | cageReset (c : Nat)
  deriving DecidableEq, Repr

/-- An armed timer and the time it ends, in ns since plinth power-up. -/
structure Timer where
  key : TimerKey
  due : Nat
  deriving DecidableEq, Repr

/-- Whom an event concerns (R295, R301, R303). -/
inductive EvScope where
  | module
  | part (p : Nat)
  | slice (s : Nat)
  deriving DecidableEq, Repr

/-- The storm record of one event source (R302): its recent event times, its last event, whether it is suppressed,
and whether its next logged entry carries lost = 1. -/
structure Storm where
  group : Nat
  bit : Nat
  times : List Nat := []
  last : Nat := 0
  suppressed : Bool := false
  lost : Bool := false
  deriving DecidableEq, Repr

/-- What the module keeps of a slice's event ring beside its registers (R173, R174): the head software last wrote,
the phase of the present pass, and whether the next entry carries lost = 1. -/
structure EqRt where
  slice : Nat
  head : Nat := 0
  phase : Bool := true
  lost : Bool := false
  deriving DecidableEq, Repr

/-- The ring a message belongs to (R177): a completion ring by global number, a slice's event ring, or a virtual
counter of a slice (R320). -/
inductive MsgSrc where
  | qp (gqp : Nat)
  | eq (slice : Nat)
  | vc (slice v : Nat)
  deriving DecidableEq, Repr

/-- An interrupt message held pending because its vector or function is masked (R178). -/
structure PendMsg where
  part : Nat
  vector : Nat
  src : MsgSrc
  deriving DecidableEq, Repr

/-- The fields of a completion entry that do not depend on the ring (R169). -/
structure CplEntry where
  cid : Nat
  status : Nat
  opcode : Nat
  final : Bool
  bytes : Nat := 0
  entriesDone : Nat := 0
  retries : Nat := 0
  detail : Nat := 0
  deriving DecidableEq, Repr

/-- A completion entry of a direct-mode job held for lack of a free slot (R115). -/
structure HeldCpl where
  gqp : Nat
  slice : Nat
  gen : Nat
  cid : Nat
  status : Nat
  bytes : Nat
  retries : Nat
  detail : Nat := 0
  deriving DecidableEq, Repr

/-- An event that a source has raised (R300): severity 0 advisory, 1 contained, 2 fatal; `skip` names
the slices whose event ring is never offered it (R174). -/
structure Ev where
  group : Nat
  bit : Nat
  cause : Nat := 0
  sev : Nat := 0
  scope : EvScope := .module
  detail : Nat := 0
  detail2 : Nat := 0
  skip : List Nat := []
  deriving DecidableEq, Repr

/-- What a queue engine holds while Bus Master Enable is clear (R179): a stage of a descriptor, whose entry keeps its reserved slot; a
direct-mode job's entry; an event entry with its slice's generation (R188); or a message. Each is built when it is written. -/
inductive Held where
  | stage (slice id : Nat) (e : CplEntry)
  | direct (h : HeldCpl)
  | event (slice gen : Nat) (e : Ev)
  | msg (m : PendMsg)
  deriving DecidableEq, Repr

/-- Whose read a tag carries (R208, R210). -/
inductive TagOwner where
  | fetch (p id : Nat)
  | hod (h id : Nat)
  | ingest (entry off : Nat)
  | sweepRead (entry off : Nat)
  | refetch (entry off : Nat)
  | sweepFlush (entry : Nat)
  | blob
  | poll (slot : Nat)
  /-- The management cores' read of an image file (R334). -/
  | image
  /-- The work that read has ended in a reset, which waits for the read (R212). -/
  | drained
  deriving DecidableEq, Repr

/-- What an engine hands to the bond logic (R271): a frame or message for another module; `copy` names the entry whose
guest copy it is (R97). `credited` marks a frame of a port, whose cells its link credit has reserved (R51); `meter` and `park` are its
frame record's, as in `Frame` (R62). -/
structure BondMsg where
  dstPath : Nat
  cls : SegClass := .request
  stype : SegType := .data
  dstPort : Nat := 63
  origin : Nat := 72
  vc : Nat := 0
  tc : Nat := 7
  world : Bool := false
  ks : Bool := false
  poison : Bool := false
  data : List Byte
  copy : Option Nat := none
  credited : Bool := false
  meter : Option Nat := none
  park : Option (Nat × Option Nat) := none
  deriving DecidableEq, Repr

/-- A frame in the switch core (R37, R38, R62): where it comes from and goes, its virtual channel, size, and its frame
record. `src` is the accounting index of R48 (73 for the mirror port). -/
structure Frame where
  id : Nat := 0
  src : Nat
  srcXp : Nat
  srcSub : Nat := 0
  dstXp : Nat
  dstSub : Nat := 0
  mc : Bool := false
  group : Nat := 0
  vc : Nat
  bytes : Nat
  tlp : Tlp
  tc : Nat := 0
  meter : Option Nat := none
  poison : Bool := false
  copy : Bool := false
  trunc : Bool := false
  errFrame : Bool := false
  refs : Nat := 1
  stamp : Nat := 0
  /-- What the bond logic makes of the frame when it leaves for another member (R271). -/
  bond : Option BondMsg := none
  /-- The segment of a one-cell frame in transit (R270, R271). -/
  transit : Option Segment := none
  /-- For a frame that came from another member: its source module and the accounting index there (R271, R290). -/
  far : Option (Nat × Nat) := none
  /-- It came in on a Camtex link, whose request VC is charged to (a, P) whatever the core VC (R256). -/
  cam : Bool := false
  /-- A completion of a read of the module's own, on its way to the unit that waits for it (R37, R102): whose, and how it ended. -/
  own : Option (TagOwner × CplStatus) := none
  /-- A park engine's frame takes its record when it is admitted (R62, R72): the entry's class, and the slot of a sweep frame. -/
  park : Option (Nat × Option Nat) := none
  /-- The park entry that a park engine's frame serves. -/
  entry : Option Nat := none
  /-- The guard that checked the access, and the epoch the access carries (R143, R148). -/
  guard : Option (Nat × Nat) := none
  deriving DecidableEq, Repr

/-- Everything that leaves the module, in the order it leaves. -/
inductive Out where
  /-- A queue engine reads host memory of a partition (R168). -/
  | hostRead (p addr : Nat) (pasid : Option Nat) (len : Nat) (id : Nat)
  /-- A queue engine writes host memory of a partition (R169, R173). -/
  | hostWrite (p addr : Nat) (pasid : Option Nat) (data : List Byte)
  /-- An MSI or MSI-X message (R175): address and data. -/
  | msi (p addr data : Nat)
  /-- An AER error message of a function, by its configuration index: severity 0 ERR_COR, 1 ERR_NONFATAL, 2 ERR_FATAL
  (R220, R295). -/
  | aer (fn sev : Nat)
  /-- A read completion to a host-ingress path: data, with EP set when poisoned (R299). -/
  | cplData (p : Nat) (data : List Byte) (ep : Bool)
  /-- An error completion to a host-ingress path (R150): 1 UR, 2 CRS, 4 CA. -/
  | cplErr (p code : Nat)
  /-- The value a register read answers to whoever made it. -/
  | readData (who : Who) (v : W64)
  /-- An error response to an accessor (R150, R327). -/
  | errResp (who : Who)
  /-- A frame leaves on a port's link (R65). -/
  | frame (port : Nat) (f : Frame)
  /-- A frame is handed to the internal unit of a crossbar port (R43). -/
  | toUnit (xp : Nat) (f : Frame)
  /-- A port answers a request with a completion it makes itself (R218, R277). -/
  | synthCpl (port : Nat) (f : Frame) (allOnes : Bool)
  /-- A port releases flow-control credits to its link partner (R51). -/
  | credits (port vc hdr data : Nat)
  /-- A sample record to the management cores (R60): the bytes of the first cell, its sideband word, and the time-stamp. -/
  | sample (cell : List Byte) (sideband : BitVec 48) (stamp : Nat)
  /-- A Camtex port sends a flit (R254). -/
  | flit (k : Nat) (bytes : List Byte)
  /-- A lane sends levels on its line, 0 the lowest: a Camtex codeword (R229), or pattern or loopback data (R243, R244). -/
  | line (lane : Nat) (levels : List (Fin 4))
  /-- A PCI Express lane's training sets report FS and LF, and reject the partner's request or not (R234, R235). -/
  | eqInfo (lane fs lf : Nat) (reject : Bool)
  /-- A PCI Express lane's training sets request precoding, or not (R228). -/
  | precodeRequest (lane : Nat)
  /-- A Camtex port sends LR blocks with a reason (R262). -/
  | lr (k : Nat) (reason : Byte)
  /-- A Camtex lane sends a training record, part by part, over and over (R263): the four TS blocks as they stand on the line, header lowest. -/
  | record (k lane : Nat) (blocks : List (BitVec 66))
  /-- A Camtex port sends its first AM column (R264 step 7). -/
  | amColumn (k : Nat)
  /-- A Camtex port sends the wake pattern (R284). -/
  | wakePattern (k : Nat)
  /-- The bond logic sends a segment on a Camtex port (R270). -/
  | segment (k : Nat) (seg : Segment)
  /-- A park or hod request to host memory or a shelf (R83, R112). -/
  | busRead (xp addr len id : Nat)
  | busWrite (xp addr : Nat) (data : List Byte)
  /-- A hot reset is sent on a port (R216). -/
  | hotReset (port : Nat) (set : Bool)
  /-- The module pulls HOST_CLKREQ_k# low, or releases it (R222). -/
  | clkReq (k : Nat) (low : Bool)
  /-- A port asks for L1 (R221). -/
  | l1Entry (port : Nat)
  /-- The bytes an SMBus command answers, with its error flag (R369). -/
  | smbus (data : List Byte) (err : Bool)
  /-- An SMBus command is refused with a NACK (R369). -/
  | nack
  /-- The debug port answers (R146): data, or the error status. -/
  | debug (data : Option W64)
  /-- The TAP shifts out a register (R372). -/
  | jtag (bits : List Bool)
  /-- The boundary-scan cells drive the pins, steadily, with a pulse, or with a train of pulses (R372). -/
  | pins (kind : Nat) (bits : List Bool)
  /-- A read of a register completes with EP set: its storage failed (R299), or the word it loads is poisoned (R99, R135). -/
  | badRead (off : Nat)
  /-- A margin command is answered (R245). -/
  | margin (lane payload : Nat)
  deriving DecidableEq, Repr

/-- Which guard commit runs (R148): its mask of guards and, for a GUARD_COMMIT descriptor, whose it is. -/
structure CommitRun where
  mask : Nat
  desc : Option (Nat × Nat) := none
  deriving DecidableEq, Repr

/-- The part of the state that registers, events, guards, counters and interrupts share. -/
structure Base where
  /-- BAR0 registers (R378); an unlisted word is at its reset value. -/
  regs : RegFile := []
  /-- The active rule sets of the guards (R147), at the offsets of the staged registers. -/
  act : RegFile := []
  /-- Configuration-space words, by function index * 4096 + offset (R154, R155, R201). -/
  cfgs : RegFile := []
  /-- The MSI-X tables in BAR4 (R157), by partition * 65536 + offset. -/
  msix : RegFile := []
  /-- BAR2 size of each partition in GiB, from the image (R157); 0 until loaded. -/
  bar2 : List Nat := []
  /-- Nanoseconds since the plinth received power. -/
  now : Nat := 0
  /-- Does the core clock run (R323)? -/
  coreOn : Bool := false
  /-- The time-stamp at `stampAt` (R323), or the saved value while the clock is stopped. -/
  stamp : Nat := 0
  stampAt : Nat := 0
  timers : List Timer := []
  storms : List Storm := []
  eqs : List EqRt := []
  pend : List PendMsg := []
  held : List Held := []
  /-- Upper words latched by a read of a counter's lower word (R61), by offset of the upper word. -/
  latches : RegFile := []
  /-- The lower counter word held under R316. -/
  cntHold : Option (Nat × W32) := none
  /-- Sample points of sampling counters, by offset of the count (R319). -/
  samples : List (Nat × Nat) := []
  commit : Option CommitRun := none
  /-- GUARD_COMMIT descriptors that wait for a running commit (R149): queue pair, cid and mask. -/
  commitWait : List (Nat × Nat × Nat) := []
  /-- Events raised in the present command, to be reported at its end in ascending order (R300). -/
  evq : List Ev := []
  /-- Ports released from containment whose link has not come up since (R219). -/
  released : List Nat := []
  /-- A fatal event was reported and its sequence (R298) has not been started. -/
  fatal : Bool := false
  /-- Register accesses that hang in a domain that is stopped, not initialised or in reset (R327): who, the offset, and
  whether it is a write. -/
  hung : List (Who × Nat × Bool) := []
  /-- Late responses that each master's interface has discarded (R126, R188), by the master's guard number. -/
  lates : List (Nat × Nat) := []
  /-- Counter of the model's free values. -/
  freeCtr : Nat := 0
  out : List Out := []
  deriving DecidableEq, Repr

/-- One copy of a frame that has yet to cross to an egress (R43): the frame, the egress crossbar port and port, and
how many of its cells have crossed. `doomed` marks a multicast copy whose member went down or was contained as it crossed (R56). -/
structure Xfer where
  frame : Nat
  eg : Nat
  sub : Nat
  sent : Nat := 0
  doomed : Bool := false
  deriving DecidableEq, Repr

/-- A frame copy waiting in an egress port's queues (R63). -/
structure EgItem where
  frame : Nat
  port : Nat
  order : Nat
  deriving DecidableEq, Repr

/-- An egress queue's scheduler state (R66, R70): deficit, turn open, next shaper time, and the wheel's due tick. -/
structure QueueSt where
  q : Nat
  deficit : Nat := 0
  opened : Bool := false
  tNext : Nat := 0
  due : Option Nat := none
  deriving DecidableEq, Repr

/-- A meter's token counts (R67), in 1/256 B. -/
structure MeterSt where
  m : Nat
  tc : Nat := 0
  tp : Nat := 0
  deriving DecidableEq, Repr

/-- Link credits of one port and virtual channel (R51): released and unused header and data credits, and those
consumed and not yet released again; `first` while the initial advertisement has not been released. -/
structure Credit where
  port : Nat
  vc : Nat
  hdrOut : Nat := 0
  dataOut : Nat := 0
  hdrPend : Nat := 0
  dataPend : Nat := 0
  first : Bool := false
  deriving DecidableEq, Repr

/-- The switch core and the egress scheduler. -/
structure Switch where
  /-- When each port went down or into L1 last (R246). -/
  idleAt : List (Nat × Nat) := []
  frames : List Frame := []
  xfers : List Xfer := []
  egress : List EgItem := []
  /-- Frames of internal sources that wait for admission (R52), oldest first. -/
  waiting : List Frame := []
  nextId : Nat := 0
  nextOrder : Nat := 0
  /-- Cells stored for each source and VC, by 3 * a + v (part of U of R48). -/
  stored : List (Nat × Nat) := []
  /-- Cells that hods have reserved for completions (R52, R113), by 3 * a + v. -/
  reserved : List (Nat × Nat) := []
  mirrorUse : Nat := 0
  /-- The committed minimums G, by 3 * a + v, and the committed mirror pool M (R48). -/
  gmin : List (Nat × Nat) := []
  gMirror : Nat := 0
  /-- Tile arbiter weight counters by port and pointers by tile (R42). -/
  wcount : List (Nat × Nat) := []
  tptr : List (Nat × Nat) := []
  /-- The VC each source last sent to each egress (R46): source, egress, vc. -/
  lastVc : List (Nat × Nat × Nat) := []
  /-- The hod of each group that sends next (R102). -/
  hodTurn : List (Nat × Nat) := []
  ptrReset : Bool := false
  credits : List Credit := []
  queues : List QueueSt := []
  dptr : List (Nat × Nat) := []
  meters : List MeterSt := []
  sampleCount : Nat := 0
  sampleGap : Nat := 0
  mirrorEvent : List (Nat × Nat) := []
  /-- Non-posted requests of hosts that a downstream port has forwarded and not yet seen completed (R217). -/
  forwarded : List (Nat × Frame) := []
  /-- The tick that meters, shapers and the wheel have reached. -/
  lastTick : Nat := 0
  deriving DecidableEq, Repr

/-- Park DRAM (R78): the bytes that differ from zero, by park address, addresses rising; and the numbers of the 8 B
words that are marked poisoned (R99, R299). -/
structure Dram where
  mem : List Host.Cell := []
  /-- Management memory (R141), bytes that differ from zero. -/
  mgmt : List Host.Cell := []
  poison : List Nat := []
  /-- Bursts each channel lost to uncorrectable errors, with the time (R385). -/
  lost : List (Nat × Nat) := []
  /-- Corrected errors of each channel in the present hour, whether its event was raised, and the hour (R386). -/
  ceHour : List (Nat × Nat) := []
  ceRaised : List Nat := []
  hour : Nat := 0
  deriving DecidableEq, Repr

/-- An open merge line of a host-ingress path (R128): its partition, line address, slice if any, the guard epoch, and
its 64 bytes with their valid mask. -/
structure MergeLine where
  part : Nat
  line : Nat
  slice : Option Nat
  epoch : Nat
  bytes : List (Option Byte)
  openedAt : Nat
  deriving DecidableEq, Repr

/-- A slice's reservation (R135, R137): the line it holds, or the cause for which it holds none. -/
structure Rsv where
  slice : Nat
  line : Option Nat := none
  cause : Nat := 1
  /-- The upper word that a 32-bit read of SLC_RSV_LR latched. -/
  latch : W32 := 0#32
  deriving DecidableEq, Repr

/-- Memory ordering in the windows: merge lines oldest first, and reservations. -/
structure Ordering where
  lines : List MergeLine := []
  rsvs : List Rsv := []
  deriving DecidableEq, Repr

/-- A fetch read of a turn (R168): its id, the slots it covers, and what came back. -/
structure FetchRead where
  id : Nat
  slot : Nat
  count : Nat
  result : Option Cpl := none
  deriving DecidableEq, Repr

/-- One turn of descriptor fetching for a queue pair (R168), with its reads in ring order. -/
structure FetchTurn where
  part : Nat
  gqp : Nat
  slice : Nat
  gen : Nat
  start : Nat
  reads : List FetchRead
  deriving DecidableEq, Repr

/-- Where a fetched descriptor is in its life. -/
inductive DescPhase where
  | queued
  | running
  | waiting
  | done
  deriving DecidableEq, Repr

/-- A fetched descriptor with stages still to post, or one held for a fence (R162). `id` rises in fetch order; `first`
and `last` are the statuses of the stages posted. -/
structure Desc where
  id : Nat
  gqp : Nat
  slice : Nat
  gen : Nat
  raw : List Byte
  /-- The ring slot it was fetched from (R193, R308). -/
  slot : Nat := 0
  phase : DescPhase := .queued
  slots : Nat := 2
  first : Option Nat := none
  last : Option Nat := none
  covered : List Nat := []
  /-- Found MALFORMED at decode (R166), and not yet completed. -/
  bad : Bool := false
  /-- The status of a first stage that has been decided, posted or still held (R179). -/
  decided : Option Nat := none
  /-- The shelf state sampled once, at fetch (R25, R26): were the shelves that the descriptor names awake, and had the shelf of a park
  descriptor live entries? -/
  awake : Bool := false
  live : Bool := false
  deriving DecidableEq, Repr

/-- What the queue engine keeps of a queue pair beside its registers (R161, R172, R177). -/
structure QpRt where
  gqp : Nat
  tail : Nat := 0
  cqHead : Nat := 0
  phase : Bool := true
  reserved : Nat := 0
  unsignalled : Nat := 0
  deriving DecidableEq, Repr

/-- A fence that waits (R132, R134): a FENCE descriptor, or a slice's fence register; the descriptors it still waits
for, the wait level, and the first failing descriptor so far (id, status, cid). -/
structure FenceRun where
  desc : Option Nat
  slice : Nat
  gqp : Option Nat
  covered : List Nat
  final : Bool
  failed : List (Nat × Nat × Nat) := []
  deriving DecidableEq, Repr

/-- The queue engines. -/
structure Queues where
  qps : List QpRt := []
  turns : List FetchTurn := []
  descs : List Desc := []
  fences : List FenceRun := []
  heldCpls : List HeldCpl := []
  nextDesc : Nat := 0
  nextFetch : Nat := 0
  /-- Round-robin pointer of each partition's queue engine: the global number served last (R168). -/
  served : List (Nat × Nat) := []
  /-- Descriptors that a recovery of the engine discarded (R308), which keep their place in fetch order: queue pair, slot, id. -/
  lost : List (Nat × Nat × Nat) := []
  /-- Doorbells recorded while a slice freezes or is frozen (R191): slice, register (0 + q SQ, 64 + q CQ, 128 EQ),
  value. -/
  recorded : List (Nat × Nat × Nat) := []
  /-- Slices whose blob has been saved since they froze (R191). -/
  saved : List Nat := []
  /-- Queue engines that watchdogs have recovered, with the time of each, and those held (R309). -/
  recovered : List (Nat × Nat) := []
  engineHeld : List Nat := []
  deriving DecidableEq, Repr

/-- One side of a running hod job (R109, R110): its space and port, the next byte and the bytes left of the present
buffer, the next list entry, and whether the list's last entry was met. -/
structure HodSide where
  space : Nat
  sg : Bool
  port : Nat
  cur : Nat
  left : Nat
  list : Nat
  eol : Bool := false
  fault : Option Nat := none
  /-- The attributes of the present list entry (R110). -/
  ro : Bool := false
  ns : Bool := false
  deriving DecidableEq, Repr

/-- A read of a running job (R112): of the destination side or not, a list fetch or data, its address, length and
attributes, and its bytes once they are in; `flush` is the read of R114. `cells` are still reserved for it, at the CPL count of port `ret`;
`arrived` counts the bytes whose completions have come, `got` holds those that the hod has (R113). -/
structure HodRead where
  id : Nat
  dest : Bool := false
  list : Bool := false
  flush : Bool := false
  addr : Nat
  len : Nat
  cells : Nat := 0
  data : Option (List Byte) := none
  ro : Bool := false
  ns : Bool := false
  ret : Nat := 0
  arrived : Nat := 0
  got : List Byte := []
  deriving DecidableEq, Repr

/-- The run of a channel (R105): whose it is, where each side stands, the reads in job order, the bytes that are in and
not yet written, and the failed requests that wait for the retry gap. -/
structure HodRun where
  h : Nat
  c : Nat
  slice : Nat
  gen : Nat
  part : Option Nat
  mgmt : Bool
  desc : Option Nat
  count : Nat
  src : HodSide
  dst : HodSide
  asked : Nat := 0
  written : Nat := 0
  lastAddr : Nat := 0
  reads : List HodRead := []
  buf : List Byte := []
  failed : List HodRead := []
  /-- Failed requests whose gap has passed, to be issued again before anything else (R116). -/
  redo : List HodRead := []
  waiting : Bool := false
  flushing : Bool := false
  deriving DecidableEq, Repr

/-- A latched start (R106): the channel, whether the management cores stand at the head of its chain, and the
descriptor it runs for. -/
structure HodStart where
  h : Nat
  c : Nat
  mgmt : Bool
  desc : Option Nat
  deriving DecidableEq, Repr

/-- A job that the queue engine has made from a descriptor and will hand to a channel (R104): the shadow words. -/
structure HodJob where
  h : Nat
  c : Nat
  desc : Nat
  slice : Nat
  src : Nat
  dst : Nat
  count : Nat
  space : Nat
  pasid : Nat
  job : Nat
  tag : Nat
  deriving DecidableEq, Repr

/-- The hods: runs, latched starts in the order latched, jobs waiting for their channel, and the M2 hold (R121). -/
structure Hods where
  runs : List HodRun := []
  starts : List HodStart := []
  jobs : List HodJob := []
  nextRead : Nat := 0
  m2hold : Bool := false
  deriving DecidableEq, Repr

/-- A park entry (R80) with what its engine keeps of it: its granules as runs, its descriptor while one waits for it,
its original owner once it is kept or re-owned (R100, R101), the bytes asked for, stored and delivered, the pieces read
and not yet written on, and its state before the sweep. -/
structure Entry where
  idx : Nat
  state : Nat
  cls : Nat
  release : Bool
  read : Bool
  double : Bool := false
  evicted : Bool := false
  shelf : Nat
  status : Nat := 0
  detail : Nat := 0
  slice : Nat
  gen : Nat
  hostAddr : Nat
  pasid : Nat
  length : Nat
  shelfAddr : Nat
  grans : List (Nat × Nat) := []
  seq : Nat
  parkTime : Nat
  bornNs : Nat := 0
  qp : Nat
  cid : Nat
  entryNo : Nat
  entryLast : Nat
  desc : Option Nat
  kept : Option (Nat × Nat) := none
  part : Nat := 0
  prior : Nat := 0
  asked : Nat := 0
  stored : Nat := 0
  sent : Nat := 0
  pieces : List (Nat × List Byte) := []
  buf : List Byte := []
  flushing : Bool := false
  refetch : Bool := false
  awaitPeer : Bool := false
  /-- The member that owns the entry's shelf, when it is another one (R32). -/
  remoteTo : Option Nat := none
  /-- The member and entry index that this module holds the entry for, as owner of its shelf (R32, R292). -/
  remote : Option (Nat × Nat) := none
  /-- The member and entry index whose frames still bring this entry's data (R32, R292). -/
  source : Option (Nat × Nat) := none
  /-- Ingested pieces, offset and length, that the copy to the partner has not come to yet; the bytes copied; no copy is (any longer)
  made (R97). -/
  got : List (Nat × Nat) := []
  copied : Nat := 0
  noCopy : Bool := false
  /-- The final status that the owner of the shelf has reported for a park read whose host writes are still to be flushed (R32). -/
  far : Option Nat := none
  /-- A warm reset has kept the entry (R100): the member and entry index that it was held for, or 4096 and its own index (R292). -/
  keptFor : Option (Nat × Nat) := none
  deriving DecidableEq, Repr

/-- A shelf slot (R93, R94) beside its state register: the sideband lines, the ledger charge, the plan's records and
the next shelf sequence. -/
structure Slot where
  n : Nat
  pwrreq : Bool := false
  pg : Bool := false
  perst : Bool := true
  alert : Bool := false
  charge : Nat := 0
  since : Nat := 0
  keepSince : Option Nat := none
  wakeNow : Bool := false
  sweeping : Bool := false
  paused : Bool := false
  idleFrom : Nat := 0
  failing : Bool := false
  removed : Bool := false
  needBad : Bool := false
  nextSeq : Nat := 0
  deriving DecidableEq, Repr

/-- An admission that waits for granules or entries (R81). -/
structure AdmWait where
  desc : Nat
  k : Nat
  g : Nat
  deriving DecidableEq, Repr

/-- A guest copy (R97): the owner's path, entry index, class, release bit and shelf sequence, its granules, bytes
stored, and its 64 B entry for a hand-back; `orphan` once its owner is lost, `sent` while it is being handed back (R292). -/
structure Guest where
  owner : Nat
  idx : Nat
  cls : Nat
  release : Bool
  shelf : Nat
  seq : Nat
  grans : List (Nat × Nat)
  length : Nat
  stored : Nat := 0
  raw : List Byte
  orphan : Bool := false
  sent : Bool := false
  deriving DecidableEq, Repr

/-- The park store. -/
structure Park where
  entries : List Entry := []
  slots : List Slot := []
  waits : List AdmWait := []
  guests : List Guest := []
  /-- An event that runs the wake plan came about in this command (R91). -/
  planDue : Bool := false
  deriving DecidableEq, Repr

/-- A slice on its way to rest (R190, R192, R193): why (0 quiesce, 1 freeze, 2 fault, 3 the reset of its partition), the
SLICE_CTL that asked, and whether the slice's entries have been handled. -/
structure SliceRun where
  slice : Nat
  kind : Nat
  desc : Option Nat := none
  handled : Bool := false
  discarded : Nat := 0
  deriving DecidableEq, Repr

/-- A SAVE or RESTORE whose blob access is out (R194, R196): its descriptor, slot, the blob's address, and the bytes read
so far. -/
structure BlobRun where
  desc : Nat
  slice : Nat
  save : Bool
  addr : Nat
  data : List Byte := []
  deriving DecidableEq, Repr

/-- Slice management: slices coming to rest, the blob access, the SCRUB that runs, and the hod whose turn it is to give a
channel (R183). -/
structure Slices where
  runs : List SliceRun := []
  blob : Option BlobRun := none
  scrub : Option (Nat × Nat) := none
  turn : Nat := 0
  deriving DecidableEq, Repr

/-- A tag of a port in use for one of the module's own reads, or in quarantine (R210) with the reason a late completion
would be logged under (R213). -/
structure TagUse where
  port : Nat
  tag : Nat
  owner : Option TagOwner
  len : Nat := 0
  reason : Nat := 0
  /-- The bytes that completions of a split read have brought so far. -/
  got : List Byte := []
  /-- Data bytes of its completions that its port has seen, and whether it has seen the last of them: some may still cross the core (R37). -/
  seenBytes : Nat := 0
  seen : Bool := false
  deriving DecidableEq, Repr

/-- A lane's margining (R245): its error limit, and at 64 GT/s the sub-eye that the command under way margins. -/
structure Margin where
  lane : Nat
  limit : Nat := 4
  sub : Option Nat := none
  deriving DecidableEq, Repr

/-- A pattern checker (R243): the last bits received, how many it has seeded itself with, the bits without an error since, and in lock the
bits checked and the errors among the present 65,536. -/
structure Checker where
  hist : BitVec 64 := 0#64
  seeded : Nat := 0
  good : Nat := 0
  bits : Nat := 0
  errs : Nat := 0
  deriving DecidableEq, Repr

/-- A lane beside its registers: when its adaptation began (R238), whether its transmitter and its partner's precode (R228), whether it is
a Loopback slave (R244), what its pattern generator sent last and how much, and its checker (R243). -/
structure LaneRt where
  lane : Nat
  adaptAt : Option Nat := none
  txPrecode : Bool := false
  rxPrecode : Bool := false
  slave : Bool := false
  gen : BitVec 64 := BitVec.allOnes 64
  sent : Nat := 0
  chk : Checker := {}
  deriving DecidableEq, Repr

/-- A block that a Camtex lane has received in service, until the flit or the AM slot that it belongs to is taken: its sync header, its
payload after the scrambler, whether it goes to the link layer marked bad, whether it stands in an AM slot, and there the lane's parity as
computed since the last (R229-R232, R249). -/
structure RxBlock where
  header : BitVec 2
  payload : BitVec 64
  bad : Bool := false
  am : Bool := false
  parity : BitVec 8 := 0#8
  deriving DecidableEq, Repr

/-- The line coding of one Camtex lane (R229-R233, R248, R249): both scrambler histories, the message bits that wait for a whole codeword
or a whole block, the places in the period between AMs, both parities, the blocks received, and which of the last 64 blocks of correctable
codewords had an invalid header. -/
structure LaneCode where
  txHist : BitVec 58 := BitVec.allOnes 58
  txMsg : Nat := 0
  txLen : Nat := 0
  txPos : Nat := 0
  txParity : BitVec 8 := 0#8
  rxHist : BitVec 58 := BitVec.allOnes 58
  rxMsg : Nat := 0
  rxLen : Nat := 0
  rxBad : Bool := false
  rxPos : Nat := 0
  rxParity : BitVec 8 := 0#8
  blocks : List RxBlock := []
  invalid : List Bool := []
  deriving DecidableEq, Repr

/-- The tuning of a partner's transmitter on one lane (R266): the tap (0 post, 1 pre) and direction tried, whether it has
moved, the best quick index, the request that stands, and what is waited for: 0 the first index, 1 an answer, 2 the settle
after it, 3 the answer to a step back, 4 the settle after that, 5 nothing, tuning is done. -/
structure Tuner where
  tap : Nat := 0
  dec : Bool := false
  moved : Bool := false
  best : Nat := 0
  req : Nat := 0
  sts : Nat := 0
  phase : Nat := 0
  deriving DecidableEq, Repr

/-- What a Camtex port keeps of one physical lane: the valid headers in a row and block lock (R264), the parts of a record received in order
(R263) and the last valid record, the answers it gives to the partner's requests, the record it sends, its tuner, the AM history of R250, and
its line coding. -/
structure CamLane where
  lane : Nat
  valid : Nat := 0
  lock : Bool := false
  inverted : Bool := false
  parts : List (List Byte) := []
  record : List Byte := []
  preSts : Nat := 0
  postSts : Nat := 0
  tuner : Tuner := {}
  logical : Nat := 15
  sent : List Byte := []
  missing : Nat := 0
  misses : List Nat := []
  code : LaneCode := {}
  deriving DecidableEq, Repr

/-- A flit held for replay (R258). -/
structure HeldFlit where
  seq : Nat
  seg : Segment
  deriving DecidableEq, Repr

/-- A Camtex port beside its registers: its lanes, the segments handed to it, the replay buffer and the next flit of a
replay, the timer expiries of R261, the counts and limits of R257 (request, response), the flags of training, whether it sends flits (R264 step 7), when
it entered RESET, the lanes that its training takes (`used`, R265), the logical lanes that the next block goes to and comes from
(R248), and what sleep it deals with: `partnerAsleep` (R268), `sleeping` its own, `waking` 1 while it sends the
wake pattern, 2 while it waits for the sleeper's signal (R284). -/
structure CamPort where
  k : Nat
  lanes : List CamLane := []
  tx : List Segment := []
  held : List HeldFlit := []
  replay : Option Nat := none
  expiries : Nat := 0
  ccReq : Nat := 0
  ccRsp : Nat := 0
  clReq : Nat := 0
  clRsp : Nat := 0
  accReq : Nat := 0
  accRsp : Nat := 0
  tuneDone : Bool := false
  lead : Bool := false
  go : Bool := false
  reversed : Bool := false
  width : Nat := 0
  active : Nat := 0
  running : Bool := false
  resetAt : Nat := 0
  txLane : Nat := 0
  rxLane : Nat := 0
  partnerAsleep : Bool := false
  sleeping : Bool := false
  waking : Nat := 0
  used : Nat := 255
  deriving DecidableEq, Repr

/-- A segment in the hold buffer (R273): when it was first sent, and the frame it is part of. -/
structure HeldSeg where
  seg : Segment
  sentAt : Option Nat := none
  msg : BondMsg
  deriving DecidableEq, Repr

/-- An outbound stream (R272, R276-R278): its state as BND_STREAM_DATA encodes it, the next sequence, the pinned port, the
one it lost where no route gave another, the held segments oldest first, and the frames that the bond logic holds for it (R54). -/
structure OutStream where
  path : Nat
  cls : SegClass
  state : Nat := 0
  next : Nat := 0
  port : Option Nat := none
  old : Option Nat := none
  held : List HeldSeg := []
  queue : List BondMsg := []
  deriving DecidableEq, Repr

/-- An inbound stream (R272, R274, R275): e, segments accepted since the last CACK, the frame being rebuilt with its first
segment, and the cells its segments are charged. -/
structure InStream where
  path : Nat
  cls : SegClass
  synced : Bool := false
  e : Nat := 0
  since : Nat := 0
  first : Option Segment := none
  data : List Byte := []
  cells : List (Nat × Nat) := []
  deriving DecidableEq, Repr

/-- What this module knows of the election at a level (R280): the best key of the collection or the key it follows, priority,
serial and path; and the newest term heard. -/
structure Elect where
  level : Nat
  prio : Nat := 0
  serial : Nat := 0
  path : Nat := 0
  heard : Nat := 0
  deriving DecidableEq, Repr

/-- A member module as the keystone has heard it (R281): the level, heartbeats since its last acknowledgement, its ports, the
entries it says it kept, the modules it holds segments or frames for, and the routes last written to it. -/
structure Member where
  level : Nat
  path : Nat
  misses : Nat := 0
  ports : List PortReport := []
  kept : List Nat := []
  busy : Option (List Nat) := some []
  routes : List (Nat × Nat) := []
  deriving DecidableEq, Repr

/-- A writer's staging copy of one routing-table entry (R293). -/
structure RtStage where
  who : Who
  entry : Nat
  words : List (Nat × W32) := []
  deriving DecidableEq, Repr

/-- A lend that the keystone has carried out (R285): the bus it assigned, the ports it named at the owner and the borrower, the
requester IDs of the borrower's host and of the shelf there, and the routing entries it made at the owner and the borrower. -/
structure Lend where
  req : LendReq
  bus : Nat := 0
  port : Nat := 0
  up : Nat := 0
  host : Nat := 0
  shelf : Nat := 0
  ownerEntries : List Nat := []
  borrowerEntries : List Nat := []
  ending : Bool := false
  deriving DecidableEq, Repr

/-- The bond logic. -/
structure Bond where
  outs : List OutStream := []
  ins : List InStream := []
  /-- What engines handed over and no route can take yet. -/
  wait : List BondMsg := []
  elects : List Elect := []
  members : List Member := []
  rtStage : List RtStage := []
  lends : List Lend := []
  /-- Slots of this module that wait for hand-back, with the holder that hands back (R292 step 3). -/
  awaitBack : List (Nat × Nat) := []
  /-- Ports that a hand-back has contained (R292 step 3). -/
  backPorts : List Nat := []
  /-- The modules that a route led to at the end of the last command (R278). -/
  reach : List Nat := []
  /-- Lend requests that the keystone has taken and not begun, and those this module has sent and not seen answered. -/
  lendWait : List LendReq := []
  asks : List LendReq := []
  /-- Sleeping modules for which a WAKE_REQ has gone out (R284). -/
  woke : List Nat := []
  /-- Does this module ask to enter M2 (R281)? -/
  m2ask : Bool := false
  deriving DecidableEq, Repr

/-- A dip of the input (R348): its lowest sample in 2 mV, its first sample below warn_dv, the first sample of the 50 ms
wait that runs, and whether it entered the brown zone. -/
structure Dip where
  minV : Nat
  since : Nat
  wait : Option Nat := none
  brown : Bool := false
  deriving DecidableEq, Repr

/-- A front cage (R366): ModPrsL, and whether ResetL is released. -/
structure Cage where
  c : Nat
  present : Bool := false
  released : Bool := false
  /-- Turned off by R357 until PWR_CAGE.en is written 1 again. -/
  tripped : Bool := false
  deriving DecidableEq, Repr

/-- An image update that runs (R334, R369): its type, its length in KiB, the bytes of the file that have come, and whether they come over
SMBus or from host memory. -/
structure ImgRun where
  kind : Nat
  len : Nat
  got : Nat := 0
  smbus : Bool
  deriving DecidableEq, Repr

/-- A take-down on its way to a reset (R298, R329), to M3 under R343 (`off` 1) or at a critical temperature (`off` 2): is
the reset cold, its cause code, and whether a fatal event started it. -/
structure TakeDown where
  cold : Bool := false
  cause : Nat
  off : Nat := 0
  fatal : Bool := false
  /-- Have the links gone down and SHELF_PERST_n# asserted (step 3)? -/
  down : Bool := false
  deriving DecidableEq, Repr

/-- What the plinth holds beside the PWR registers (R321, R344-R360), and what the boot and the recovery of units keep
(R308, R332): none of it is lost at a reset of the switch die but `cores` and what follows it. -/
structure Plinth where
  /-- Does the plinth have power (R344)? -/
  powered : Bool := true
  /-- Is the switch die powered and out of reset (R332 step 1)? -/
  dieOn : Bool := false
  /-- Non-volatile: the lifecycle state (modules ship in FIELD), the transition committed (R339), the calibration set that
  this module has read or saved, whether it is the factory set, and the active slots (R333). -/
  lc : Nat := 2
  lcNext : Option Nat := none
  cal : CalLoad := { good := true }
  calSaved : Bool := false
  fwAct : Nat := 0
  imgAct : Nat := 0
  /-- Non-volatile: the energy saved at AUX_LOW_SAVE (R360). -/
  energySaved : Nat := 0
  /-- The target that a loaded lifecycle token names (R338). -/
  token : Option Nat := none
  /-- The calibration copy being made (R335). -/
  calCopy : List (Nat × W32) := []
  img : Option ImgRun := none
  take : Option TakeDown := none
  /-- When the last warm reset that a fatal event caused ended (R298), and the cold resets of the 10 s rule (R330). -/
  lastFatal : Option Nat := none
  escalations : List Nat := []
  /-- The boot that runs: its start, its kind, whether it keeps park DRAM, and the cause of the next cold boot. -/
  bootAt : Nat := 0
  warm : Bool := false
  keep : Bool := false
  cause : Nat := 0
  /-- The register words of the image in force, for the reloads of R331. -/
  image : List (Nat × W32) := []
  /-- The image enables park-hold (R33). -/
  parkHold : Bool := false
  /-- HOST_PERST_k# inputs that are deasserted (R365); the shelf sideband lines are in `Park.slots`. -/
  hostReset : List Nat := []
  /-- HOST_CLKREQ_k# signals that the module pulls low (R222). -/
  clkReq : List Nat := []
  /-- M2 (R341): 0 awake, 1 entering since `m2At`, 2 asleep; the cause of a wake that the entry ends with. -/
  m2 : Nat := 0
  m2At : Nat := 0
  m2Wake : Option Nat := none
  /-- The insertion debounce and the input qualification of R349 have run to their ends. -/
  debounced : Bool := false
  qualified : Bool := false
  dip : Option Dip := none
  /-- A dip that ended in a supply reset at `wait`, whose event waits for READY (R348). -/
  dipEvent : Option Dip := none
  /-- What the fault timer has counted, in ns, and since when the limit is active (R352). -/
  faultAcc : Nat := 0
  limitSince : Option Nat := none
  tempWarnAt : Option Nat := none
  cages : List Cage := []
  /-- The offset that REG_ADDR set (R369). -/
  smbAddr : Nat := 0
  /-- The debug master is open, and the preloaded boundary-scan cells (R372). -/
  debugOpen : Bool := false
  preload : List Bool := []
  /-- Management cores and park engines that watchdogs have recovered, with the time of each, and those held (R309). -/
  cores : List (Nat × Nat) := []
  coreHeld : List Nat := []
  parkRec : List (Nat × Nat) := []
  parkHeld : List Nat := []
  deriving DecidableEq, Repr

/-- The module without its queue of waiting commands. -/
structure Mod where
  tags : List TagUse := []
  base : Base := {}
  sw : Switch := {}
  dram : Dram := {}
  ord : Ordering := {}
  qe : Queues := {}
  hod : Hods := {}
  prk : Park := {}
  slc : Slices := {}
  margins : List Margin := []
  /-- What each lane keeps beside its registers (R228, R238, R243, R244). -/
  lanes : List LaneRt := []
  cams : List CamPort := []
  bnd : Bond := {}
  pl : Plinth := {}
  /-- Segments and messages that the engines hand to the bond logic in this command. -/
  bondOut : List BondMsg := []
  /-- Register writes of the keystone function that have arrived in this command (R139, R282). -/
  regIn : List (Who × Nat × W32) := []
  /-- Accesses of another module's keystone agent to the control window that have arrived in this command: port, segment and request. -/
  regAsk : List (Nat × Segment × Tlp) := []
  /-- Those that hang (R327), for their answers. -/
  regHung : List (Nat × Segment × Tlp) := []
  /-- Reads that have ended in this command, to be handled by their owners: completions that have crossed the core to them (R37), and
  reads that the module ended itself (R217). -/
  ended : List (TagOwner × Cpl) := []
  /-- Ports whose presence, containment or slot state changed in this command (R214). -/
  dirty : List Nat := []
  deriving DecidableEq, Repr

/-- The state: the commands that wait, first in first out, and the module. -/
structure State where
  pending : List Instr := []
  mod : Mod := {}
  deriving DecidableEq, Repr

/-- The state when the plinth first receives power (R321, R328, R344): every register at its reset value, nothing
queued, nothing timed, every clock stopped. -/
def State.reset : State := { mod := { base := { regs := [(Reg.GLB_PRODUCT_ID, 0x25600101#32)] } } }

end Sys2Proof.Machine
end

