-- ==== Sys2Proof/Machine/Ops.lean ====
section
/-! DEFINITION. The named operations over registers, time, timers, counters, events, guards, interrupts and
configuration space. Each works on `Base` alone, so that an engine's own state is untouched by them. -/

namespace Sys2Proof.Machine

/-! ### Sparse tables -/

/-- Look a key up in a sparse table; an unlisted key holds 0. -/
def tget (l : List (Nat × Nat)) (k : Nat) : Nat := (l.lookup k).getD 0

/-- Set a key of a sparse table. -/
def tset (l : List (Nat × Nat)) (k v : Nat) : List (Nat × Nat) := (k, v) :: l.filter (fun x => x.1 != k)

/-! ### Bit fields and byte order (R12) -/

/-- Field `f` of a value. -/
def bits (v : Nat) (f : Fld) : Nat := v / 2 ^ f.lo % 2 ^ f.w

/-- A value with field `f` replaced by `x`. -/
def putBits (v : Nat) (f : Fld) (x : Nat) : Nat := v - bits v f * 2 ^ f.lo + x % 2 ^ f.w * 2 ^ f.lo

/-- The little-endian number in a list of bytes. -/
def leNat : List Byte → Nat
  | [] => 0
  | b :: bs => b.toNat + 256 * leNat bs

/-- The `n` little-endian bytes of a number. -/
def leBytes : Nat → Nat → List Byte
  | 0, _ => []
  | n + 1, v => BitVec.ofNat 8 v :: leBytes n (v / 256)

/-- `n` bytes at an offset of a byte list, as a number. -/
def fieldAt (bs : List Byte) (off n : Nat) : Nat := leNat ((bs.drop off).take n)

/-- Is the flag bit `i` of a number set? -/
def bitOf (v i : Nat) : Bool := v / 2 ^ i % 2 == 1

/-- A Bool as one bit. -/
def b2n (b : Bool) : Nat := if b then 1 else 0

/-! ### The register file -/

/-- The word at a BAR0 offset: what was last put there, or the reset value (R17). -/
def RegFile.get (r : RegFile) (a : Nat) : W32 :=
  match r.lookup a with
  | some v => v
  | none => regReset a

/-- The word of a file whose unlisted words are 0. -/
def RegFile.get0 (r : RegFile) (a : Nat) : W32 := (r.lookup a).getD 0#32

/-- Put a word, keeping offsets in rising order. -/
def RegFile.set : RegFile → Nat → W32 → RegFile
  | [], a, v => [(a, v)]
  | (b, w) :: t, a, v =>
    if a = b then (a, v) :: t
    else if a < b then (a, v) :: (b, w) :: t
    else (b, w) :: RegFile.set t a v

/-- The 32-bit word of a register. -/
def Base.word (b : Base) (a : Nat) : W32 := b.regs.get a

/-- Put the 32-bit word of a register. -/
def Base.setWord (b : Base) (a : Nat) (v : W32) : Base := { b with regs := b.regs.set a v }

/-- A 64-bit register's value: the lower offset holds the lower word (R383). -/
def Base.word64 (b : Base) (a : Nat) : Nat := (b.word a).toNat + 2 ^ 32 * (b.word (a + 4)).toNat

/-- Put both words of a 64-bit register. -/
def Base.setWord64 (b : Base) (a v : Nat) : Base :=
  (b.setWord a (BitVec.ofNat 32 v)).setWord (a + 4) (BitVec.ofNat 32 (v / 2 ^ 32))

/-- Read a field of the register at `a`. -/
def Base.rd (b : Base) (a : Nat) (f : Fld) : Nat :=
  if f.lo + f.w ≤ 32 then bits (b.word a).toNat f
  else if 32 ≤ f.lo then bits (b.word (a + 4)).toNat ⟨f.lo - 32, f.w⟩
  else bits (b.word64 a) f

/-- Write a field of the register at `a`; no other field of it changes. -/
def Base.wr (b : Base) (a : Nat) (f : Fld) (v : Nat) : Base :=
  if f.lo + f.w ≤ 32 then b.setWord a (BitVec.ofNat 32 (putBits (b.word a).toNat f v))
  else if 32 ≤ f.lo then b.setWord (a + 4) (BitVec.ofNat 32 (putBits (b.word (a + 4)).toNat ⟨f.lo - 32, f.w⟩ v))
  else b.setWord64 a (putBits (b.word64 a) f v)

/-- Set a flag field to a Bool. -/
def Base.flag (b : Base) (a : Nat) (f : Fld) (v : Bool) : Base := b.wr a f (b2n v)

/-- Is a one-bit field 1? -/
def Base.isSet (b : Base) (a : Nat) (f : Fld) : Bool := b.rd a f == 1

/-! ### Emissions and free values -/

/-- Something leaves the module. -/
def Base.emit (b : Base) (o : Out) : Base := { b with out := b.out ++ [o] }

/-- Take the next free value: its number, and the state with the counter advanced. -/
def Base.fresh (b : Base) : Nat × Base := (b.freeCtr, { b with freeCtr := b.freeCtr + 1 })

/-! ### Time (R321-R323) -/

/-- The time-of-day count of R322. -/
def Base.tod (b : Base) : Nat := b.now * 32768 / 1000000000

/-- The time-of-day seconds of R322. -/
def Base.todSec (b : Base) : Nat := b.tod / 32768

/-- The nanosecond time-stamp of R323. -/
def Base.ns (b : Base) : Nat := if b.coreOn then b.stamp + (b.now - b.stampAt) else b.stamp

/-- The tick of R67: the time-stamp divided by 64. -/
def Base.tick (b : Base) : Nat := b.ns / 64

/-- Bits [41:10] of the time-stamp, the ts of R169 and R173. -/
def Base.ts (b : Base) : Nat := b.ns / 1024 % 2 ^ 32

/-- The core clock starts: the time-stamp takes the larger value of R323. -/
def Base.startCore (b : Base) : Base :=
  if b.coreOn then b
  else { b with coreOn := true, stamp := max (b.stamp + 1) (b.tod * 1000000000 / 32768), stampAt := b.now }

/-- The core clock stops: its value is saved (R323). -/
def Base.stopCore (b : Base) : Base := { b with stamp := b.ns, coreOn := false, stampAt := b.now }

/-- A reset saves the time-stamp and starts it again under R323. -/
def Base.restartCore (b : Base) : Base := b.stopCore.startCore

/-! ### Timers (R306) -/

/-- When an armed timer ends. -/
def Base.due (b : Base) (k : TimerKey) : Option Nat := (b.timers.find? (fun t => t.key == k)).map Timer.due

/-- Is the timer armed? -/
def Base.armed (b : Base) (k : TimerKey) : Bool := (b.due k).isSome

/-- Stop a timer. -/
def Base.disarm (b : Base) (k : TimerKey) : Base := { b with timers := b.timers.filter (fun t => t.key != k) }

/-- Start or restart a timer `ns` from now. -/
def Base.arm (b : Base) (k : TimerKey) (ns : Nat) : Base :=
  { b with timers := b.timers.filter (fun t => t.key != k) ++ [⟨k, b.now + ns⟩] }

/-- Start a timer that does not run yet. -/
def Base.armIfIdle (b : Base) (k : TimerKey) (ns : Nat) : Base := if b.armed k then b else b.arm k ns

/-- Stop every timer that a test picks out. -/
def Base.disarmAll (b : Base) (p : TimerKey → Bool) : Base :=
  { b with timers := b.timers.filter (fun t => !p t.key) }

/-- One microsecond, one millisecond and one second in ns. -/
def us : Nat := 1000
def ms : Nat := 1000000
def sec : Nat := 1000000000

/-! ### Events are raised (R300); `Base.flush` below reports them at the end of the command -/

/-- Does each bit of the group stand for one cause, whose code is then the bit's number (R303)? -/
def onePerCause (g : Nat) : Bool := [0, 1, 2, 3, 4, 5, 12, 17].contains g

/-- A source raises an event. -/
def Base.raise (b : Base) (e : Ev) : Base :=
  { b with evq := b.evq ++ [if onePerCause e.group then { e with cause := e.bit } else e] }

/-- A late response or item of a master, by its guard number, is discarded (R126, R188): counted, and event 0:8 carries two words of its
header (DESIGN CHOICE, log entry 41: the rules name no log of their own). -/
def Base.late (b : Base) (master w0 w1 : Nat) : Base :=
  ({ b with lates := tset b.lates master (tget b.lates master + 1) } : Base).raise
    { group := 0, bit := 8, detail := w0 % 2 ^ 32, detail2 := w1 % 2 ^ 32 }

/-- The group and bit of slot n in groups 6 and 7 (R303). -/
def slotEv (n cause sev : Nat) : Ev := { group := 6 + n / 32, bit := n % 32, cause := cause, sev := sev }

/-- The group and bit of guard g in groups 14 and 15 (R303). -/
def guardEv (g cause sev s : Nat) : Ev :=
  { group := 14 + g / 32, bit := g % 32, cause := cause, sev := sev, scope := .slice s }

/-- The register or doorbell misuse event of partition p (group 16, bits 24-31). -/
def misuseEv (p : Nat) : Ev := { group := 16, bit := 24 + p, scope := .part p }

/-! ### Counters (R61, R316, R317) -/

/-- The wrap event of the counter at `a` (R61): the source R303 lists for its block, if any. -/
def wrapEvent (a : Nat) : Option Ev :=
  if 0x1000000 ≤ a ∧ a < 0x1400000 then some { group := 3, bit := 9 }
  else if 0x1400000 ≤ a ∧ a < 0x1800000 then some { group := 4, bit := 0 }
  else if 0x1800000 ≤ a ∧ a < 0x1C00000 then some { group := 5, bit := 7 }
  else if 0x1C00000 ≤ a ∧ a < 0x2000000 then some { group := 13, bit := (a - 0x1C00000) / 0x10000, cause := 3 }
  else if 0x2C00000 ≤ a ∧ a < 0x3000000 then some { group := 12, bit := 10 }
  else if 0x200000 ≤ a ∧ a < 0x300000 then some { group := 4, bit := 1 }
  else none

/-- A counter's count passes 2^48 - 1 or not (R317): the count wraps to the remainder and ovf is set. -/
def Base.addCount (b : Base) (a n : Nat) (ev : Option Ev) : Base :=
  let c := b.rd a F.CNT_count + n
  let b := b.wr a F.CNT_count (c % 2 ^ 48)
  if c < 2 ^ 48 then b
  else
    let b := b.wr a F.CNT_ovf 1
    match ev with
    | some e => b.raise e
    | none => b

/-- Count `n` in a fixed-purpose counter. -/
def Base.bumpBy (b : Base) (a n : Nat) : Base := b.addCount a n (wrapEvent a)

/-- Count one in a fixed-purpose counter. -/
def Base.bump (b : Base) (a : Nat) : Base := b.bumpBy a 1

/-- The event table of R313: how many instances the event has (0: none), and whether it is attributable to a
slice. -/
def pmcEvent (e : Nat) : Option (Nat × Bool) :=
  match e with
  | 0x000 | 0x001 => some (0, false)
  | 0x040 => some (41, false)
  | 0x041 => some (42, false)
  | 0x042 | 0x043 => some (41, false)
  | 0x044 | 0x045 => some (0, false)
  | 0x080 | 0x081 => some (73, false)
  | 0x082 => some (0, false)
  | 0x0C0 | 0x0C1 | 0x0C2 | 0x0C3 | 0x0C4 => some (64, false)
  | 0x100 | 0x101 | 0x102 | 0x103 | 0x104 => some (4, true)
  | 0x105 | 0x106 => some (56, false)
  | 0x140 | 0x141 | 0x142 | 0x143 => some (16, true)
  | 0x180 | 0x181 => some (41, true)
  | 0x1C0 | 0x1C1 | 0x1C2 | 0x1C3 | 0x1C4 => some (8, true)
  | 0x200 | 0x201 | 0x202 | 0x203 => some (64, false)
  | 0x240 | 0x241 => some (32, false)
  | 0x280 | 0x281 | 0x282 => some (8, false)
  | 0x2C0 | 0x2C1 | 0x2C2 => some (0, false)
  | 0x300 | 0x301 | 0x302 => some (8, false)
  | 0x340 => some (0, false)
  | _ => none

/-- Does a PMC_CFG selection count nothing (R311)? -/
def pmcBad (ev inst : Nat) (sliceEn : Bool) : Bool :=
  match pmcEvent ev with
  | none => true
  | some (n, sl) => (inst != 0x7F && !(decide (inst < n))) || (sliceEn && !sl)

/-- Does a virtual counter's event count nothing for a slice (R314)? -/
def vcBad (ev : Nat) : Bool :=
  match pmcEvent ev with
  | some (_, true) => false
  | _ => true

/-- The sample point of the counter whose count is at `a`. -/
def Base.sampleAt (b : Base) (a : Nat) : Nat := tget b.samples a

/-- Set a sample point (R319). -/
def Base.setSample (b : Base) (a v : Nat) : Base := { b with samples := tset b.samples a (v % 2 ^ 48) }

/-- The period that a period field names: 1-63 act as 64 (R319). -/
def samplePeriod (p : Nat) : Nat := if p = 0 then 0 else max p 64

/-- Has a count reached or passed its sample point, compared mod 2^48 (R319)? -/
def reached (count point : Nat) : Bool := decide ((count + 2 ^ 48 - point % 2 ^ 48) % 2 ^ 48 < 2 ^ 47)

/-- How many sample points, one period apart, a count has reached or passed (R319). -/
def pointsPassed (count point per : Nat) : Nat :=
  if per = 0 || !reached count point then 0 else (count + 2 ^ 48 - point % 2 ^ 48) % 2 ^ 48 / per + 1

/-- The count that a sample captures (R319): the one that the increment left, or, of a count that rose in many cycles (`many`), one that
lies up to 64 after the point: a free value (log entry 4). -/
def Base.capture (b : Base) (count point : Nat) (many : Bool) : Nat × Base :=
  if many then
    let (n, b) := b.fresh
    ((point + min ((Config.freeWord n).toNat % 65) ((count + 2 ^ 48 - point % 2 ^ 48) % 2 ^ 48)) % 2 ^ 48, b)
  else (count, b)

/-- A module counter's count has come this far (R319): every sample point it passed raises event 4:2 with the count captured there, and
the next point counts from the one before. -/
def Base.pmcPoints (b : Base) (i : Nat) (many : Bool) : Base :=
  let per := samplePeriod (b.rd (Reg.PMC_PERIOD i) F.PMC_PERIOD_period)
  let a := Reg.PMC_CNT i
  let c := b.rd a F.CNT_count
  (List.range (pointsPassed c (b.sampleAt a) per)).foldl (fun b _ =>
    let (v, b) := b.capture c (b.sampleAt a) many
    (b.raise { group := 4, bit := 2, detail := i, detail2 := v % 2 ^ 32 }).setSample a (b.sampleAt a + per)) b

/-- A module counter reaches its sample point (R319). -/
def Base.pmcSample (b : Base) (i : Nat) : Base := b.pmcPoints i false

/-- Module counter `i` adds an increment, or those of many cycles (R312). -/
def Base.pmcAdd (b : Base) (i n : Nat) (many : Bool) : Base :=
  (b.addCount (Reg.PMC_CNT i) n (some { group := 4, bit := 1, detail := i })).pmcPoints i many

/-- Does module counter `i` select this occurrence (R310, R311)? -/
def Base.pmcSelects (b : Base) (i ev inst : Nat) (sl : Option Nat) : Bool :=
  let a := Reg.PMC_CFG i
  b.isSet a F.PMC_CFG_en && !b.isSet a F.PMC_CFG_bad && b.rd a F.PMC_CFG_event == ev &&
  (b.rd a F.PMC_CFG_inst == 0x7F || b.rd a F.PMC_CFG_inst == inst) &&
  (!b.isSet a F.PMC_CFG_slice_en || sl == some (b.rd a F.PMC_CFG_slice))

/-- `n` increments of event `ev` at instance `inst` on the module counters (R310-R312). -/
def Base.occModule (b : Base) (ev inst : Nat) (sl : Option Nat) (n : Nat) (many : Bool) : Base :=
  if b.isSet Reg.PMC_GLOBAL F.PMC_GLOBAL_run && b.coreOn then
    (List.range 256).foldl (fun b i => if b.pmcSelects i ev inst sl then b.pmcAdd i n many else b) b
  else b

/-! ### The PCI Express configuration space (R153-R155) -/

/-- The index of a function's configuration words in `Base.cfgs`. -/
def cfgIndex : CfgFn → Nat
  | .endpoint p => p.val
  | .upstream p => 8 + p.val
  | .epPort p => 16 + p.val
  | .down p => 24 + p.val

/-- The word of the control endpoint's configuration space at reset (R154, R155; what R154 leaves to the PCI Express
Base Specification follows it, log entry 7). -/
def epCfgReset (off : Nat) : Nat :=
  match off with
  | 0x00 => 0x25601E7B
  | 0x04 => 0x00100000
  | 0x08 => 0x08800001
  | 0x10 | 0x18 | 0x20 => 0x4
  | 0x2C => 0x01001E7B
  | 0x34 => 0x40
  | 0x40 => 0x00035001
  | 0x44 => 0x8
  | 0x50 => 0x018A7005
  | 0x70 => 0x0002B010
  | 0x74 => 0x10008003
  | 0x78 => 0x2810
  | 0x7C => 0x106
  | 0x80 => 0x21060000
  | 0x94 => 0x0003000F
  | 0x9C => 0x7E
  | 0xB0 => 0x07FF0011
  | 0xB4 => 0x4
  | 0xB8 => 0x8004
  | 0x100 => 0x14820001
  | 0x108 => 0x00400000
  | 0x10C => 0x00062030
  | 0x114 => 0x0000E000
  | 0x148 => 0x1501001B
  | 0x14C => 0x1400
  | 0x150 => 0x00010003
  | _ => 0

/-- The word of a bridge function's configuration space at reset (R201): a type 1 header and the capabilities at the
offsets of R201; `k` is 0 for an upstream port, 1 for the port above the control endpoint, 2 for a shelf's port; what
R201 leaves to the PCI Express Base Specification follows it (log entry 7). -/
def bridgeCfgReset (k off : Nat) : Nat :=
  let pick := fun (u e d : Nat) => if k = 0 then u else if k = 1 then e else d
  match off with
  | 0x00 => pick 0x25611E7B 0x25631E7B 0x25621E7B
  | 0x04 => 0x00100000
  | 0x08 => 0x06040001
  | 0x0C => 0x00010000
  | 0x24 => 0x00010001
  | 0x34 => 0x40
  | 0x40 => pick 0x00037001 0x00037001 0x00035001
  | 0x44 => 0x8
  | 0x50 => pick 0 0 0x00807005
  | 0x70 => pick 0x00520010 0x00620010 0x01620010
  | 0x74 => 0x8003
  | 0x78 => 0x2810
  | 0x7C => pick 0x00000906 0x00100106 0x00180906
  | 0x80 => pick 0 0x21060000 0
  | 0x84 => pick 0 0 0x00040060
  | 0x94 => pick 0x00000040 0x00000060 0x00000060
  | 0x9C => 0x7E
  | 0x100 => pick 0x15820001 0x14820001 0x14820001
  | 0x108 => 0x00400000
  | 0x10C => 0x00062030
  | 0x114 => 0x0000E000
  | 0x148 => pick 0 0x0001000D 0x1581000D
  | 0x14C => pick 0 0x207F 0x207F
  | 0x158 => pick 0x18410019 0 0x18410019
  | 0x184 => pick 0x19010025 0 0x19010025
  | 0x188 => pick 0x80000001 0 0x80000001
  | 0x190 => pick 0x1C010026 0 0x1C010026
  | 0x1C0 => pick 0x1F01002A 0 0x1F01002A
  | 0x1F0 => pick 0x21010031 0 0x21010031
  | 0x210 => pick 0x27010027 0 0x27010027
  | 0x258 => pick 0x2701001E 0 0
  | 0x25C => pick 0x00211E1F 0 0
  | 0x270 => pick 0x2E010012 0 0x2A010012
  | 0x2A0 => pick 0 0 0x0001001D
  | 0x2A4 => pick 0 0 0x0080
  | 0x2E0 => pick 0x00010003 0 0
  | _ => 0

/-- The reset word of a function where it depends on registers (R154, R155, R201, R206, R214): order code, serial, slot
number, the multicast run of the partition, and the L1 substates of a backplane port. A function index from 88 on is
the virtual port of a borrowed shelf, by 32 * partition + device. -/
def Base.cfgDefault (b : Base) (fn off : Nat) : Nat :=
  let serial := fun (i : Nat) => (b.word (Reg.GLB_SERIAL + 4 * i)).toNat
  let port := if fn < 16 then ((List.range 64).find? (fun q => b.rd (Reg.PRT_CFG q) F.PRT_CFG_role == 1 &&
    b.rd (Reg.PRT_CFG q) F.PRT_CFG_partition == fn - 8)).getD 0 else fn - 24
  if fn < 8 then
    match off with
    | 0x2C => 0x1E7B + 2 ^ 16 * (0x100 + b.rd Reg.GLB_PRODUCT_ID F.GLB_PRODUCT_ID_order_code)
    | 0x154 => serial 0
    | 0x158 => serial 1
    | _ => epCfgReset off
  else if 88 ≤ fn then
    match off with
    | 0x84 => 0x00040060 + 2 ^ 19 * (b.rd (Reg.BND_LEND (fn - 88)) F.BND_LEND_slot + 1)
    | _ => bridgeCfgReset 2 off
  else
    let k := if fn < 16 then 0 else if fn < 24 then 1 else 2
    match off with
    | 0x84 => if k = 2 then 0x00040060 + 2 ^ 19 * (b.rd (Reg.PRT_CFG port) F.PRT_CFG_slot + 1) else 0
    | 0x210 => if k = 0 && b.isSet (Reg.PRT_CFG port) F.PRT_CFG_l1ss then 0x25810027 else bridgeCfgReset k off
    | 0x258 => if b.isSet (Reg.PRT_CFG port) F.PRT_CFG_l1ss then bridgeCfgReset k off else 0
    | 0x25C => if b.isSet (Reg.PRT_CFG port) F.PRT_CFG_l1ss then bridgeCfgReset k off else 0
    | 0x274 => if k = 1 then 0 else b.rd (Reg.PRT_MC port) F.PRT_MC_mc_count - 1
    | 0x2E4 => if k = 0 then serial 0 else 0
    | 0x2E8 => if k = 0 then serial 1 else 0
    | _ => bridgeCfgReset k off

/-- The configuration word of a function. -/
def Base.cfg (b : Base) (fn off : Nat) : Nat :=
  match b.cfgs.lookup (fn * 4096 + off) with
  | some v => v.toNat
  | none => b.cfgDefault fn off

/-- Put the configuration word of a function. -/
def Base.setCfg (b : Base) (fn off v : Nat) : Base :=
  { b with cfgs := b.cfgs.set (fn * 4096 + off) (BitVec.ofNat 32 v) }

/-- Bus Master Enable of partition p's control endpoint (R179). -/
def Base.bme (b : Base) (p : Nat) : Bool := bitOf (b.cfg p 0x04) 2

/-- The MSI Enable and MSI-X Enable bits of partition p (R175). -/
def Base.msiEn (b : Base) (p : Nat) : Bool := bitOf (b.cfg p 0x50) 16
def Base.msixEn (b : Base) (p : Nat) : Bool := bitOf (b.cfg p 0xB0) 31

/-- Is partition p's control endpoint in D3hot (R156)? -/
def Base.d3hot (b : Base) (p : Nat) : Bool := b.cfg p 0x44 % 4 == 3

/-- The completion timeout that a 4-bit range encoding names, in ns (R208). -/
def cplTimeoutNs (v : Nat) : Nat :=
  match v with
  | 1 => 100 * us
  | 2 => 10 * ms
  | 5 => 55 * ms
  | 6 => 210 * ms
  | 9 => 900 * ms
  | 10 => 3500 * ms
  | 13 => 13 * sec
  | 14 => 64 * sec
  | _ => 50 * ms

/-! ### Ports as registers show them, and AER (R295, R296) -/

/-- The role of a port (R199): 0 disabled, 1 upstream, 2 downstream, 3 analysis, 4 Camtex. -/
def Base.portRole (b : Base) (p : Nat) : Nat := b.rd (Reg.PRT_CFG p) F.PRT_CFG_role

/-- The partition a port belongs to (R203). -/
def Base.portPart (b : Base) (p : Nat) : Nat := b.rd (Reg.PRT_CFG p) F.PRT_CFG_partition

/-- Is the port's physical link up? -/
def Base.linkUp (b : Base) (p : Nat) : Bool := b.isSet (Reg.PRT_STATUS p) F.PRT_STATUS_link_up

/-- The upstream port of partition p. -/
def Base.upstreamPort (b : Base) (p : Nat) : Option Nat :=
  (List.range 64).find? (fun q => b.portRole q == 1 && b.portPart q == p)

/-- Is the upstream link of a function's partition up, so that its error messages can leave (R298)? -/
def Base.fnUp (b : Base) (fn : Nat) : Bool :=
  (b.upstreamPort (if fn < 24 then fn % 8 else if fn < 88 then b.portPart (fn - 24) else (fn - 88) / 32)).any b.linkUp

/-- A correctable error message of a function, unless its Device Control holds it back. -/
def Base.aerCor (b : Base) (fn : Nat) : Base := if bitOf (b.cfg fn 0x78) 0 && b.fnUp fn then b.emit (.aer fn 0) else b

/-- An uncorrectable error of a function (PCI Express AER): status; the First Error Pointer and the header log unless an error they stand
for is still set; and a message unless masked or not enabled. -/
def Base.aerUnc (b : Base) (fn bit sev : Nat) (hdr : List Nat) : Base :=
  let masked := bitOf (b.cfg fn 0x108) bit
  let taken := bitOf (b.cfg fn 0x104) (b.cfg fn 0x118 % 32)
  let b := b.setCfg fn 0x104 (b.cfg fn 0x104 ||| 2 ^ bit)
  let b := b.setCfg fn 0x78 (b.cfg fn 0x78 ||| (2 ^ (16 + sev) + 2 ^ 19 * b2n (bit == 20)))
  if masked then b
  else
    let b := if taken then b
      else (List.range 4).foldl (fun b i => b.setCfg fn (0x11C + 4 * i) (hdr.getD i 0))
        (b.setCfg fn 0x118 (b.cfg fn 0x118 / 32 * 32 + bit))
    let serr := bitOf (b.cfg fn 0x04) 8
    if (serr || (bitOf (b.cfg fn 0x78) sev && (bit != 20 || bitOf (b.cfg fn 0x78) 3))) && b.fnUp fn then
      (b.setCfg fn 0x04 (b.cfg fn 0x04 ||| 2 ^ 30 * b2n serr)).emit (.aer fn sev)
    else b

/-- An AER report on the control endpoint of partition p (R295): the internal-error bit of the event's severity, with the event's entry as
the header. -/
def Base.aerReport (b : Base) (p sev : Nat) (entry : List Nat) : Base :=
  if sev = 0 then
    let b := b.setCfg p 0x110 (b.cfg p 0x110 ||| 0x4000)
    let b := b.setCfg p 0x78 (b.cfg p 0x78 ||| 2 ^ 16)
    if bitOf (b.cfg p 0x114) 14 then b else b.aerCor p
  else b.aerUnc p 22 sev entry

/-! ### Slices as registers show them (R182) -/

/-- The state code of a slice slot (R182): 0 EMPTY, 1 ACTIVE, 2 QUIESCING, 3 QUIESCED, 4 FREEZING, 5 FROZEN,
6 FAULTED, 7 WORN. -/
def Base.sliceState (b : Base) (s : Nat) : Nat := b.rd (Reg.SLC_STATE s) F.SLC_STATE_state

/-- Is the slot live, that is neither EMPTY nor WORN? -/
def Base.sliceLive (b : Base) (s : Nat) : Bool := b.sliceState s != 0 && b.sliceState s != 7

/-- The generation of a slice (R188). -/
def Base.sliceGen (b : Base) (s : Nat) : Nat := b.rd (Reg.SLC_STATE s) F.SLC_STATE_gen

/-- The partition that owns a slice. -/
def Base.slicePart (b : Base) (s : Nat) : Nat := b.rd (Reg.SLC_BIND s) F.SLC_BIND_partition

/-- The PASID a slice is bound to (R160). -/
def Base.slicePasid (b : Base) (s : Nat) : Nat := b.rd (Reg.SLC_BIND s) F.SLC_BIND_pasid

/-- Queue pairs a slice holds and its first global number (R183). -/
def Base.qpCount (b : Base) (s : Nat) : Nat := b.rd (Reg.SLC_RES s) F.SLC_RES_qp_count
def Base.qpBase (b : Base) (s : Nat) : Nat := b.rd (Reg.SLC_BASE s) F.SLC_BASE_qp_base

/-- The slice and local number of a global queue pair (R159). -/
def Base.qpOwner (b : Base) (g : Nat) : Option (Nat × Nat) :=
  ((List.range 1024).find? (fun s => b.sliceLive s && decide (b.qpBase s ≤ g) && decide (g < b.qpBase s + b.qpCount s))).map
    (fun s => (s, g - b.qpBase s))

/-- The manager partition (R13's visibility, R380). -/
def Base.manager (b : Base) : Nat := b.rd Reg.GLB_PARTITIONS F.GLB_PARTITIONS_manager

/-- The partitions that have an upstream port. -/
def Base.partitions (b : Base) : List Nat :=
  (List.range 8).filter (fun p => bitOf (b.rd Reg.GLB_PARTITIONS F.GLB_PARTITIONS_enabled) p)

/-- `n` increments of an event, in one cycle or in many, on the module counters and on the slice's virtual counters (R312, R314). -/
def Base.occIn (b : Base) (many : Bool) (ev inst : Nat) (sl : Option Nat) (n : Nat) : Base :=
  if n = 0 then b else
  let b := b.occModule ev inst sl n many
  match sl with
  | none => b
  | some s =>
    (List.range 8).foldl (fun b v =>
      let a := Reg.SLC_VC_SEL s v
      if b.isSet a F.SLC_VC_SEL_en && !b.isSet a F.SLC_VC_SEL_bad && b.rd a F.SLC_VC_SEL_event == ev then
        b.addCount (Reg.SLC_VC_CNT s v) n (some { group := 4, bit := 1, detail := s + 1024 * v })
      else b) b

/-- An occurrence of an event with its increment. -/
def Base.occ (b : Base) (ev inst : Nat) (sl : Option Nat) (n : Nat) : Base := b.occIn false ev inst sl n

/-- The occurrences of an event in a run of time. -/
def Base.occTime (b : Base) (ev inst : Nat) (sl : Option Nat) (n : Nat) : Base := b.occIn true ev inst sl n

/-! ### Guards (R138-R152) -/

/-- An access as its guard sees it (R141-R143): address space (0 Mortar, 1 host, 2 bus), partition or port, the bytes,
the kinds it needs, its world, PASID, slice and identity, whether it passes the bounds check of R388, and whether it
claims identity 0x3E and fails R140. -/
structure Access where
  space : Nat
  sel : Nat := 0
  addr : Nat
  len : Nat := 1
  rd : Bool := false
  wr : Bool := false
  secure : Bool := false
  pasid : Option Nat := none
  slice : Nat := 0
  ident : Nat
  bounds : Bool := true
  badKs : Bool := false
  deriving DecidableEq, Repr

/-- Why a guard denied an access, and the rule that decided, 0x40 for none (R143). -/
structure Denial where
  cause : Nat
  rule : Nat := 0x40
  deriving DecidableEq, Repr

/-- The Mortar address of a BAR0 offset (R141). -/
def ctlAddr (off : Nat) : Nat := 0x800000000000 + off
/-- The Mortar address of management memory (R141). -/
def mgmtAddr (off : Nat) : Nat := 0xC00000000000 + off

/-- A word pair of the active set of a guard (R147). -/
def Base.act64 (b : Base) (a : Nat) : Nat := (b.act.get0 a).toNat + 2 ^ 32 * (b.act.get0 (a + 4)).toNat

/-- The attribute word of an active rule. -/
def Base.ruleAttr (b : Base) (g r : Nat) : Nat := (b.act.get0 (Reg.GRD_RULE_ATTR g r)).toNat

/-- Is guard `g` an identity-checking guard (R140)? -/
def checksIdentity (g : Nat) : Bool := (decide (20 ≤ g) && decide (g ≤ 23)) || (decide (32 ≤ g) && decide (g ≤ 40))

/-- Is the active rule bad (R144)? -/
def Base.ruleBad (b : Base) (g r : Nat) : Bool :=
  let a := b.ruleAttr g r
  bitOf a 0 && ((bitOf a 16 && !checksIdentity g) ||
    decide (b.act64 (Reg.GRD_RULE_LIMIT g r) < b.act64 (Reg.GRD_RULE_BASE g r)))

/-- Does active rule `r` of guard `g` match the access (R143)? -/
def Base.ruleMatches (b : Base) (g r : Nat) (x : Access) : Bool :=
  let a := b.ruleAttr g r
  let m := b.act64 (Reg.GRD_RULE_MATCH g r)
  bitOf a 0 && !b.ruleBad g r &&
  (bits a ⟨6, 2⟩ == x.space && x.space != 3) &&
  (x.space == 0 || bitOf a 18 || bits a ⟨8, 6⟩ == x.sel) &&
  decide (b.act64 (Reg.GRD_RULE_BASE g r) / 4096 * 4096 ≤ x.addr) &&
  decide (x.addr + max x.len 1 - 1 ≤ b.act64 (Reg.GRD_RULE_LIMIT g r) / 4096 * 4096 + 0xFFF) &&
  (!bitOf a 14 || x.pasid == some (bits m ⟨0, 20⟩)) &&
  (!bitOf a 15 || bits m ⟨20, 10⟩ == x.slice) &&
  (!bitOf a 16 || bits m ⟨30, 6⟩ == x.ident)

/-- What the deciding rule says of the access (R143, R146). -/
def Base.ruleVerdict (b : Base) (g r : Nat) (x : Access) : Option Denial :=
  let a := b.ruleAttr g r
  if bitOf a 3 then some ⟨1, r⟩
  else if bitOf a 31 && g == 40 && b.rd Reg.CLK_LC_STATE F.CLK_LC_STATE_state != 1 then some ⟨4, r⟩
  else if (x.secure && !bitOf a 4) || (!x.secure && !bitOf a 5) then some ⟨2, r⟩
  else if (x.rd && !bitOf a 1) || (x.wr && !bitOf a 2) then some ⟨3, r⟩
  else none

/-- The check of R143: `none` allows the access. -/
def Base.guardDecide (b : Base) (g : Nat) (x : Access) : Option Denial :=
  if b.isSet (Reg.GRD_STATUS g) F.GRD_STATUS_parity then some ⟨6, 0x40⟩
  else if x.badKs then some ⟨5, 0x40⟩
  else if g < 20 && !x.bounds then some ⟨7, 0x40⟩
  else
    match (List.range 64).find? (fun r => b.ruleMatches g r x) with
    | some r => b.ruleVerdict g r x
    | none => some ⟨0, 0x40⟩

/-- Which counter of GRD_CNT a denial's cause counts in. -/
def denialCounter (cause : Nat) : Nat :=
  match cause with
  | 0 => 0
  | 1 => 1
  | 2 | 3 | 7 => 2
  | 5 | 6 => 3
  | _ => 4

/-- The log words of a denial (R151): GRD_FAULT_INFO keeps the first, a later one only sets more. -/
def Base.logDenial (b : Base) (g : Nat) (x : Access) (d : Denial) : Base :=
  let a := Reg.GRD_FAULT_INFO g
  if b.isSet a F.GRD_FAULT_INFO_valid then b.wr a F.GRD_FAULT_INFO_more 1
  else
    let info := d.cause + 8 * b2n x.wr + 16 * b2n x.secure + 32 * (x.ident % 64) + 2 ^ 11 * (d.rule % 128)
      + 2 ^ 18 * (x.slice % 1024) + 2 ^ 31
    let b := b.setWord a (BitVec.ofNat 32 info)
    let b := b.setWord64 (Reg.GRD_FAULT_ADDR g)
      ((if x.space = 0 then x.addr % 2 ^ 48 else x.addr % 2 ^ 56) + 2 ^ 56 * (x.space % 4) + 2 ^ 58 * (x.sel % 64))
    b.setWord (Reg.GRD_FAULT_PASID g) (BitVec.ofNat 32
      (x.pasid.getD 0 % 2 ^ 20 + 2 ^ 20 * b2n x.pasid.isSome + 2 ^ 24 * b.rd (Reg.GRD_STATUS g) F.GRD_STATUS_epoch))

/-- What a completion entry tells of a denial of guard g: the guard, the cause and the rule (R169). -/
def denialWord (g : Nat) (d : Denial) : Nat := g + 2 ^ 6 * d.cause + 2 ^ 9 * d.rule

/-- The first detail word of a denial's event: the fault log's info word (R300). -/
def denialDetail (x : Access) (d : Denial) : Nat :=
  d.cause + 8 * b2n x.wr + 16 * b2n x.secure + 32 * (x.ident % 64) + 2 ^ 11 * (d.rule % 128)
    + 2 ^ 18 * (x.slice % 1024) + 2 ^ 31

/-- A guard checks an access (R143): the check is counted; a denial is counted by its cause, logged, and raised as the
guard's contained event, never offered to the rings of `skip` (R151, R174). -/
def Base.guardSkip (b : Base) (g : Nat) (x : Access) (skip : List Nat) : Base × Option Denial :=
  let b := (b.bump (Reg.GRD_CNT g 7)).occ 0x180 g (some x.slice) 1
  match b.guardDecide g x with
  | none => (b, none)
  | some d =>
    let b := (b.bump (Reg.GRD_CNT g (denialCounter d.cause))).occ 0x181 g (some x.slice) 1
    let b := b.logDenial g x d
    (b.raise { guardEv g 0 1 x.slice with detail := denialDetail x d, detail2 := x.addr % 2 ^ 32, skip := skip },
      some d)

/-- A guard checks an access (R143, R151). -/
def Base.guard (b : Base) (g : Nat) (x : Access) : Base × Option Denial := b.guardSkip g x []

/-- The active epoch of a guard, which an access that it allows carries (R143, R148). -/
def Base.epoch (b : Base) (g : Nat) : Nat := b.rd (Reg.GRD_STATUS g) F.GRD_STATUS_epoch

/-- The recorded keystone of the bond at index `i` (level i + 1), if one is recorded (R140, R279). -/
def Base.keystone (b : Base) (i : Nat) : Option Nat :=
  if b.isSet (Reg.BND_KEYSTONE i) F.BND_KEYSTONE_valid then some (b.rd (Reg.BND_KEYSTONE i) F.BND_KEYSTONE_path) else none

/-- Is a bond path that of a keystone that the bond logic has recorded (R140)? -/
def Base.ksPath (b : Base) (path : Nat) : Bool := (List.range 4).any (fun i => b.keystone i == some path)

/-- The world of partition p's host-ingress path and queue engine (R138). -/
def Base.partWorld (b : Base) (p : Nat) : Bool := b.isSet (Reg.GRD_CFG (24 + p)) F.GRD_CFG_world

/-- A queue engine's access to host memory of slice s (R160). -/
def Base.qeAccess (b : Base) (s addr len : Nat) (pasid : Option Nat) (wr : Bool) : Access :=
  let p := b.slicePart s
  { space := 1, sel := p, addr := addr, len := len, rd := !wr, wr := wr, secure := b.partWorld p, pasid := pasid,
    slice := s, ident := 24 + p }

/-! ### Interrupt messages (R175-R178) -/

/-- Is the vector's MSI-X entry, MSI vector or the function masked (R178)? -/
def Base.vecMasked (b : Base) (p v : Nat) : Bool :=
  if b.msixEn p then
    bitOf (b.cfg p 0xB0) 30 ||
      bitOf ((b.msix.lookup (p * 65536 + v * 16 + 12)).getD 1#32).toNat 0
  else bitOf (b.cfg p 0x60) (v % 2 ^ bits (b.cfg p 0x50) ⟨20, 3⟩)

/-- The address and data of a vector's message (R175, R176). -/
def Base.msgWords (b : Base) (p v : Nat) : Nat × Nat :=
  if b.msixEn p then
    let w := fun i => (b.msix.get0 (p * 65536 + v * 16 + i)).toNat
    (w 0 + 2 ^ 32 * w 4, w 8)
  else
    let k := bits (b.cfg p 0x50) ⟨20, 3⟩
    let d := b.cfg p 0x5C % 65536
    (b.cfg p 0x54 + 2 ^ 32 * b.cfg p 0x58, d - d % 2 ^ k + v % 2 ^ k)

/-- The slice a message's ring belongs to. -/
def Base.msgSlice (b : Base) (m : PendMsg) : Nat :=
  match m.src with
  | .eq s => s
  | .vc s _ => s
  | .qp g => ((b.qpOwner g).map Prod.fst).getD 0

/-- A message goes out through guard 24 + p (R138), under the PASID of its ring's slice (DEDUCED, log entry 19); a denied one is not
issued. -/
def Base.sendNow (b : Base) (m : PendMsg) : Base :=
  let (addr, data) := b.msgWords m.part m.vector
  let x : Access := { space := 1, sel := m.part, addr := addr, len := 4, wr := true, secure := b.partWorld m.part,
                      pasid := some (b.slicePasid (b.msgSlice m)), slice := b.msgSlice m, ident := 24 + m.part }
  let (b, d) := b.guard (24 + m.part) x
  if d.isSome then b
  else (b.emit (.msi m.part addr data)).occ 0x1C2 m.part (some (b.msgSlice m)) 1

/-- A ring's message is due: sent, held while masked or while Bus Master Enable is clear, or not sent at all when
neither MSI nor MSI-X is enabled (R175, R178, R179). -/
def Base.message (b : Base) (m : PendMsg) : Base :=
  if !(b.msixEn m.part || b.msiEn m.part) then b
  else if b.vecMasked m.part m.vector then
    if b.pend.contains m then b else { b with pend := b.pend ++ [m] }
  else if !b.bme m.part then { b with held := b.held ++ [.msg m] }
  else b.sendNow m

/-! ### Event rings (R173, R174) and the report of raised events (R300-R302) -/

/-- The event-ring state of a slice. -/
def Base.eq (b : Base) (s : Nat) : EqRt := (b.eqs.find? (fun e => e.slice == s)).getD { slice := s }

/-- Put the event-ring state of a slice. -/
def Base.setEq (b : Base) (e : EqRt) : Base :=
  { b with eqs := b.eqs.filter (fun x => x.slice != e.slice) ++ [e] }

/-- The four words of an event entry (R173), with a lost bit and a phase. -/
def evWords (e : Ev) (ts : Nat) (lost phase : Bool) : List Nat :=
  [e.bit + 32 * e.group + 2 ^ 10 * e.sev + 2 ^ 12 * b2n lost + 2 ^ 15 * b2n phase + 2 ^ 16 * (e.cause % 65536),
   e.detail % 2 ^ 32, ts, e.detail2 % 2 ^ 32]

/-- An arrival at a full ring (R174). -/
def Base.eqDrop (b : Base) (s : Nat) : Base :=
  ((b.wr (Reg.SLC_EQ_STATUS s) F.SLC_EQ_STATUS_overflow 1).bump (Reg.EVT_CNT 4)).setEq { b.eq s with lost := true }

/-- The event entries of slice s that wait for Bus Master Enable. -/
def Base.heldEvents (b : Base) (s : Nat) : Nat :=
  (b.held.filter (fun h => match h with
    | .event t _ _ => t == s
    | _ => false)).length

/-- An event entry is written to a slice's ring, or dropped when the write is denied (R173, R174). -/
def Base.eqWrite (b : Base) (s : Nat) (e : Ev) : Base :=
  let n := 2 ^ b.rd (Reg.SLC_EQ_CFG s) F.SLC_EQ_CFG_log2
  let tail := b.rd (Reg.SLC_EQ_STATUS s) F.SLC_EQ_STATUS_tail
  let q := b.eq s
  let p := b.slicePart s
  let addr := b.word64 (Reg.SLC_EQ_BASE s) / 4096 * 4096 + 16 * tail
  let pas := some (b.slicePasid s)
  let (b, d) := b.guardSkip (24 + p) (b.qeAccess s addr 16 pas true) [s]
  if d.isSome then b.eqDrop s
  else
    let b := b.emit (.hostWrite p addr pas ((evWords e b.ts q.lost q.phase).flatMap (leBytes 4)))
    let wrapped := decide (tail + 1 = n)
    let b := b.setEq { q with lost := false, phase := if wrapped then !q.phase else q.phase }
    let b := b.wr (Reg.SLC_EQ_STATUS s) F.SLC_EQ_STATUS_tail ((tail + 1) % n)
    if b.isSet (Reg.SLC_EQ_CFG s) F.SLC_EQ_CFG_irq_en then
      b.message ⟨p, b.rd (Reg.SLC_EQ_CFG s) F.SLC_EQ_CFG_vector, .eq s⟩
    else b

/-- An event arrives for a slice's ring: dropped when the ring is full (R174), held while Bus Master Enable is clear (R179), else
written. -/
def Base.eqPut (b : Base) (s : Nat) (e : Ev) : Base :=
  if !b.isSet (Reg.SLC_EQ_STATUS s) F.SLC_EQ_STATUS_enabled then b
  else
    let n := 2 ^ b.rd (Reg.SLC_EQ_CFG s) F.SLC_EQ_CFG_log2
    let used := (b.rd (Reg.SLC_EQ_STATUS s) F.SLC_EQ_STATUS_tail + n - (b.eq s).head) % n + b.heldEvents s
    if n ≤ used + 1 then b.eqDrop s
    else if b.bme (b.slicePart s) then b.eqWrite s e
    else { b with held := b.held ++ [.event s (b.sliceGen s) e] }

/-- The storm record of a source. -/
def Base.storm (b : Base) (g i : Nat) : Storm :=
  (b.storms.find? (fun x => x.group == g && x.bit == i)).getD { group := g, bit := i }

/-- Put the storm record of a source. -/
def Base.setStorm (b : Base) (x : Storm) : Base :=
  { b with storms := b.storms.filter (fun y => !(y.group == x.group && y.bit == x.bit)) ++ [x] }

/-- The storm window of R302 in ns, and its event limit; 0 acts as 1 in both fields. -/
def Base.stormWindow (b : Base) : Nat := max 1 (b.rd Reg.EVT_CFG F.EVT_CFG_storm_ms) * ms
def Base.stormLimit (b : Base) : Nat := max 1 (b.rd Reg.EVT_CFG F.EVT_CFG_storm_n)

/-- An event meets its source's storm window (R302): the new record, and whether the event is suppressed. -/
def Base.stormStep (b : Base) (e : Ev) : Storm × Bool :=
  let x := b.storm e.group e.bit
  let still := x.suppressed && decide (b.now < x.last + b.stormWindow)
  let recent := x.times.filter (fun t => decide (b.now < t + b.stormWindow))
  let beyond := decide (b.stormLimit < recent.length + 1)
  let sup := still || beyond
  ({ x with times := recent ++ [b.now], last := b.now, suppressed := sup, lost := x.lost || sup }, sup)

/-- The rings an event goes to (R301). -/
def Base.eventRings (b : Base) (e : Ev) : List Nat :=
  match e.scope with
  | .slice s =>
    if b.sliceLive s then (if e.sev = 1 && s != 0 then [s, 0] else [s]) else [0]
  | _ => [0]

/-- The control endpoints an event is reported on (R295). -/
def Base.eventParts (b : Base) (e : Ev) : List Nat :=
  if e.sev = 2 then b.partitions
  else
    match e.scope with
    | .part p => [p]
    | .slice s => if b.sliceLive s then [b.slicePart s] else [b.manager]
    | .module => [b.manager]

/-- An entry goes to the EVT log (R305), and the first fatal one to EVT_FATAL. -/
def Base.logEvent (b : Base) (e : Ev) (w : List Nat) : Base :=
  let i := b.rd Reg.EVT_LOG_PTR F.EVT_LOG_PTR_next
  let b := (List.range 4).foldl (fun b j => b.setWord (Reg.EVT_LOG (4 * i + j)) (BitVec.ofNat 32 (w.getD j 0))) b
  let b := b.wr Reg.EVT_LOG_PTR F.EVT_LOG_PTR_next ((i + 1) % 256)
  let b := b.wr Reg.EVT_LOG_PTR F.EVT_LOG_PTR_written (b.rd Reg.EVT_LOG_PTR F.EVT_LOG_PTR_written + 1)
  if e.sev = 2 && !b.isSet Reg.EVT_FATAL_CTL F.EVT_FATAL_CTL_valid then
    ((List.range 4).foldl (fun b j => b.setWord (Reg.EVT_FATAL j) (BitVec.ofNat 32 (w.getD j 0))) b).wr
      Reg.EVT_FATAL_CTL F.EVT_FATAL_CTL_valid 1
  else b

/-- One event is reported (R300): status, count, storm check, log, and unless masked the rings and AER. -/
def Base.report (b : Base) (e : Ev) : Base :=
  let st := Reg.EVT_STATUS e.group
  let b := b.setWord st (b.word st ||| BitVec.ofNat 32 (2 ^ e.bit))
  let b := b.bump (Reg.EVT_CNT e.sev)
  let b := if e.sev = 2 then { b with fatal := true } else b
  let lost := (b.storm e.group e.bit).lost
  let (x, sup) := b.stormStep e
  if sup then (b.setStorm x).bump (Reg.EVT_CNT 3)
  else
    let b := b.setStorm { x with lost := false }
    let b := b.logEvent e (evWords e b.ts lost false)
    if bitOf (b.word (Reg.EVT_MASK e.group)).toNat e.bit then b
    else
      let b := ((b.eventRings e).filter (fun s => !e.skip.contains s)).foldl (fun b s => b.eqPut s e) b
      (b.eventParts e).foldl (fun b p => b.aerReport p e.sev (evWords e b.ts lost false)) b

/-- Insert an event in ascending group:bit order, after those of the same source (R300). -/
def insertEv (e : Ev) : List Ev → List Ev
  | [] => [e]
  | x :: xs => if e.group * 32 + e.bit < x.group * 32 + x.bit then e :: x :: xs else x :: insertEv e xs

/-- Events in ascending group:bit order (R300). -/
def sortEvs (l : List Ev) : List Ev := l.foldl (fun acc e => insertEv e acc) []

/-- Report every raised event; what the reports raise (a denied ring write, which is never offered to the ring that was denied, R174;
a denied message) is reported in the next round. A message that is denied again and again ends when its source is suppressed (R302). -/
def Base.flushN : Nat → Base → Base
  | 0, b => { b with evq := [] }
  | n + 1, b =>
    if b.evq.isEmpty then b
    else Base.flushN n ((sortEvs b.evq).foldl Base.report { b with evq := [] })

/-- Report every event of the command (R300). -/
def Base.flush (b : Base) : Base := b.flushN (b.stormLimit + 4)

/-! ### Errors that the PCI Express specification defines (R156, R296) -/

/-- An uncorrectable error on a function, of the class that its severity register names (R296). -/
def Base.aerError (b : Base) (fn bit : Nat) (hdr : List Nat) : Base :=
  b.aerUnc fn bit (if bitOf (b.cfg fn 0x10C) bit then 2 else 1) hdr

/-- An error of R296 on the control endpoint of partition p: AER and event 18:p. -/
def Base.hostErr (b : Base) (p bit sev : Nat) (hdr : List Nat) : Base :=
  (b.aerError p bit hdr).raise { group := 18, bit := p, sev := sev, scope := .part p }

end Sys2Proof.Machine
end

