-- ==== Sys2Proof/Machine/Coding.lean ====
section
/-! DEFINITION. The line coding of the lanes (R228-R233, R243): blocks, the scrambler, the FEC of IEEE 802.3 Clause 91, PAM4, the packing
of a Camtex lane's blocks into codewords and back, the precoding of PCI Express and the test patterns. -/

namespace Sys2Proof.Machine

/-! ### Bits on the line -/

/-- The lowest `n` bits of a number, the first to be sent first. -/
def bitsOf : Nat → Nat → List Bool
  | 0, _ => []
  | n + 1, v => (v % 2 == 1) :: bitsOf n (v / 2)

/-- The number whose bits these are, the lowest first. -/
def ofBits (bs : List Bool) : Nat := bs.foldr (fun b n => b2n b + 2 * n) 0

/-- Gray mapping of a pair of bits to a PAM4 level, -3, -1, +1, +3 as 0 to 3 (R232). -/
def grayLevel (first second : Bool) : Fin 4 := if first then (if second then 2 else 3) else (if second then 1 else 0)

/-- The pair of bits of a PAM4 level. -/
def grayBits (l : Fin 4) : List Bool := [decide (2 ≤ l.val), l.val == 1 || l.val == 2]

/-- The levels of bits, a pair to a symbol. -/
def pam4 : List Bool → List (Fin 4)
  | a :: b :: rest => grayLevel a b :: pam4 rest
  | _ => []

/-- The levels of bits at two levels. -/
def nrz (bs : List Bool) : List (Fin 4) := bs.map (fun b => if b then 3 else 0)

/-- An inverted pair turns every level over (R241). -/
def invertLevels (inv : Bool) (ls : List (Fin 4)) : List (Fin 4) := if inv then ls.map Fin.rev else ls

/-! ### The scrambler (R231) -/

/-- The bit that the history gives: the 39th and the 58th previous scrambled bit, one of them. -/
def histBit (h : Nat) : Nat := h / 2 ^ 38 % 2 + h / 2 ^ 57

/-- The next history. -/
def histPut (h s : Nat) : Nat := (2 * h + s) % 2 ^ 58

/-- `n` payload bits are scrambled: the history after them, and what is sent. -/
def scrambleN : Nat → Nat → Nat → Nat × Nat
  | 0, h, _ => (h, 0)
  | n + 1, h, d =>
    let s := (d + histBit h) % 2
    let (h', y) := scrambleN n (histPut h s) (d / 2)
    (h', s + 2 * y)

/-- `n` received bits are descrambled. -/
def descrambleN : Nat → Nat → Nat → Nat × Nat
  | 0, h, _ => (h, 0)
  | n + 1, h, r =>
    let d := (r + histBit h) % 2
    let (h', y) := descrambleN n (histPut h (r % 2)) (r / 2)
    (h', d + 2 * y)

/-! ### The FEC (R232): RS(544,514) over GF(2^10) of IEEE 802.3 Clause 91 (PRESUMED: the field polynomial x^10 + x^3 + 1, the generator
with roots alpha^0 to alpha^29, and the first symbol as the highest coefficient are that clause's; log entry 46) -/

/-- Twice an element of the field. -/
def gfDouble (a : Nat) : Nat := if a < 512 then 2 * a else (2 * a) ^^^ 0x409

/-- The product of two elements. -/
def gfMulN : Nat → Nat → Nat → Nat
  | 0, _, _ => 0
  | n + 1, a, b => (if b % 2 = 1 then a else 0) ^^^ gfMulN n (gfDouble a) (b / 2)
def gfMul (a b : Nat) : Nat := if a = 0 then 0 else gfMulN 10 a b

/-- A power of an element. -/
def gfPowN : Nat → Nat → Nat → Nat
  | 0, _, _ => 1
  | n + 1, a, e => gfMul (if e % 2 = 1 then a else 1) (gfPowN n (gfMul a a) (e / 2))
def gfPow (a e : Nat) : Nat := gfPowN 10 a e

/-- The inverse of an element that is not 0, and a power of the primitive element. -/
def gfInv (a : Nat) : Nat := gfPow a 1022
def gfAlpha (i : Nat) : Nat := gfPow 2 (i % 1023)

/-- The value of a polynomial, its highest coefficient first. -/
def polyAt (p : List Nat) (x : Nat) : Nat := p.foldl (fun v c => gfMul v x ^^^ c) 0

/-- The generator polynomial without its leading 1, highest coefficient first. -/
def rsGen : List Nat :=
  ((List.range 30).foldl (fun g i =>
    let r := gfAlpha i
    List.zipWith (· ^^^ ·) (g ++ [0]) (0 :: g.map (gfMul r))) [1]).drop 1

/-- The 30 parity symbols of a message of 514. -/
def rsParity (msg : List Nat) : List Nat :=
  msg.foldl (fun reg s =>
    let fb := s ^^^ reg.headD 0
    List.zipWith (· ^^^ ·) (reg.drop 1 ++ [0]) (rsGen.map (gfMul fb))) (List.replicate 30 0)

/-- The syndromes of a received word. -/
def rsSyndromes (r : List Nat) : List Nat := (List.range 30).map (fun j => polyAt r (gfAlpha j))

/-- The state of the Berlekamp-Massey iteration, polynomials lowest coefficient first. -/
structure BmState where
  loc : List Nat := [1]
  prev : List Nat := [1]
  len : Nat := 0
  gap : Nat := 1
  last : Nat := 1

/-- The sum of two polynomials, lowest coefficient first. -/
def polyAdd : List Nat → List Nat → List Nat
  | [], q => q
  | p, [] => p
  | a :: p, b :: q => (a ^^^ b) :: polyAdd p q

/-- One step of the iteration. -/
def bmStep (syn : List Nat) (s : BmState) (n : Nat) : BmState :=
  let d := (List.range (s.len + 1)).foldl (fun d i => d ^^^ gfMul (s.loc.getD i 0) (syn.getD (n - i) 0)) 0
  if d = 0 then { s with gap := s.gap + 1 }
  else
    let k := gfMul d (gfInv s.last)
    let loc := polyAdd s.loc (List.replicate s.gap 0 ++ s.prev.map (gfMul k))
    if 2 * s.len ≤ n then { loc := loc, prev := s.loc, len := n + 1 - s.len, gap := 1, last := d }
    else { s with loc := loc, gap := s.gap + 1 }

/-- A received word of 544 symbols is corrected: the word and the symbols corrected, or none beyond 15. -/
def rsDecode (r : List Nat) : Option (List Nat × Nat) :=
  let syn := rsSyndromes r
  if syn.all (fun s => s == 0) then some (r, 0)
  else
    let bm := (List.range 30).foldl (bmStep syn) {}
    let loc := bm.loc.take (bm.len + 1)
    let roots := (List.range 544).filter (fun i => polyAt loc.reverse (gfAlpha (1023 - i % 1023)) == 0)
    if 15 < bm.len || roots.length ≠ bm.len then none
    else
      let omega := (List.range bm.len).map (fun i =>
        (List.range (i + 1)).foldl (fun v j => v ^^^ gfMul (loc.getD j 0) (syn.getD (i - j) 0)) 0)
      let deriv := (List.range bm.len).map (fun i => if i % 2 = 0 then loc.getD (i + 1) 0 else 0)
      let fix := fun (i : Nat) =>
        let x := gfAlpha i
        let y := gfInv x
        gfMul x (gfMul (polyAt omega.reverse y) (gfInv (polyAt deriv.reverse y)))
      some ((List.range 544).map (fun n => (r.getD n 0) ^^^ (if roots.contains (543 - n) then fix (543 - n) else 0)), bm.len)

/-- The symbols of `n` message bits that start at the lowest. -/
def symbolsOf (n v : Nat) : List Nat := (List.range n).map (fun i => v / 2 ^ (10 * i) % 1024)

/-- The levels of the codeword of a message of 5,140 bits. -/
def codewordLevels (msg : Nat) : List (Fin 4) :=
  let m := symbolsOf 514 msg
  pam4 ((m ++ rsParity m).flatMap (bitsOf 10))

/-- The message of a codeword's levels, the symbols corrected, and whether it could not be corrected: then it is taken as it came. -/
def codewordOf (levels : List (Fin 4)) : Nat × Nat × Bool :=
  let r := symbolsOf 544 (ofBits (levels.flatMap grayBits))
  let msg := fun (w : List Nat) => ofBits ((w.take 514).flatMap (bitsOf 10))
  match rsDecode r with
  | some (w, n) => (msg w, n, false)
  | none => (msg r, 0, true)

/-! ### A Camtex lane sends (R229, R230, R249) -/

/-- The XOR of the bytes of a payload: what it adds to the lane's BIP-8. -/
def parityOf (p : Nat) : Nat := (List.range 8).foldl (fun v i => v ^^^ p / 2 ^ (8 * i) % 256) 0

/-- A block's sync header, its first bit the lowest: 01 for data, 10 for control, as written. -/
def syncHeader (control : Bool) : Nat := if control then 1 else 2

/-- A 66-bit block joins the message; a whole message of 5,140 bits comes out. -/
def LaneCode.pack (c : LaneCode) (header payload : Nat) : LaneCode × List Nat :=
  let v := c.txMsg + (header + 4 * payload) * 2 ^ c.txLen
  let n := c.txLen + 66
  if n < 5140 then ({ c with txMsg := v, txLen := n }, [])
  else ({ c with txMsg := v / 2 ^ 5140, txLen := n - 5140 }, [v % 2 ^ 5140])

/-- The payload of an AM: its type, the physical lane, the BIP-8 and its inverse, and the fixed bytes (R247). -/
def amPayload (lane parity : Nat) : Nat :=
  0x4B + 2 ^ 8 * lane + 2 ^ 16 * parity + 2 ^ 24 * (255 - parity) + 2 ^ 32 * 0x69963AC5

/-- The lane sends its AM, unscrambled, and its parity starts over. -/
def LaneCode.sendAm (c : LaneCode) (lane : Nat) : LaneCode × List Nat :=
  ({ c with txPos := 1, txParity := 0#8 } : LaneCode).pack (syncHeader true) (amPayload lane c.txParity.toNat)

/-- The lane sends a block of the stream, scrambled, after its AM where that is due (R248, R249). -/
def LaneCode.send (c : LaneCode) (lane : Nat) (control : Bool) (payload : Nat) : LaneCode × List Nat :=
  let (c, am) := if c.txPos = 0 then c.sendAm lane else (c, [])
  let (h, y) := scrambleN 64 c.txHist.toNat payload
  let c := { c with txHist := BitVec.ofNat 58 h, txPos := (c.txPos + 1) % 16384,
                    txParity := c.txParity ^^^ BitVec.ofNat 8 (parityOf y) }
  let (c, out) := c.pack (syncHeader control) y
  (c, am ++ out)

/-! ### Training blocks (R247, R263, R264): raw, neither scrambled nor coded -/

/-- A raw control block of a type with its bytes 1 to 7, inverted or not. -/
def controlBlock (inv : Bool) (type : Nat) (rest : List Byte) : BitVec 66 :=
  let w := BitVec.ofNat 66 (syncHeader true + 4 * (type + 2 ^ 8 * fieldAt rest 0 7))
  if inv then ~~~w else w

/-- The four TS blocks of a record of 24 B. -/
def tsBlocks (inv : Bool) (r : List Byte) : List (BitVec 66) :=
  (List.range 4).map (fun i => controlBlock inv 0x2D (BitVec.ofNat 8 (0xA0 + i) :: (r.drop (6 * i)).take 6))

/-- Part number and bytes of a TS block, if it is one: of type 0x2D, with the fixed value 0xA. -/
def tsPart (x : BitVec 66) : Option (Nat × List Byte) :=
  let p := x.toNat / 4
  if x.toNat % 4 = syncHeader true ∧ p % 256 = 0x2D ∧ p / 2 ^ 12 % 16 = 0xA ∧ p / 2 ^ 8 % 16 < 4 then
    some (p / 2 ^ 8 % 16, leBytes 6 (p / 2 ^ 16))
  else none

/-- Parts received in order: the next one joins, a part 0 starts over, and any other breaks the row. -/
def joinPart (parts : List (List Byte)) (n : Nat) (bytes : List Byte) : List (List Byte) :=
  if n = 0 then [bytes] else if n = parts.length then parts ++ [bytes] else []

/-- Valid headers in a row, up to 64, which is block lock (R264 step 3). -/
def headerRow (n : Nat) (h : BitVec 2) : Nat :=
  if 64 ≤ n then 64 else if h = 1#2 ∨ h = 2#2 then n + 1 else 0

/-! ### A Camtex lane receives (R229-R233) -/

/-- A block that has come out of the FEC: whether its header is invalid, and the lane with it in line. In an AM slot the payload is as
sent; else it is descrambled and joins the parity. A block whose header is invalid, or that overlaps an uncorrectable codeword, goes on
marked bad; one of a correctable codeword counts for framing. -/
def LaneCode.accept (c : LaneCode) (header payload : Nat) (bad : Bool) : LaneCode × Bool :=
  let wrong := header == 0 || header == 3
  let c := if bad then c else { c with invalid := (c.invalid ++ [wrong]).drop (c.invalid.length + 1 - 64) }
  let h := BitVec.ofNat 2 header
  if c.rxPos = 0 then
    let x : RxBlock := { header := h, payload := BitVec.ofNat 64 payload, bad := bad || wrong, am := true, parity := c.rxParity }
    ({ c with rxPos := 1, rxParity := 0#8, blocks := c.blocks ++ [x] }, wrong)
  else
    let (s, y) := descrambleN 64 c.rxHist.toNat payload
    let x : RxBlock := { header := h, payload := BitVec.ofNat 64 y, bad := bad || wrong }
    ({ c with rxHist := BitVec.ofNat 58 s, rxPos := (c.rxPos + 1) % 16384, blocks := c.blocks ++ [x],
              rxParity := c.rxParity ^^^ BitVec.ofNat 8 (parityOf payload) }, wrong)

/-- Has the lane lost framing: 16 invalid headers within 64 consecutive blocks of correctable codewords (R233)? -/
def LaneCode.unframed (c : LaneCode) : Bool := decide (16 ≤ (c.invalid.filter id).length)

/-- The message of a codeword joins what was left of the last, and every whole block is taken: the lane, and the invalid headers. -/
def LaneCode.unpack (c : LaneCode) (msg : Nat) (bad : Bool) : LaneCode × Nat :=
  let v := c.rxMsg + msg * 2 ^ c.rxLen
  let n := c.rxLen + 5140
  let k := n / 66
  let first := c.rxBad && decide (0 < c.rxLen)
  let c := { c with rxMsg := v / 2 ^ (66 * k), rxLen := n - 66 * k, rxBad := bad }
  (List.range k).foldl (fun (acc : LaneCode × Nat) i =>
    let w := v / 2 ^ (66 * i) % 2 ^ 66
    let (c, wrong) := acc.1.accept (w % 4) (w / 4) (bad || (first && i == 0))
    (c, acc.2 + b2n wrong)) (c, 0)

/-! ### PCI Express lanes (R228) -/

/-- The codings of PCI Express, each with the bits of a block before and after. -/
inductive Coding where
  | b8b10
  | b128b130
  | b1b1
  deriving DecidableEq, Repr

/-- The coding of a rate, as PRT_STATUS codes it. -/
def codingOf (rate : Nat) : Coding := if rate ≤ 1 then .b8b10 else if rate ≤ 4 then .b128b130 else .b1b1

/-- May a rate be precoded: 32 and 64 GT/s? -/
def mayPrecode (rate : Nat) : Bool := rate == 4 || rate == 5

/-- The precoder: each level is what is to be sent less the level sent before, over the levels that the coding uses (PRESUMED: the PCI
Express precoder 1 / (1 + D), log entry 46). -/
def precodeN (levels : Nat) : Nat → List Nat → List Nat
  | _, [] => []
  | last, x :: xs =>
    let y := (x + levels - last) % levels
    y :: precodeN levels y xs

/-- A receiver takes precoding off again. -/
def unprecodeN (levels : Nat) : Nat → List Nat → List Nat
  | _, [] => []
  | last, y :: ys => (y + last) % levels :: unprecodeN levels y ys

/-- The transmit setting that a preset gives for FS = 48 (R234; PRESUMED: the ratios of the PCI Express preset table, log entry 46): 10
takes all that LF leaves. -/
def presetCoef (p : Nat) : Nat × Nat :=
  match p with
  | 0 => (0, 12)
  | 1 => (0, 8)
  | 2 => (0, 10)
  | 3 => (0, 6)
  | 4 => (0, 0)
  | 5 => (5, 0)
  | 6 => (6, 0)
  | 7 => (5, 10)
  | 8 => (6, 6)
  | 9 => (8, 0)
  | 10 => (0, 16)
  | _ => (0, 0)

/-! ### Test patterns (R243) -/

/-- How far back the bits stand whose XOR is the next bit of a pattern; the repeated patterns stand 64 back. -/
def patternTaps (sel : Nat) : List Nat :=
  match sel with
  | 0 => [7, 6]
  | 1 => [9, 5]
  | 2 => [13, 12, 2, 1]
  | 3 => [15, 14]
  | 4 => [23, 18]
  | 5 => [31, 28]
  | _ => [64]

/-- The next bit of a pattern after these, the last of them the lowest. -/
def patternNext (sel hist : Nat) : Bool :=
  (patternTaps sel).foldl (fun x t => x != bitOf hist (t - 1)) false

/-- The bit that a generator sends as its `i`-th: of the square wave and the user pattern by its place, else by the bits before. -/
def patternBit (sel user hist i : Nat) : Bool :=
  match sel with
  | 6 => decide (i % 16 < 8)
  | 7 => bitOf user (i % 64)
  | _ => patternNext sel hist

/-- A generator sends `n` bits: what it keeps after them, and the bits. -/
def genN (sel user : Nat) : Nat → BitVec 64 → Nat → BitVec 64 × Nat × List Bool
  | 0, h, i => (h, i, [])
  | n + 1, h, i =>
    let b := patternBit sel user h.toNat i
    let (h', i', bs) := genN sel user n (h <<< 1 ||| BitVec.ofNat 64 (b2n b)) (i + 1)
    (h', i', b :: bs)

/-- A checker takes a bit (R243): it seeds itself, then waits for 1,024 bits without an error, then counts; more than 1,024 errors in
65,536 bits drop its lock. The answer is the checker, whether it is locked, the errors and the units of 65,536 bits to count. -/
def Checker.take (x : Checker) (sel : Nat) (b : Bool) : Checker × Bool × Nat × Nat :=
  let want := patternNext sel x.hist.toNat
  let put := fun (b : Bool) => x.hist <<< 1 ||| BitVec.ofNat 64 (b2n b)
  if x.seeded < (patternTaps sel).headD 64 then ({ x with hist := put b, seeded := x.seeded + 1 }, false, 0, 0)
  else if x.good < 1024 then
    if b == want then ({ x with hist := put b, good := x.good + 1 }, x.good + 1 == 1024, 0, 0)
    else ({ hist := put b, seeded := 1 }, false, 0, 0)
  else
    let e := x.errs + b2n (b != want)
    if 1024 < e then ({}, false, b2n (b != want), 0)
    else if x.bits + 1 = 65536 then ({ x with hist := put want, bits := 0, errs := 0 }, true, b2n (b != want), 1)
    else ({ x with hist := put want, bits := x.bits + 1, errs := e }, true, b2n (b != want), 0)

/-- A checker takes bits, in order. -/
def Checker.takeAll (x : Checker) (sel : Nat) (locked : Bool) (bs : List Bool) : Checker × Bool × Nat × Nat :=
  bs.foldl (fun (acc : Checker × Bool × Nat × Nat) b =>
    let (y, lock, errs, units) := acc.1.take sel b
    (y, lock, acc.2.2.1 + errs, acc.2.2.2 + units)) (x, locked, 0, 0)

end Sys2Proof.Machine
end

