-- ==== Sys2Proof/Machine/Wire.lean ====
section
/-! DEFINITION. The bytes of a TLP as a frame carries them (R39, R271): the prefixes, header, payload and ECRC of the PCI Express Base
Specification (PRESUMED: the spec names that format and does not repeat it; log entry 15); and the payload of a Camtex flit (R271). -/

namespace Sys2Proof.Machine

/-- `n` bytes of a number, most significant first. -/
def beBytes (n v : Nat) : List Byte := (leBytes n v).reverse

/-- The number in bytes, most significant first. -/
def beNat (bs : List Byte) : Nat := leNat bs.reverse

/-- The number at an offset of a big-endian header. -/
def beAt (bs : List Byte) (off n : Nat) : Nat := beNat ((bs.drop off).take n)

/-- The bytes that a TLP moves: its payload, or what a read asks for. -/
def tlpSpan (t : Tlp) : Nat := if t.data.isEmpty then t.len else t.data.length

/-- Double words that a byte range touches. -/
def dwCount (addr n : Nat) : Nat := max 1 (cdiv (addr % 4 + n) 4)

/-- The first and last byte enables of a byte range. -/
def byteEnables (addr n : Nat) : Nat :=
  let o := addr % 4
  let ones := fun (lo hi : Nat) => 2 ^ hi - 2 ^ lo
  if n = 0 then 0
  else if dwCount addr n = 1 then ones o (o + n)
  else ones o 4 + 16 * ones 0 ((o + n - 1) % 4 + 1)

/-- The byte offset and the byte count that enables name over `dws` double words. -/
def enabledRange (be dws : Nat) : Nat × Nat :=
  let f := be % 16
  let l := be / 16 % 16
  let low := fun (x : Nat) => ((List.range 4).find? (fun i => bitOf x i)).getD 0
  let high := fun (x : Nat) => (([3, 2, 1, 0] : List Nat).find? (fun i => bitOf x i)).getD 0
  if f = 0 then (0, 0)
  else if dws = 1 then (low f, high f + 1 - low f)
  else (low f, 4 * dws - low f - (3 - high l))

/-- Does a memory request need a 64-bit address, and with it a 4 DW header? One below 4 GiB takes 3 DW. -/
def longAddr (t : Tlp) : Bool :=
  (t.kind == .memRead || t.kind == .memWrite || t.kind == .atomic) && decide (2 ^ 32 ≤ t.addr)

/-- The fmt and type byte of a TLP. -/
def fmtType (t : Tlp) : Nat :=
  match t.kind with
  | .memRead => 0x20 * b2n (longAddr t)
  | .memWrite => 0x40 + 0x20 * b2n (longAddr t)
  | .atomic => 0x4C + 0x20 * b2n (longAddr t) + t.code % 3
  | .cfgRead => 0x04
  | .cfgWrite => 0x44
  | .ioRead => 0x02
  | .ioWrite => 0x42
  | .cpl => if t.data.isEmpty then 0x0A else 0x4A
  | .msg => (if t.data.isEmpty then 0x30 else 0x70) +
      (match t.route with
        | .toRoot => 0
        | .addr => 1
        | .id _ => 2
        | .broadcast => 3
        | .localTerm => 4)

/-- The ID that a TLP is routed by. -/
def tlpTarget (t : Tlp) : Nat :=
  match t.route with
  | .id bdf => bdf
  | _ => 0

/-- The payload padded to whole double words. -/
def tlpPadded (t : Tlp) : List Byte :=
  let o := if t.kind == .cpl then 0 else t.addr % 4
  let d := List.replicate o 0#8 ++ t.data
  if t.data.isEmpty then [] else d ++ List.replicate ((4 - d.length % 4) % 4) 0#8

/-- The bytes of a TLP's PASID prefix, header and ECRC (R39). -/
def tlpHdr (t : Tlp) : Nat :=
  (if t.pasid.isSome then 4 else 0) + (if longAddr t || t.kind == .msg then 16 else 12) + (if t.ecrc.isSome then 4 else 0)

/-- A TLP that the module makes itself: its header has just the bytes that its fields take. -/
def tlpSized (t : Tlp) : Tlp := { t with hdr := tlpHdr t }

/-- Frame bytes of a TLP (R39): prefixes, header, the double words of its payload, and ECRC. -/
def tlpBytes (t : Tlp) : Nat := t.hdr + (tlpPadded t).length

/-- The bytes of a TLP: a PASID prefix where it has one, the header, the payload, and the ECRC of one that carries it. -/
def tlpWire (t : Tlp) : List Byte :=
  let n := (tlpSpan t)
  let cpl := t.kind == .cpl
  let dws := if cpl then cdiv n 4 else dwCount t.addr n
  let pre := match t.pasid with
    | some p => beBytes 4 (0x91 * 2 ^ 24 + p % 2 ^ 20)
    | none => []
  let w0 := fmtType t * 2 ^ 24 + t.tag / 512 % 2 * 2 ^ 23 + t.tc % 8 * 2 ^ 20 + t.tag / 256 % 2 * 2 ^ 19 +
    b2n t.ido * 2 ^ 18 + b2n t.ecrc.isSome * 2 ^ 15 + b2n t.ep * 2 ^ 14 + b2n t.relaxed * 2 ^ 13 + b2n t.noSnoop * 2 ^ 12 +
    b2n t.translated * 2 ^ 11 + dws % 1024
  let rest :=
    if cpl then beBytes 4 (t.status % 8 * 2 ^ 13 + n % 4096) ++
      beBytes 4 (t.rid % 65536 * 2 ^ 16 + t.tag % 256 * 2 ^ 8 + t.addr % 128)
    else
      let be := if t.kind == .msg then t.code % 256 else byteEnables t.addr n
      beBytes 4 (t.rid % 65536 * 2 ^ 16 + t.tag % 256 * 2 ^ 8 + be) ++
      (match t.kind with
        | .cfgRead | .cfgWrite => beBytes 4 (tlpTarget t % 65536 * 2 ^ 16 + t.addr / 4 * 4 % 4096)
        | .ioRead | .ioWrite => beBytes 4 (t.addr / 4 * 4)
        | .msg => (match t.route with
            | .id bdf => beBytes 4 (bdf % 65536 * 2 ^ 16) ++ beBytes 4 0
            | _ => beBytes 8 t.addr)
        | _ => beBytes (if longAddr t then 8 else 4) (t.addr / 4 * 4))
  let digest := match t.ecrc with
    | some e => beBytes 4 e.toNat
    | none => []
  pre ++ beBytes 4 w0 ++ rest ++ tlpPadded t ++ digest

/-- The first four header words of a TLP, for the header logs. -/
def tlpHeader (t : Tlp) : List Nat := (List.range 4).map (fun i => beAt (tlpWire { t with data := [], pasid := none }) (4 * i) 4)

/-- The first four header double words of a TLP in FLIT mode, as the header log takes them there (R220). -/
def flitHeader (t : Tlp) : List Nat :=
  let n := tlpSpan t
  let cpl := t.kind == .cpl
  let mem := t.kind == .memRead || t.kind == .memWrite || t.kind == .atomic
  let dws := if cpl then cdiv n 4 else dwCount t.addr n
  let be := byteEnables t.addr n
  let full := if dws = 1 then 0xF else 0xFF
  let ohc := t.pasid.isSome || (!cpl && t.kind != .msg && (!mem || be != full)) || (cpl && t.status != 0)
  let w0 := (if fmtType t = 0 then 3 else fmtType t) * 2 ^ 24 + t.tc % 8 * 2 ^ 21 + b2n ohc * 2 ^ 16 + b2n t.ido * 2 ^ 12 + b2n t.relaxed * 2 ^ 11 +
    b2n t.noSnoop * 2 ^ 10 + dws % 1024
  let w1 := t.rid % 65536 * 2 ^ 16 + b2n t.ep * 2 ^ 15 + t.tag % 2 ^ 14
  let extra := b2n t.pasid.isSome * 2 ^ 29 + t.pasid.getD 0 % 2 ^ 20 * 2 ^ 8 + be
  if cpl then [w0, w1, tlpTarget t % 65536 * 2 ^ 16 + t.addr / 4 % 16 * 2 ^ 12 + n % 4096, if ohc then t.status % 8 else 0]
  else if t.kind == .msg then [w0, w1, t.code % 256, t.addr % 2 ^ 32]
  else if longAddr t then [w0, w1, t.addr / 2 ^ 32 % 2 ^ 32, t.addr / 4 * 4 % 2 ^ 32]
  else
    let w2 := if t.kind == .cfgRead || t.kind == .cfgWrite then tlpTarget t % 65536 * 2 ^ 16 + t.addr / 4 * 4 % 4096
      else t.addr / 4 * 4
    [w0, w1, w2, if ohc then extra else 0]

/-- The kind of a fmt and type byte. -/
def kindOf (ft : Nat) : Option TlpKind :=
  match ft with
  | 0x00 | 0x20 => some .memRead
  | 0x40 | 0x60 => some .memWrite
  | 0x4C | 0x4D | 0x4E | 0x6C | 0x6D | 0x6E => some .atomic
  | 0x04 | 0x05 => some .cfgRead
  | 0x44 | 0x45 => some .cfgWrite
  | 0x02 => some .ioRead
  | 0x42 => some .ioWrite
  | 0x0A | 0x4A => some .cpl
  | _ => if 0x30 ≤ ft && ft ≤ 0x35 || 0x70 ≤ ft && ft ≤ 0x75 then some .msg else none

/-- The route of a message type. -/
def msgRoute (r bdf : Nat) : TlpRoute :=
  match r with
  | 0 => .toRoot
  | 1 => .addr
  | 2 => .id bdf
  | 3 => .broadcast
  | _ => .localTerm

/-- Read a TLP's bytes, as `tlpWire` lays them out. -/
def tlpOf (bytes : List Byte) : Option Tlp :=
  let hasPre := beAt bytes 0 1 == 0x91
  let pasid := if hasPre then some (beAt bytes 0 4 % 2 ^ 20) else none
  let bs := if hasPre then bytes.drop 4 else bytes
  let w0 := beAt bs 0 4
  let ft := w0 / 2 ^ 24
  match kindOf ft with
  | none => none
  | some kind =>
    let dws := if w0 % 1024 = 0 then 1024 else w0 % 1024
    let w1 := beAt bs 4 4
    let long := bitOf ft 5
    let hdr := if long then 16 else 12
    let body := bs.drop hdr
    let common : Tlp := { kind := kind, pasid := pasid, tc := bits w0 ⟨20, 3⟩, ep := bitOf w0 14, relaxed := bitOf w0 13,
                          noSnoop := bitOf w0 12, ido := bitOf w0 18, translated := bitOf w0 11,
                          ecrc := if bitOf w0 15 then some (BitVec.ofNat 32 (beAt bs (bs.length - 4) 4)) else none,
                          hdr := hdr + (if hasPre then 4 else 0) + (if bitOf w0 15 then 4 else 0),
                          tag := bits w1 ⟨8, 8⟩ + 256 * bits w0 ⟨19, 1⟩ + 512 * bits w0 ⟨23, 1⟩, rid := w1 / 65536 }
    if kind == .cpl then
      let w2 := beAt bs 8 4
      let n := if w1 % 4096 = 0 then 4096 else w1 % 4096
      some { common with route := .id (w2 / 65536), rid := w2 / 65536, addr := w2 % 128, status := bits w1 ⟨13, 3⟩, len := n,
                         tag := bits w2 ⟨8, 8⟩ + 256 * bits w0 ⟨19, 1⟩ + 512 * bits w0 ⟨23, 1⟩,
                         data := if bitOf ft 6 then body.take n else [] }
    else if kind == .msg then
      let bdf := beAt bs 8 2
      some { common with route := msgRoute (ft % 8) bdf, addr := if ft % 8 = 2 then 0 else beAt bs 8 8, code := w1 % 256,
                         data := if bitOf ft 6 then body.take (4 * dws) else [] }
    else
      let (o, n) := enabledRange (w1 % 256) dws
      let data := if bitOf ft 6 then (body.drop o).take n else []
      match kind with
      | .cfgRead | .cfgWrite =>
        let w2 := beAt bs 8 4
        some { common with route := .id (w2 / 65536), addr := w2 % 4096 + o, len := n, data := data }
      | _ =>
        some { common with addr := (if long then beAt bs 8 8 else beAt bs 8 4) / 4 * 4 + o, len := n, data := data,
                           code := if kind == .atomic then ft % 16 - 12 else 0 }

/-! ### Segments (R271) -/

/-- The class bit. -/
def clsBit (c : SegClass) : Nat :=
  match c with
  | .request => 0
  | .response => 1

/-- The stype code. -/
def stypeCode (t : SegType) : Nat :=
  match t with
  | .data => 0
  | .msg => 1
  | .cack => 2
  | .sync => 3
  | .key => 4
  | .other => 5

/-- The stype of a code; the others are reserved. -/
def stypeOf (n : Nat) : SegType :=
  match n with
  | 0 => .data
  | 1 => .msg
  | 2 => .cack
  | 3 => .sync
  | 4 => .key
  | _ => .other

/-- Does a segment take a course sequence (R272)? -/
def Sequenced (t : SegType) : Bool := t == .data || t == .msg

/-- The 256 B payload of a segment: the course header, then its data. -/
def segBytes (s : Segment) : List Byte :=
  let len := if Sequenced s.stype then s.data.length else 0
  leBytes 4 s.cseq ++
  leBytes 4 (stypeCode s.stype + 2 ^ 3 * clsBit s.cls + 2 ^ 4 * b2n s.sof + 2 ^ 5 * b2n s.eof + 2 ^ 6 * (len % 256) +
    2 ^ 14 * (s.hops % 16) + 2 ^ 18 * (s.dstPort % 64)) ++
  leBytes 4 (s.origin % 128) ++ leBytes 4 0 ++ (s.data ++ List.replicate (240 - s.data.length) 0#8).take 240

/-- The segment in a payload; the fields that the flit header carries are added by the link. -/
def segOf (bs : List Byte) : Segment :=
  let w := fieldAt bs 4 4
  let t := stypeOf (w % 8)
  { cseq := fieldAt bs 0 4, stype := t, cls := if bitOf w 3 then .response else .request, sof := bitOf w 4, eof := bitOf w 5,
    hops := bits w ⟨14, 4⟩, dstPort := bits w ⟨18, 6⟩, origin := fieldAt bs 8 4 % 128,
    data := (bs.drop 16).take (if Sequenced t then min 240 (bits w ⟨6, 8⟩) else 240) }

end Sys2Proof.Machine
end

