-- ==== Sys2Proof/Machine/Switch.lean ====
section
/-! DEFINITION. The switch core (R37-R61): buffer accounting and credits, virtual output queues, the matcher and the
tile arbiter, multicast, mirror copies and samples; and the crossing of one cell time. -/

namespace Sys2Proof.Machine

/-! ### Ports, tiles and crossbar ports -/

/-- The header of a TLP as the logs take it (R220): in the format of FLIT mode where the port's link runs in it. -/
def Base.header (b : Base) (p : Nat) (t : Tlp) : List Nat :=
  if b.isSet (Reg.PRT_STATUS p) F.PRT_STATUS_flit then flitHeader t else tlpHeader t

/-- Is the port contained (R217)? -/
def Base.contained (b : Base) (p : Nat) : Bool := b.isSet (Reg.PRT_STATUS p) F.PRT_STATUS_contained

/-- The first lane of a port (R225), by the lanes' own port fields. -/
def Base.firstLane (b : Base) (p : Nat) : Nat :=
  ((List.range 256).find? (fun l => b.rd (Reg.SER_STATUS l) F.SER_STATUS_port == p)).getD 0

/-- The crossbar port of a port: its tile, the even one of an x16 pair (R23, R226). -/
def Base.tileOf (b : Base) (p : Nat) : Nat := b.firstLane p / 8

/-- The ports whose cells use crossbar port t, in ascending order. -/
def Base.portsOn (b : Base) (t : Nat) : List Nat :=
  (List.range 64).filter (fun p => b.portRole p != 0 && b.tileOf p == t)

/-- The ports that have a lane on a tile: a wide port has lanes on two (R226). -/
def Base.portsTouch (b : Base) (t : Nat) : List Nat :=
  (List.range 64).filter (fun p => b.portRole p != 0 &&
    (List.range 8).any (fun i => b.rd (Reg.SER_STATUS (8 * t + i)) F.SER_STATUS_port == p))

/-- The downstream port that serves shelf slot n (R214). -/
def Base.slotPort (b : Base) (n : Nat) : Option Nat :=
  (List.range 64).find? (fun q => b.portRole q == 2 && b.rd (Reg.PRT_CFG q) F.PRT_CFG_slot == n)

/-- Is the crossbar port of a tile stopped (R246)? -/
def Base.gated (b : Base) (t : Nat) : Bool := decide (t < 32) && b.isSet (Reg.SER_TILE_STATUS t) F.SER_TILE_STATUS_gated

/-- The crossbar port of an accounting source (R48): ports by their tile, then 32-40; 73 is the mirror port. -/
def Base.xpOf (b : Base) (a : Nat) : Nat := if a < 64 then b.tileOf a else if a < 73 then a - 32 else 41

/-! ### Frames and their cells -/

/-- Cells a frame of `n` bytes occupies (R39). -/
def cellsOf (n : Nat) : Nat := max 1 (cdiv n 256)

/-- The cells of a frame: one if it is cut to its first cell. -/
def Frame.cells (f : Frame) : Nat := if f.trunc then 1 else cellsOf f.bytes

/-- The virtual channel of a TLP (R38): 0 P, 1 NP, 2 CPL. -/
def tlpVc (t : Tlp) : Nat :=
  match t.kind with
  | .memWrite | .msg => 0
  | .cpl => 2
  | _ => 1

/-- The bytes that a frame's cells carry (R37, R39): those of the flit, of what leaves for another member, or of the TLP; a truncated copy
has the first cell's. -/
def Frame.content (f : Frame) : List Byte :=
  let all := match f.transit, f.bond with
    | some s, _ => segBytes s
    | none, some x => x.data
    | none, none => tlpWire f.tlp
  if f.trunc then all.take 256 else all

/-- Valid data bytes of cell `j` of a frame (R39): every cell but the last is full. -/
def Frame.cellLen (f : Frame) (j : Nat) : Nat := if j + 1 < f.cells then 256 else f.bytes - 256 * j

/-- Bits [39:0] of the sideband word of cell `j` of a frame (R38). A multicast frame names its group in dst_xp, and no egress port in
dst_sub (DESIGN CHOICE, log entry 39: R38 gives dst_sub for an egress port and a multicast frame has no single one). -/
def Frame.sideLow (f : Frame) (j : Nat) : Nat :=
  let sub := fun (xp s : Nat) => if xp < 32 then s % 64 else if 36 ≤ xp && xp < 40 then s % 4 else 0
  (if f.mc then f.group else f.dstXp) % 64 + 2 ^ 6 * b2n f.mc + 2 ^ 7 * (if f.mc then 0 else sub f.dstXp f.dstSub) +
  2 ^ 13 * (f.srcXp % 64) + 2 ^ 19 * sub f.srcXp f.srcSub + 2 ^ 25 * (f.vc % 4) + 2 ^ 27 * b2n (j == 0) +
  2 ^ 28 * b2n (j + 1 == f.cells) + 2 ^ 29 * ((f.cellLen j - 1) % 256) + 2 ^ 37 * b2n f.poison + 2 ^ 38 * b2n f.copy +
  2 ^ 39 * b2n f.trunc

/-- The 48-bit sideband word of cell `j` of a frame (R38), with its check bits (a free value: log entry 4). -/
def Frame.sideband (f : Frame) (j : Nat) : BitVec 48 :=
  let lo := BitVec.ofNat 40 (f.sideLow j)
  BitVec.ofNat 48 (lo.toNat + 2 ^ 40 * (Config.secded lo).toNat)

/-- The virtual channel whose count a frame is charged to (R48): its own, but the request VC of a Camtex link stands as P (R256). -/
def Frame.chargeVc (f : Frame) : Nat := if f.cam && f.vc == 1 then 0 else f.vc

/-- The line of virtual output queues that a frame waits in: its source's, and in a hod group its hod's own (R102), numbered from 256. -/
def Frame.line (f : Frame) : Nat := if 68 ≤ f.src && f.src < 72 then 256 + 4 * (f.src - 68) + f.srcSub % 4 else f.src

/-- The frame with an id. -/
def Switch.frame (w : Switch) (id : Nat) : Option Frame := w.frames.find? (fun f => f.id == id)

/-- Replace a stored frame. -/
def Switch.setFrame (w : Switch) (f : Frame) : Switch :=
  { w with frames := w.frames.map (fun g => if g.id == f.id then f else g) }

/-! ### Buffer accounting (R48-R50) -/

/-- Cells reserved for a port's released credits (R51): one per header credit and one per 16 data credits. A group of 16 that the
partner has partly used keeps its cell until it is used up (DESIGN CHOICE, log entry 39: the rule counts whole groups). -/
def Credit.cells (c : Credit) : Nat := c.hdrOut + cdiv c.dataOut 16

/-- U[a][v] of R48, by i = 3 * a + v. -/
def Switch.use (w : Switch) (i : Nat) : Nat :=
  tget w.stored i + tget w.reserved i +
    (w.credits.foldl (fun n c => if 3 * c.port + c.vc == i then n + c.cells else n) 0)

/-- The shared pool size S of R48. -/
def Switch.sharedSize (w : Switch) : Nat :=
  Config.cells - ((w.gmin.foldl (fun n x => n + x.2) 0) + w.gMirror)

/-- The shared use Su of R48. -/
def Switch.sharedUse (w : Switch) : Nat :=
  (List.range 219).foldl (fun n i => n + (w.use i - tget w.gmin i)) 0

/-- The admission test of R49; alpha = 2^(alpha_exp - 3), compared without rounding. -/
def Switch.admits (w : Switch) (alphaExp i c : Nat) : Bool :=
  let aboveNow := w.use i - tget w.gmin i
  let aboveNew := w.use i + c - tget w.gmin i
  let need := aboveNew - aboveNow
  let su := w.sharedUse
  let s := w.sharedSize
  if need = 0 then true
  else decide (su + need ≤ s) && decide (8 * aboveNew ≤ 2 ^ alphaExp * (s - su))

/-- The threshold exponent now in force. -/
def Base.alphaExp (b : Base) : Nat := b.rd Reg.BUF_CFG F.BUF_CFG_alpha_exp

/-- A high-water mark takes a depth that exceeds it (R72). -/
def Base.mark (b : Base) (a : Nat) (f : Fld) (depth : Nat) : Base :=
  if b.rd a f < depth then b.wr a f depth else b

/-- The marks of a charge, of the shared pool and of the mirror pool follow a change (R72). -/
def Mod.markUse (m : Mod) (i : Nat) : Mod :=
  let b := if i < 219 then m.base.mark (Reg.SCH_BUF_HWM i) F.SCH_BUF_HWM_mark (m.sw.use i) else m.base
  let b := b.mark (Reg.SCH_BUF_HWM 219) F.SCH_BUF_HWM_mark m.sw.sharedUse
  { m with base := b.mark (Reg.SCH_BUF_HWM 220) F.SCH_BUF_HWM_mark m.sw.mirrorUse }

/-- Admission is asked and counted (R49, R313): 0x080 cells admitted, 0x081 refusals, by accounting index. -/
def Mod.askAdmit (m : Mod) (i c : Nat) : Mod × Bool :=
  if m.sw.admits m.base.alphaExp i c then ({ m with base := m.base.occ 0x080 (i / 3) none c }, true)
  else ({ m with base := m.base.occ 0x081 (i / 3) none 1 }, false)

/-! ### Credits (R51) -/

/-- The credit record of a port and virtual channel. -/
def Switch.credit (w : Switch) (p v : Nat) : Credit :=
  (w.credits.find? (fun c => c.port == p && c.vc == v)).getD { port := p, vc := v }

/-- Put a credit record. -/
def Switch.setCredit (w : Switch) (c : Credit) : Switch :=
  { w with credits := w.credits.filter (fun x => !(x.port == c.port && x.vc == c.vc)) ++ [c] }

/-- A PCI Express port asks admission for the header credits it has to give back and for its data credits in
multiples of 16, but for the initial advertisement, and releases them when admitted; a refused update is withheld (R51). What is
pending of one port and virtual channel is asked for as one update (DESIGN CHOICE, log entry 39: the rule does not say how releases are
grouped). -/
def Mod.releaseCredit (m : Mod) (p v : Nat) : Mod :=
  let c := m.sw.credit p v
  let d := if c.first then c.dataPend else 16 * (c.dataPend / 16)
  if c.hdrPend = 0 && d = 0 then m
  else
    let (m, ok) := m.askAdmit (3 * p + v) (c.hdrPend + cdiv d 16)
    if ok then
      let m := { m with
        sw := m.sw.setCredit { c with hdrOut := c.hdrOut + c.hdrPend, hdrPend := 0, dataOut := c.dataOut + d,
                                      dataPend := c.dataPend - d, first := false },
        base := if m.base.portRole p == 4 then m.base else m.base.emit (.credits p v c.hdrPend d) }
      m.markUse (3 * p + v)
    else m

/-- Every withheld credit update is asked for again, in ascending port and virtual channel (R51). -/
def Mod.retryCredits (m : Mod) : Mod :=
  m.sw.credits.foldl (fun m c => m.releaseCredit c.port c.vc) m

/-- An arriving frame spends one header credit and one data credit for every 16 B of payload; what it spent waits to
be given back (R51). A Camtex flit spends one flit credit. -/
def Switch.spendCredit (w : Switch) (p v dataBytes : Nat) (flit : Bool) : Switch :=
  let c := w.credit p v
  let d := if flit then 0 else cdiv dataBytes 16
  w.setCredit { c with hdrOut := c.hdrOut - 1, dataOut := c.dataOut - d, hdrPend := c.hdrPend + 1,
                       dataPend := c.dataPend + d }

/-! ### Storing a frame and giving its cells back -/

/-- Charge cells to a source and VC (R48); the mirror port is charged to the mirror pool only. -/
def Mod.charge (m : Mod) (a v c : Nat) : Mod :=
  if a < 73 then
    ({ m with sw := { m.sw with stored := tset m.sw.stored (3 * a + v) (tget m.sw.stored (3 * a + v) + c) } }).markUse
      (3 * a + v)
  else ({ m with sw := { m.sw with mirrorUse := m.sw.mirrorUse + c } }).markUse 219

/-- Take a charge back (R50). -/
def Mod.uncharge (m : Mod) (a v c : Nat) : Mod :=
  if a < 73 then
    { m with sw := { m.sw with stored := tset m.sw.stored (3 * a + v) (tget m.sw.stored (3 * a + v) - c) } }
  else { m with sw := { m.sw with mirrorUse := m.sw.mirrorUse - c } }

/-- The traffic class that SCH_PARK_TC gives a park entry's class: 0 saffron, 1 mace, 2 anise (R62). -/
def Base.parkTc (b : Base) (cls : Nat) : Nat := bits (b.word Reg.SCH_PARK_TC).toNat ⟨4 * (cls % 3), 3⟩

/-- A frame takes its record when it is admitted (R62, R72): a park engine's frame the class and meter that the registers now give. -/
def Base.recordOf (b : Base) (f : Frame) : Frame :=
  match f.park with
  | none => f
  | some (cls, slot) =>
    { f with tc := b.parkTc cls, meter := slot.bind (fun n =>
        if b.isSet (Reg.SCH_SHELF_METER n) F.SCH_SHELF_METER_enable then some (b.rd (Reg.SCH_SHELF_METER n) F.SCH_SHELF_METER_meter)
        else none) }

/-- Put a frame and its one copy into the virtual output queue of its egress (R40); its cells are charged. -/
def Mod.store (m : Mod) (f : Frame) : Mod :=
  let id := m.sw.nextId
  let f := { f with id := id, stamp := m.base.ns }
  let m := m.charge f.src f.chargeVc f.cells
  { m with sw := { m.sw with frames := m.sw.frames ++ [f], nextId := id + 1,
                             xfers := m.sw.xfers ++ [{ frame := id, eg := f.dstXp, sub := f.dstSub }] } }

/-! ### Mirror sessions and the sampler (R57-R60) -/

/-- A discard of session `i` (4: the sampler): counted, and an event at the first and then once per 1 ms (R58). -/
def Mod.mirrorDrop (m : Mod) (i : Nat) : Mod :=
  let b := m.base.bump (if i < 4 then Reg.XBR_MIR_DROP i else Reg.XBR_SAMPLE_DROP)
  let b := b.occ 0x045 0 none 1
  let first := match m.sw.mirrorEvent.lookup i with
    | none => true
    | some t => decide (t + ms ≤ b.now)
  if first then
    { m with base := b.raise { group := 3, bit := 2 + i }, sw := { m.sw with mirrorEvent := tset m.sw.mirrorEvent i b.now } }
  else { m with base := b }

/-- A copy is made whole in the mirror pool or discarded (R58). -/
def Mod.makeCopy (m : Mod) (i : Nat) (f : Frame) (dstXp dstSub : Nat) (trunc : Bool) : Mod :=
  let c := { f with src := 73, srcXp := 41, srcSub := 0, dstXp := dstXp, dstSub := dstSub, mc := false, vc := 3, tc := 0,
                    meter := none, copy := true, trunc := trunc, bytes := if trunc then min 256 f.bytes else f.bytes, refs := 1, cam := false,
                    own := none, park := none, entry := none }
  if m.sw.gMirror < m.sw.mirrorUse + c.cells then m.mirrorDrop i
  else (let m := m.store c; { m with base := m.base.occ 0x044 0 none 1 })

/-- Does session `i` copy frame `f` at this tap (R57)? -/
def Base.mirrors (b : Base) (i : Nat) (f : Frame) (src : Nat) (egress : Bool) : Bool :=
  let a := Reg.XBR_MIR_CFG i
  let flow := b.isSet a F.XBR_MIR_CFG_flow
  let dir := b.rd a F.XBR_MIR_CFG_dir
  let want := b.rd a F.XBR_MIR_CFG_src
  let fl := (b.word (Reg.XBR_MIR_FLOW i)).toNat
  let mask := fl / 65536
  b.isSet a F.XBR_MIR_CFG_enable && !b.isSet a F.XBR_MIR_CFG_bad && !f.copy &&
  (if egress then dir / 2 == 1 && !flow else dir % 2 == 1) &&
  (want == src || (flow && want == 0x7F && decide (src < 64))) &&
  (!flow || (f.tlp.rid &&& mask) == (fl % 65536 &&& mask))

/-- The mirror sessions tap a frame at its source (ingress) or its egress port (R57). -/
def Mod.tap (m : Mod) (f : Frame) (src : Nat) (egress : Bool) : Mod :=
  (List.range 4).foldl (fun m i =>
    if m.base.mirrors i f src egress then
      let d := m.base.rd (Reg.XBR_MIR_CFG i) F.XBR_MIR_CFG_dst_port
      m.makeCopy i f (m.base.tileOf d) d (m.base.isSet (Reg.XBR_MIR_CFG i) F.XBR_MIR_CFG_trunc)
    else m) m

/-- The sampler counts a frame that enters a tile port, and takes it when its gap has run out (R60); a random gap is
a free value of 1 to 2N - 1. The gap before the first sample is N in either mode, a gap once drawn stands until its sample, and a
change of the period or the mode keeps the count (DESIGN CHOICE, log entry 39: the rule draws gaps after samples only). -/
def Mod.sampleTap (m : Mod) (f : Frame) : Mod :=
  let n := m.base.rd Reg.XBR_SAMPLE_CFG F.XBR_SAMPLE_CFG_period
  if n = 0 then m
  else
    let random := m.base.isSet Reg.XBR_SAMPLE_CFG F.XBR_SAMPLE_CFG_random
    let gap := if random && m.sw.sampleGap != 0 then m.sw.sampleGap else n
    let k := m.sw.sampleCount + 1
    if k < gap then { m with sw := { m.sw with sampleCount := k } }
    else
      let (i, b) := m.base.fresh
      let next := if random then (Config.freeGap i).toNat % (2 * n - 1) + 1 else 0
      let m := { m with base := if random then b else m.base, sw := { m.sw with sampleCount := 0, sampleGap := next } }
      m.makeCopy 4 f 40 0 true

/-- A frame has come into the buffer whole (R40, R57, R60): the sessions tap it at its source, and at a tile port the sampler counts
it. -/
def Mod.tapIn (m : Mod) (f : Frame) : Mod :=
  let m := m.tap f f.src false
  if f.src < 64 then m.sampleTap f else m

/-- An ingress frame becomes eligible (R40): it is stored, tapped and sampled. -/
def Mod.admitIngress (m : Mod) (f : Frame) : Mod := (m.store f).tapIn f

/-! ### Admission of internal sources (R52) -/

/-- Frames of internal sources that wait for admission are asked for again, oldest first; a line whose oldest frame
is refused waits on (R52). -/
def Mod.retryWaiting (m : Mod) : Mod :=
  (m.sw.waiting.foldl (fun (acc : Mod × List Nat) f =>
    let (m, blocked) := acc
    if blocked.contains f.line then acc
    else
      let (m, ok) := m.askAdmit (3 * f.src + f.vc) f.cells
      if ok then
        (({ m with sw := { m.sw with waiting := m.sw.waiting.erase f } }).admitIngress (m.base.recordOf f), blocked)
      else (m, f.line :: blocked)) (m, [])).1

/-- Cells were given back: whoever waits for admission asks again. -/
def Mod.afterRelease (m : Mod) : Mod := m.retryWaiting.retryCredits

/-- A copy of a frame is done with; the last one gives the frame's cells back (R50). -/
def Mod.dropRef (m : Mod) (id : Nat) : Mod :=
  match m.sw.frame id with
  | none => m
  | some f =>
    if f.refs ≤ 1 then
      let m := { m with sw := { m.sw with frames := m.sw.frames.filter (fun g => g.id != id) } }
      (m.uncharge f.src f.chargeVc f.cells).afterRelease
    else { m with sw := m.sw.setFrame { f with refs := f.refs - 1 } }

/-- An internal source hands a frame to its crossbar port: admitted at once, or it waits (R52). Frames of one source, and of one hod in a
group, wait in one line whatever their virtual channel (DESIGN CHOICE, log entry 39: the rule does not say what a refusal holds back). -/
def Mod.inject (m : Mod) (f : Frame) : Mod :=
  if m.sw.waiting.any (fun g => g.line == f.line) then { m with sw := { m.sw with waiting := m.sw.waiting ++ [f] } }
  else
    let (m, ok) := m.askAdmit (3 * f.src + f.vc) f.cells
    if ok then m.admitIngress (m.base.recordOf f) else { m with sw := { m.sw with waiting := m.sw.waiting ++ [f] } }

/-- An internal source that holds its own requests asks for a frame's cells: it may send it now, or keeps it and asks again (R52). -/
def Mod.askOffer (m : Mod) (f : Frame) : Mod × Bool :=
  if m.sw.waiting.any (fun g => g.line == f.line) then (m, false) else m.askAdmit (3 * f.src + f.vc) f.cells

/-- A frame that ends at its ingress (R37, R40): a request to the control endpoint, a completion for a queue engine, a segment for the
bond logic, or one that no member takes. It holds its cells until that unit has taken it, within one command; it is tapped and
sampled as any other. -/
def Mod.takeIn (m : Mod) (f : Frame) : Mod :=
  let f := { f with stamp := m.base.ns }
  let m := (m.charge f.src f.chargeVc f.cells).tapIn f
  (m.uncharge f.src f.chargeVc f.cells).afterRelease

/-! ### Answers to other members (R290) -/

/-- A completion for a requester at another member: to the port that its request came in on there, or to a unit of that module, where
`gone` marks it as a port's that is gone (R218; log entry 10). -/
def backMsg (path origin p : Nat) (gone : Bool) (c : Tlp) : BondMsg :=
  let c := tlpSized c
  { dstPath := path, cls := .response, dstPort := if origin < 64 then origin else 63, origin := p, vc := 2, poison := c.ep,
    data := if origin < 64 then tlpWire c else leBytes 4 (if gone then 8 else 0) ++ tlpWire c }

/-- What a module sends back for a frame of another member that it cannot deliver (R290): a completion of a non-posted
request, all ones to a host (R218) or UR, or an ERR_REPORT of a posted one, cause 2 (message form: log entry 10). -/
def farAnswer (path origin p : Nat) (f : Frame) (contained : Bool) : BondMsg :=
  let ones := contained && decide (origin < 64)
  if f.vc = 1 then
    let write := f.tlp.kind == .ioWrite || f.tlp.kind == .cfgWrite
    backMsg path origin p true { kind := .cpl, route := .id f.tlp.rid, rid := f.tlp.rid, tag := f.tlp.tag, len := f.tlp.len,
                                 status := if ones then 0 else 1,
                                 data := if ones && !write then List.replicate f.tlp.len 0xFF#8 else [] }
  else
    { dstPath := path, stype := .msg, origin := p,
      data := leBytes 4 (6 + 2 ^ 8 * origin) ++ leBytes 4 2 ++ (tlpWire { f.tlp with data := [] }).take 16 }

/-! ### Multicast (R55, R56) -/

/-- A failed member delivery: counted, logged and raised (R56); `cause` as XBR_MC_FAIL_LOG encodes it. -/
def Base.mcFail (b : Base) (group port cause : Nat) : Base :=
  let b := b.bump Reg.XBR_MC_FAIL_CNT
  let b := b.setWord Reg.XBR_MC_FAIL_LOG
    (BitVec.ofNat 32 (group % 64 + 2 ^ 6 * (port % 64) + 2 ^ 12 * (cause % 4) + 2 ^ 31))
  b.raise { group := 3, bit := 7, detail := group % 64 + 2 ^ 6 * (port % 64) + 2 ^ 12 * (cause % 4) + 2 ^ 31 }

/-- Why a member cannot take a copy at enqueue, if it cannot (R56): disabled or of no partition (an analysis or Camtex port), contained,
or down. -/
def Base.mcRefusal (b : Base) (p : Nat) : Option Nat :=
  if b.portRole p != 1 && b.portRole p != 2 then some 0
  else if b.contained p then some 2
  else if !b.linkUp p then some 1
  else none

/-- A multicast frame is charged once and joins the queue of every member that can take it; the ingress port is never
one of them (R55, R56). A frame that no member can take ends at its ingress. -/
def Mod.storeMulticast (m : Mod) (f : Frame) : Mod :=
  let vec := m.base.word64 (Reg.XBR_MC_VEC f.group)
  let members := (List.range 64).filter (fun p => bitOf vec p && p != f.src)
  let m := members.foldl (fun m p =>
    match m.base.mcRefusal p with
    | some c => { m with base := m.base.mcFail f.group p c }
    | none => m) m
  let live := members.filter (fun p => (m.base.mcRefusal p).isNone)
  if live.isEmpty then m.takeIn { f with mc := true }
  else
    let id := m.sw.nextId
    let f := { f with id := id, mc := true, refs := live.length, stamp := m.base.ns }
    let m := m.charge f.src f.chargeVc f.cells
    let xs := live.map (fun p => ({ frame := id, eg := m.base.tileOf p, sub := p } : Xfer))
    let m := { m with sw := { m.sw with frames := m.sw.frames ++ [f], nextId := id + 1, xfers := m.sw.xfers ++ xs } }
    m.tapIn f

/-! ### Virtual output queues and the choice of a channel (R43, R46) -/

/-- The limit on queued cells of a VC; 0 acts as 1 (R43). -/
def Base.egqLimit (b : Base) (v : Nat) : Nat := max 1 (bits (b.word Reg.XBR_EGQ_LIMIT).toNat ⟨8 * v, 8⟩)

/-- Does a copy go to the same egress port as another: the same port of a tile, or the same internal unit? -/
def sameEgress (eg sub : Nat) (x : Xfer) : Bool := x.eg == eg && (decide (32 ≤ eg) || x.sub == sub)

/-- Cells that an egress port holds for a VC (R43): frames that have crossed to a tile port's queues, and cells of frames still crossing;
an internal unit takes a frame as its last cell crosses. -/
def Switch.queuedCells (w : Switch) (eg sub v : Nat) : Nat :=
  (if eg < 32 then w.egress.foldl (fun n e =>
    match w.frame e.frame with
    | some f => if e.port == sub && f.vc == v then n + f.cells else n
    | none => n) 0 else 0) +
  (w.xfers.foldl (fun n x =>
    match w.frame x.frame with
    | some f => if sameEgress eg sub x && f.vc == v then n + x.sent else n
    | none => n) 0)

/-- The oldest copy of a source's line for an egress on a VC. -/
def Switch.voqHead (w : Switch) (a e v : Nat) : Option Xfer :=
  w.xfers.find? (fun x => x.eg == e && (match w.frame x.frame with
    | some f => f.line == a && f.vc == v
    | none => false))

/-- Is there a P copy of the source to the same egress port ahead of copy `x` (the ordering rule of R46)? -/
def Switch.olderP (w : Switch) (a : Nat) (x : Xfer) : Bool :=
  (w.xfers.takeWhile (fun y => y != x)).any (fun y => y.eg == x.eg && y.sub == x.sub && (match w.frame y.frame with
    | some f => f.line == a && f.vc == 0
    | none => false))

/-- The candidate copy of a source's line for an egress on a VC (R43, R46). -/
def Mod.candidate (m : Mod) (a e v : Nat) : Option Xfer :=
  match m.sw.voqHead a e v with
  | none => none
  | some x =>
    let ok := decide (0 < x.sent) || decide (m.sw.queuedCells x.eg x.sub v < m.base.egqLimit v)
    let ord := v == 0 || v == 3 || !m.sw.olderP a x
    if ok && ord then some x else none

/-- The VC a source sends to an egress: P, NP, CPL in rotation after the one it last sent; MS only when no other is a
candidate (R46). Before a source has sent a cell to the egress the rotation starts with P (DESIGN CHOICE, log entry 39: the rule names
no start). -/
def Mod.chooseVc (m : Mod) (a e : Nat) : Option Xfer :=
  let last := ((m.sw.lastVc.find? (fun t => t.1 == a && t.2.1 == e)).map (fun t => t.2.2)).getD 2
  let order := [(last + 1) % 3, (last + 2) % 3, last % 3, 3]
  order.findSome? (fun v => m.candidate a e v)

/-! ### The matcher (R44) -/

/-- The first of `n` numbers, searching upward from `from` and wrapping, that a test picks (R44). -/
def searchUp (n start : Nat) (p : Nat → Bool) : Option Nat :=
  (List.range n).findSome? (fun k => let i := (start + k) % n; if p i then some i else none)

/-- The matcher's working state: pairs (ingress, egress, round). -/
structure Match where
  ing : Nat
  eg : Nat
  round : Nat
  deriving DecidableEq, Repr

/-- One request-grant-accept round (R44). -/
def Mod.matchRound (req : List (Nat × Nat)) (round : Nat) (acc : Mod × List Match) : Mod × List Match :=
  let (m, ms0) := acc
  let inDone := fun i => ms0.any (fun x => x.ing == i)
  let egDone := fun e => ms0.any (fun x => x.eg == e)
  let grants := (List.range 41).filterMap (fun e =>
    if egDone e then none
    else (searchUp 42 (m.base.rd (Reg.XBR_PTR e) F.XBR_PTR_gptr)
      (fun i => !inDone i && req.contains (i, e))).map (fun i => (i, e)))
  (List.range 42).foldl (fun (acc : Mod × List Match) i =>
    let (m, l) := acc
    if inDone i then acc
    else
      match searchUp 42 (m.base.rd (Reg.XBR_PTR i) F.XBR_PTR_aptr) (fun e => grants.contains (i, e)) with
      | none => acc
      | some e =>
        let b := if round = 1 then
          (m.base.wr (Reg.XBR_PTR e) F.XBR_PTR_gptr ((i + 1) % 42)).wr (Reg.XBR_PTR i) F.XBR_PTR_aptr ((e + 1) % 42)
          else m.base
        ({ m with base := b }, l ++ [⟨i, e, round⟩])) (m, ms0)

/-- The requests of R43, sampled once. -/
def Mod.requests (m : Mod) : List (Nat × Nat) :=
  (m.sw.xfers.filterMap (fun x =>
    match m.sw.frame x.frame with
    | none => none
    | some f => if !m.base.gated f.srcXp && !m.base.gated x.eg && (m.chooseVc f.line x.eg).isSome then some (f.srcXp, x.eg)
                else none)).eraseDups

/-- The tile arbiter of R42 chooses the port on tile `t` that sends to `e`. -/
def Mod.tileArbiter (m : Mod) (t e : Nat) : Mod × Option Nat :=
  let ports := m.base.portsOn t
  let elig := ports.filter (fun p => (m.chooseVc p e).isSome)
  let wt := fun p => max 1 (m.base.rd (Reg.XBR_TILE_WEIGHT p) F.XBR_TILE_WEIGHT_weight)
  let w0 := m.sw.wcount
  let w1 := if elig.all (fun p => tget w0 p == 0) then ports.foldl (fun w p => tset w p (wt p)) w0 else w0
  let start := tget m.sw.tptr t
  let order := ports.filter (fun p => decide (start ≤ p)) ++ ports.filter (fun p => decide (p < start))
  match order.find? (fun p => elig.contains p && decide (0 < tget w1 p)) with
  | none => (m, none)
  | some p =>
    let after := (ports.find? (fun q => decide (p < q))).getD (ports.headD 0)
    ({ m with sw := { m.sw with wcount := tset w1 p (tget w1 p - 1), tptr := tset m.sw.tptr t after } }, some p)

/-- The hod of group g that sends its next cell to `e` (R102): round robin per cell among those that have one ready. -/
def Mod.hodArbiter (m : Mod) (g e : Nat) : Mod × Option Nat :=
  let start := tget m.sw.hodTurn g
  match searchUp 4 start (fun i => (m.chooseVc (256 + 4 * g + i) e).isSome) with
  | none => (m, none)
  | some i => ({ m with sw := { m.sw with hodTurn := tset m.sw.hodTurn g ((i + 1) % 4) } }, some (256 + 4 * g + i))

/-- The line on crossbar port `i` that sends a cell to `e` (R42, R102). -/
def Mod.lineFor (m : Mod) (i e : Nat) : Mod × Option Nat :=
  if i < 32 then m.tileArbiter i e
  else if 36 ≤ i && i < 40 then m.hodArbiter (i - 36) e
  else (m, some (if i < 41 then i + 32 else 73))

/-- What an internal unit makes of a frame that has crossed to it: a completion goes to the read that waits for it (R102), the management
cores take a sample's record (R60; its sideband word is that of the copy as it crossed: DEDUCED, log entry 39), and any other frame is
handed over (R43). -/
def Mod.unitTake (m : Mod) (xp : Nat) (f : Frame) : Mod :=
  match f.own with
  | some (o, st) =>
    if f.errFrame then { m with base := m.base.emit (.toUnit xp f) }
    else { m with ended := m.ended ++ [(o, ⟨if st == .ok && f.poison then .poisoned else st, f.tlp.data⟩)] }
  | none =>
    { m with base := m.base.emit (if f.copy && f.src == 73 && xp == 40 then .sample f.content (f.sideband 0) f.stamp else .toUnit xp f) }

/-- A frame's last cell has crossed: an internal unit takes it, a port's egress queue holds it (R43, R63); a member that went down or was
contained meanwhile disposes of its multicast copy (R56). -/
def Mod.arrive (m : Mod) (x : Xfer) : Mod :=
  match m.sw.frame x.frame with
  | none => m
  | some f =>
    if 32 ≤ x.eg then (m.unitTake x.eg f).dropRef f.id
    else if x.doomed then
      ({ m with base := (m.base.bump (Reg.PRT_CNT x.sub 2)).mcFail f.group x.sub 3 } : Mod).dropRef f.id
    else
      let w := { m.sw with egress := m.sw.egress ++ [⟨f.id, x.sub, m.sw.nextOrder⟩], nextOrder := m.sw.nextOrder + 1 }
      let q := 8 * x.sub + (if f.copy then 0 else f.tc)
      let depth := w.egress.foldl (fun n e =>
        match w.frame e.frame with
        | some g => if e.port == x.sub && (if g.copy then 0 else g.tc) == q % 8 then n + g.bytes else n
        | none => n) 0
      { m with sw := w, base := m.base.mark (Reg.SCH_Q_HWM q) F.SCH_Q_HWM_mark depth }

/-- One cell of a copy crosses (R44 step 5). -/
def Mod.crossCell (m : Mod) (a : Nat) (x : Xfer) : Mod :=
  match m.sw.frame x.frame with
  | none => m
  | some f =>
    let b := (m.base.occ 0x040 x.eg none 1).occ 0x041 f.srcXp none 1
    let lv := if f.vc = 3 then m.sw.lastVc
      else (a, x.eg, f.vc) :: m.sw.lastVc.filter (fun t => !(t.1 == a && t.2.1 == x.eg))
    let m := { m with base := b, sw := { m.sw with lastVc := lv } }
    if x.sent + 1 < f.cells then
      { m with sw := { m.sw with xfers := m.sw.xfers.map (fun y => if y == x then { x with sent := x.sent + 1 } else y) } }
    else ({ m with sw := { m.sw with xfers := m.sw.xfers.filter (fun y => y != x) } }).arrive x

/-- A matched pair sends one cell: the arbiter of its ingress port and the VC choice pick it (R42, R46, R102). -/
def Mod.sendCell (m : Mod) (p : Match) : Mod :=
  match m.lineFor p.ing p.eg with
  | (m, none) => m
  | (m, some a) =>
    match m.chooseVc a p.eg with
    | none => m
    | some x => m.crossCell a x

/-- A pointer reset takes effect at the next cell time (XBR_CTRL.ptr_reset). -/
def Mod.applyPtrReset (m : Mod) : Mod :=
  if m.sw.ptrReset then
    { m with base := (List.range 42).foldl (fun b i => b.setWord (Reg.XBR_PTR i) 0#32) m.base,
             sw := { m.sw with wcount := [], tptr := [], ptrReset := false } }
  else m

/-- One cell time (R44): the matching of XBR_CTRL.rounds rounds over requests sampled once, then one cell crosses per
matched pair. -/
def Mod.cellSlot (m : Mod) : Mod :=
  let m := m.applyPtrReset
  let m := if m.sw.sharedSize ≤ m.sw.sharedUse then { m with base := m.base.occ 0x082 0 none 1 } else m
  let req := m.requests
  let rounds := m.base.rd Reg.XBR_CTRL F.XBR_CTRL_rounds
  let (m, pairs) := (List.range rounds).foldl (fun acc r => Mod.matchRound req (r + 1) acc) (m, [])
  let b := (List.range 41).foldl (fun b e =>
    if req.any (fun r => r.2 == e) && !pairs.any (fun p => p.eg == e) then b.occ 0x042 e none 1 else b) m.base
  let b := pairs.foldl (fun b p => if 1 < p.round then b.occ 0x043 p.eg none 1 else b) b
  pairs.foldl Mod.sendCell { m with base := b }

/-! ### Errors in stored cells (R41) -/

/-- An ECC error in a stored frame: corrected; or the frame is poisoned; or it goes to port 40 as an error frame. -/
def Mod.eccError (m : Mod) (id : Nat) (k : EccKind) : Mod :=
  match k with
  | .correctable => { m with base := (m.base.bump Reg.BUF_ECC_CE).raise { group := 3, bit := 0 } }
  | .data =>
    let b := (m.base.bump Reg.BUF_ECC_UE).raise { group := 3, bit := 1, sev := 1 }
    match m.sw.frame id with
    | none => { m with base := b }
    | some f => { m with base := b, sw := m.sw.setFrame { f with poison := true } }
  | .sideband =>
    let b := (m.base.bump Reg.BUF_ECC_UE).raise { group := 3, bit := 1, sev := 1 }
    match m.sw.frame id with
    | none => { m with base := b }
    | some f =>
      let w := m.sw.setFrame { f with errFrame := true, refs := 1, dstXp := 40, dstSub := 0 }
      { m with base := b, sw := { w with
          xfers := w.xfers.filter (fun x => x.frame != id) ++ [{ frame := id, eg := 40, sub := 0 }],
          egress := w.egress.filter (fun e => e.frame != id) } }

/-! ### The buffer commit (R53) -/

/-- The staged minimums of BUF_MIN, those that are not 0. -/
def Base.stagedMin (b : Base) : List (Nat × Nat) :=
  (List.range 219).filterMap (fun i =>
    let c := b.rd (Reg.BUF_MIN i) F.BUF_MIN_cells
    if c = 0 then none else some (i, c))

/-- A write of 1 to BUF_COMMIT.go: the staged set takes effect if it fits, else error is set and raised; done reads 0
until the commit ends within 1 us (R53). -/
def Mod.bufCommit (m : Mod) : Mod :=
  let g := m.base.stagedMin
  let mir := m.base.rd Reg.BUF_MIRROR_POOL F.BUF_MIRROR_POOL_cells
  let b := (m.base.wr Reg.BUF_COMMIT F.BUF_COMMIT_done 0).arm .bufCommit us
  if (g.foldl (fun n x => n + x.2) 0) + mir ≤ Config.cells then
    let w := { m.sw with gmin := g, gMirror := mir }
    { m with base := b.mark (Reg.SCH_BUF_HWM 219) F.SCH_BUF_HWM_mark w.sharedUse, sw := w }
  else
    { m with base := (b.wr Reg.BUF_COMMIT F.BUF_COMMIT_error 1).raise { group := 3, bit := 8 } }

end Sys2Proof.Machine
end

