-- ==== Sys2Proof/Machine/Lanes.lean ====
section
/-! DEFINITION. The lanes (R224-R245): transmit coefficients, receiver adaptation, the eye index, margining and pattern
checkers; and the gating of PCI Express tiles (R246). -/

namespace Sys2Proof.Machine

/-- The tile of a lane (R224). -/
def laneTile (l : Nat) : Nat := l / 8

/-- Is a tile's protocol family Camtex (R227)? -/
def Base.camTile (b : Base) (t : Nat) : Bool := b.isSet (Reg.SER_TILE_CFG t) F.SER_TILE_CFG_family

/-- Is a tile in test mode (R242)? -/
def Base.inTest (b : Base) (t : Nat) : Bool := b.isSet (Reg.SER_TILE_CTL t) F.SER_TILE_CTL_test

/-! ### Transmit coefficients (R234, R235) -/

/-- Is a transmit setting valid (R234)? -/
def coefOk (pre post : Nat) : Bool := decide (pre ≤ 12) && decide (pre + post ≤ 16)

/-- A setting comes into force: the two coefficients and the main cursor (R234). -/
def Base.setCoef (b : Base) (l pre post : Nat) : Base :=
  let a := Reg.SER_TX_COEF l
  ((b.wr a F.SER_TX_COEF_pre pre).wr a F.SER_TX_COEF_post post).wr a F.SER_TX_COEF_main (48 - pre - post)

/-- A write of SER_TX_COEF (R235): bad is cleared by 1; with override = 1 a valid setting is used, an invalid one is ignored
and sets bad; with override = 0 the coefficients stay training's. -/
def Base.txCoef (b : Base) (l v : Nat) : Base :=
  let a := Reg.SER_TX_COEF l
  let b := if bitOf v 17 then b.wr a F.SER_TX_COEF_bad 0 else b
  let pre := bits v F.SER_TX_COEF_pre
  let post := bits v F.SER_TX_COEF_post
  if !bitOf v 16 then b.wr a F.SER_TX_COEF_override 0
  else if coefOk pre post then (b.wr a F.SER_TX_COEF_override 1).setCoef l pre post
  else b.wr a F.SER_TX_COEF_bad 1

/-! ### The eye index (R237) -/

/-- The index of one sub-eye: min(255, floor(sqrt(4 V H))) (R237). -/
def eyeIndex (v h : Nat) : Nat :=
  (List.range 256).foldl (fun best n => if n * n ≤ 4 * v * h then n else best) 0

/-- The limiting sub-eye of a measurement and its V, H and index: the smallest index, the lowest sub-eye on a tie (R237). -/
def limiting (vs hs : List Nat) : Nat × Nat × Nat × Nat :=
  let all := (List.range (min vs.length hs.length)).map (fun i => (i, vs.getD i 0, hs.getD i 0, eyeIndex (vs.getD i 0) (hs.getD i 0)))
  match all with
  | [] => (0, 0, 0, 0)
  | x :: xs => xs.foldl (fun m y => if y.2.2.2 < m.2.2.2 then y else m) x

/-- SER_EYE takes a result; its paused bit stays (R237, R240). -/
def Base.putEye (b : Base) (l ei v h sub : Nat) : Base :=
  let a := Reg.SER_EYE l
  ((((b.wr a F.SER_EYE_ei ei).wr a F.SER_EYE_v v).wr a F.SER_EYE_h h).wr a F.SER_EYE_sub sub).wr a F.SER_EYE_valid 1

/-- The steps of a scan at which the monitor disagreed at most `thr` times (R237): the opening of a sub-eye. -/
def opening (thr : Nat) (steps : List Nat) : Nat := (steps.filter (fun n => decide (n ≤ thr))).length

/-- What a full measurement finds at a threshold: the limiting sub-eye, its V and H, and the index. -/
def measured (thr : Nat) (scan : List SubEye) : Nat × Nat × Nat × Nat :=
  limiting (scan.map (fun e => opening thr e.volt)) (scan.map (fun e => opening thr e.phase))

/-- The quick index of a scan in steps of 4, each judged over 2^10 bits (R237). -/
def quickIndex (thr : Nat) (scan : List SubEye) : Nat :=
  let t := cdiv thr 64
  (limiting (scan.map (fun e => 4 * opening t e.volt)) (scan.map (fun e => 4 * opening t e.phase))).2.2.2

/-- The disagreements that a tile's measurements allow (R237). -/
def Base.errThr (b : Base) (t : Nat) : Nat := b.rd (Reg.SER_EYE_CFG t) F.SER_EYE_CFG_err_thr

/-- A lane beside its registers. -/
def Mod.laneRt (m : Mod) (l : Nat) : LaneRt := (m.lanes.find? (fun x => x.lane == l)).getD { lane := l }
def Mod.setLaneRt (m : Mod) (x : LaneRt) : Mod := { m with lanes := m.lanes.filter (fun y => y.lane != x.lane) ++ [x] }

/-- The DFE taps of a lane (R236). -/
def Base.putTaps (b : Base) (l : Nat) (taps : List Byte) : Base :=
  (List.range 12).foldl (fun b i => b.wr (Reg.SER_RX_DFE l i) F.SER_RX_DFE_tap ((taps.getD i 0#8).toNat)) b

/-- Is a lane's receiver in service, past the tuning of R238 step 5? -/
def Base.laneInService (b : Base) (l : Nat) : Bool :=
  let p := b.rd (Reg.SER_STATUS l) F.SER_STATUS_port
  if b.camTile (laneTile l) then b.isSet (Reg.SER_STATUS l) F.SER_STATUS_frame
  else decide (p < 64) && b.linkUp p && b.isSet (Reg.SER_STATUS l) F.SER_STATUS_adapt_done

/-- A full measurement ends (R237, R240): nothing while the tile does not measure or margining pauses it; index 0 without CDR lock. The DFE
has tracked to these taps meanwhile, unless it is frozen (R238 step 6). -/
def Base.eyeDone (b : Base) (l : Nat) (scan : List SubEye) (taps : List Byte) : Base :=
  let t := laneTile l
  let b := if b.laneInService l && !b.isSet (Reg.SER_RX_CTL l) F.SER_RX_CTL_freeze && !taps.isEmpty then b.putTaps l taps else b
  if b.isSet (Reg.SER_EYE l) F.SER_EYE_paused || !b.isSet (Reg.SER_EYE_CFG t) F.SER_EYE_CFG_run then b
  else
    let (sub, v, h, ei) := measured (b.errThr t) scan
    b.putEye l (if b.isSet (Reg.SER_STATUS l) F.SER_STATUS_cdr_lock then ei else 0) v h sub

/-! ### Receiver adaptation (R238, R239) -/

/-- A training starts on a lane: no result is valid until the first at the final rate (R240). -/
def Base.eyeStale (b : Base) (l : Nat) : Base :=
  (b.wr (Reg.SER_EYE l) F.SER_EYE_valid 0).wr (Reg.SER_EYE l) F.SER_EYE_paused 0

/-- A lane detects signal at its final rate: adaptation begins and the last result is no longer valid (R238, R240). -/
def Mod.signalDetect (m : Mod) (l : Nat) : Mod :=
  let b := m.base
  if b.isSet (Reg.SER_LANE_CFG l) F.SER_LANE_CFG_disable then m
  else
    let a := Reg.SER_STATUS l
    let b := ((b.wr a F.SER_STATUS_sig_det 1).wr a F.SER_STATUS_cdr_lock 0).wr a F.SER_STATUS_adapt_done 0
    let t := laneTile l
    let b := if b.camTile t then
        b.wr a F.SER_STATUS_rate (if b.isSet (Reg.FAB_STATUS (t - 24)) F.FAB_STATUS_rate85 then 8 else 7)
      else b
    ({ m with base := (b.eyeStale l).wr (Reg.SER_TILE_STATUS t) ⟨8 + l % 8, 1⟩ 0 } : Mod).setLaneRt
      { (m.laneRt l) with adaptAt := some b.now }

/-- The best of some codes by quick index (R238): the highest wins, and a tie keeps the one that stands first. -/
def bestCode : List (Nat × Nat) → Nat × Nat → Nat
  | [], best => best.1
  | x :: xs, best => bestCode xs (if best.2 < x.2 then x else best)

/-- The coarse search of step 2 (R238): the codes 0 to 15, a tie to the lower. -/
def coarseCtle (thr : Nat) (scans : List (List SubEye)) : Nat :=
  bestCode ((List.range scans.length).map (fun i => (i, quickIndex thr (scans.getD i [])))) (0, 0)

/-- The fine search of step 4 (R238): the best code held again and the codes below and above it, a tie to the best; between the two beside it that tie above it the lower
(DESIGN CHOICE, log entry 46), and there is no code below 0 or above 15. -/
def fineCtle (thr best : Nat) (again : List SubEye) (beside : List (List SubEye)) : Nat :=
  let q := fun (i : Nat) => quickIndex thr (beside.getD i [])
  let low := if best = 0 then [] else [(best - 1, q 0)]
  let high := if best = 15 then [] else [(best + 1, q 1)]
  bestCode (low ++ high) (best, quickIndex thr again)

/-- Adaptation ends (R238): the CTLE code that the searches chose, or ctle_set; the DFE taps; and the first result of the eye. A lane whose
CDR does not lock, or not within 4 ms, has index 0; a Camtex lane that reaches good_ei is good (R239). -/
def Mod.adaptDoneAt (m : Mod) (l : Nat) (x : Adaptation) : Mod :=
  let b := m.base
  let a := Reg.SER_STATUS l
  if !b.isSet a F.SER_STATUS_sig_det then m
  else
    let t := laneTile l
    let thr := b.errThr t
    let lock := x.lock && (match (m.laneRt l).adaptAt with
      | some at_ => decide (b.now ≤ at_ + 4 * ms)
      | none => true)
    let c := Reg.SER_RX_CTL l
    let code := if b.isSet c F.SER_RX_CTL_ctle_ovr then b.rd c F.SER_RX_CTL_ctle_set
      else fineCtle thr (coarseCtle thr x.coarse) x.again x.beside
    let (sub, v, h, found) := measured thr x.scan
    let ei := if lock then found else 0
    let b := ((b.flag a F.SER_STATUS_cdr_lock lock).wr a F.SER_STATUS_adapt_done 1).wr c F.SER_RX_CTL_ctle code
    let b := ((b.putTaps l x.taps).putEye l ei v h sub).bump (Reg.SER_CNT l 7)
    let good := lock && decide (b.rd (Reg.SER_TILE_CFG t) F.SER_TILE_CFG_good_ei ≤ ei) &&
      !b.isSet (Reg.SER_LANE_CFG l) F.SER_LANE_CFG_disable
    ({ m with base := if b.camTile t then b.wr (Reg.SER_TILE_STATUS t) ⟨8 + l % 8, 1⟩ (b2n good) else b } : Mod).setLaneRt
      { (m.laneRt l) with adaptAt := none }

/-! ### PCI Express training (R228, R234, R235, R241) -/

/-- The lanes of a port, the first at its lowest. -/
def Base.portLanes (b : Base) (p : Nat) : List Nat :=
  (List.range 256).filter (fun l => b.rd (Reg.SER_STATUS l) F.SER_STATUS_port == p)

/-- A port starts to train: its lanes' results are no longer valid, and its training sets report FS and LF (R234, R240). -/
def Base.trainPort (b : Base) (p : Nat) : Base :=
  let b := b.wr (Reg.PRT_STATUS p) F.PRT_STATUS_pm 5
  (b.portLanes p).foldl (fun b l => (b.eyeStale l).emit (.eqInfo l 48 16 false)) b

/-- The equalisation of a PCI Express lane (R234, R235): the partner's last request sets the coefficients, unless they are invalid or the
lane is overridden, which the reject bit of its training sets answers. -/
def Base.equalise (b : Base) (l : Nat) (q : EqRequest) : Base :=
  let (pre, post) := match q with
    | .preset p => presetCoef p.val
    | .coefs pre post => (pre, post)
  let no := b.isSet (Reg.SER_TX_COEF l) F.SER_TX_COEF_override || !coefOk pre post
  let b := b.emit (.eqInfo l 48 16 no)
  if no then b else b.setCoef l pre post

/-- What training found on the lanes of a PCI Express port: the lane order and the inversions (R241), the transmit settings (R235), and who
precodes at 32 and 64 GT/s (R228): this end as SER_LANE_CFG.precode has its partner do, the partner as the link reports. -/
def Mod.trained (m : Mod) (p : Nat) (x : LinkUp) : Mod :=
  let lanes := m.base.portLanes p
  let n := lanes.length
  (List.range n).foldl (fun m i =>
    let l := lanes.getD i 0
    let logical := if x.reversed then n - 1 - i else i
    let a := Reg.SER_STATUS l
    let b := (m.base.wr a F.SER_STATUS_port_lane logical).flag a F.SER_STATUS_pol_det (x.inverted.any (fun j => j.val == logical))
    let b := match x.eq[logical]? with
      | some q => if 2 ≤ x.rate then b.equalise l q else b
      | none => b
    let want := mayPrecode x.rate && b.isSet (Reg.SER_LANE_CFG l) F.SER_LANE_CFG_precode
    let b := if want then b.emit (.precodeRequest l) else b
    ({ m with base := b } : Mod).setLaneRt
      { (m.laneRt l) with txPrecode := mayPrecode x.rate && x.precode, rxPrecode := want, slave := false }) m

/-! ### Margining (R240, R245) -/

/-- The margining state of a lane. -/
def Mod.margin (m : Mod) (l : Nat) : Margin := (m.margins.find? (fun x => x.lane == l)).getD { lane := l }
def Mod.setMargin (m : Mod) (x : Margin) : Mod := { m with margins := m.margins.filter (fun y => y.lane != x.lane) ++ [x] }

/-- A lane answers a margin command. -/
def Mod.marginSay (m : Mod) (l v : Nat) : Mod := { m with base := m.base.emit (.margin l v) }

/-- What a lane reports of its margining (R245), by the selector that the PCI Express specification gives each value (log entry 14). -/
def marginReport (sel : Nat) : Option Nat :=
  match sel with
  | 0x88 => some 0x1F
  | 0x89 => some 64
  | 0x8A => some 32
  | 0x8B => some 45
  | 0x8C => some 25
  | 0x8D => some 63
  | 0x8E => some 63
  | 0x90 => some 15
  | _ => none

/-- The sub-eye that a command margins (R245): at 64 GT/s the one with the smallest opening when it begins, until it ends. -/
def Mod.marginSub (m : Mod) (l : Nat) : Option Nat :=
  if m.base.rd (Reg.SER_STATUS l) F.SER_STATUS_rate != 6 then none
  else some ((m.margin l).sub.getD (m.base.rd (Reg.SER_EYE l) F.SER_EYE_sub))

/-- A step command: refused beyond the steps of R245 or before the lane is in service (R240); else it runs, pausing eye measurement, and
reports its error count, a free value, as the PCI Express specification codes it (log entry 14). -/
def Mod.marginStep (m : Mod) (l steps most : Nat) : Mod :=
  if most < steps then m.marginSay l 0xC0
  else if !m.base.laneInService l then m.marginSay l 0x40
  else
    let (i, b) := m.base.fresh
    let errors := (Config.freeByte i).toNat % 64
    let x := m.margin l
    let beyond := decide (x.limit < errors)
    let m := ({ m with base := b.flag (Reg.SER_EYE l) F.SER_EYE_paused (!beyond) } : Mod).setMargin
      { x with sub := if beyond then none else m.marginSub l }
    m.marginSay l ((if beyond then 0 else 0x80) + errors)

/-- A Lane Margining command (R245); Camtex lanes are not margined. -/
def Mod.marginCommand (m : Mod) (l : Nat) (c : MarginCmd) : Mod :=
  if m.base.camTile (laneTile l) then m
  else
    match c with
    | .noCommand => m.marginSay l 0x9C
    | .report sel => match marginReport sel with
      | some v => m.marginSay l v
      | none => m
    | .setErrorLimit n => (m.setMargin { (m.margin l) with limit := n % 64 }).marginSay l (0xC0 + n % 64)
    | .goToNormal =>
      (({ m with base := m.base.wr (Reg.SER_EYE l) F.SER_EYE_paused 0 } : Mod).setMargin { (m.margin l) with sub := none }).marginSay l 0x0F
    | .clearErrorLog => m.marginSay l 0x55
    | .stepTiming _ n => m.marginStep l n 32
    | .stepVoltage _ n => m.marginStep l n 64

/-! ### Patterns, checkers and loopbacks (R242-R244) -/

/-- Does a lane run at PAM4 levels? -/
def Base.atPam4 (b : Base) (l : Nat) : Bool :=
  b.camTile (laneTile l) || b.rd (Reg.SER_STATUS l) F.SER_STATUS_rate == 6

/-- A lane sends bits that bypass its coding (R243). -/
def Base.sendBits (b : Base) (l : Nat) (bs : List Bool) : Base :=
  if bs.isEmpty then b
  else
    let ls := if b.atPam4 l then pam4 bs else nrz bs
    b.emit (.line l (invertLevels (b.isSet (Reg.SER_LANE_CFG l) F.SER_LANE_CFG_tx_inv) ls))

/-- As many bits as arrive leave a lane in test mode: what came in under a far-end loopback, else the pattern (R243, R244). -/
def Mod.patternOut (m : Mod) (l : Nat) (bs : List Bool) : Mod × List Bool :=
  let mode := m.base.rd (Reg.SER_LOOP l) F.SER_LOOP_mode
  let g := Reg.SER_PRBS l
  if mode = 3 then (m, bs)
  else if !m.base.isSet g F.SER_PRBS_gen_en then (m, [])
  else
    let x := m.laneRt l
    let (h, n, out) := genN (m.base.rd g F.SER_PRBS_gen_sel) (m.base.word64 (Reg.SER_PRBS_USER l)) bs.length x.gen x.sent
    (m.setLaneRt { x with gen := h, sent := n }, out)

/-- A running checker takes what the receiver gets: counts and lock follow (R243). -/
def Mod.patternIn (m : Mod) (l : Nat) (bs : List Bool) : Mod :=
  let g := Reg.SER_PRBS l
  if !m.base.isSet g F.SER_PRBS_chk_en then m
  else
    let x := m.laneRt l
    let (c, lock, errs, units) := x.chk.takeAll (m.base.rd g F.SER_PRBS_chk_sel) (m.base.isSet g F.SER_PRBS_chk_lock) bs
    let b := ((m.base.flag g F.SER_PRBS_chk_lock lock).bumpBy (Reg.SER_CNT l 0) errs).bumpBy (Reg.SER_CNT l 1) units
    ({ m with base := b } : Mod).setLaneRt { x with chk := c }

/-- Bits arrive on a lane (R242-R244): in test mode its pattern or its loopback leaves and its checker takes what the receiver gets, which
under a near-end loopback is what the lane sends; a Loopback slave sends back what comes; nothing else acts on raw bits. -/
def Mod.lineBits (m : Mod) (l : Nat) (bs : List Bool) : Mod :=
  if m.base.inTest (laneTile l) then
    let mode := m.base.rd (Reg.SER_LOOP l) F.SER_LOOP_mode
    let (m, out) := m.patternOut l bs
    let m := { m with base := m.base.sendBits l out }
    m.patternIn l (if mode = 1 || mode = 2 then out else bs)
  else if (m.laneRt l).slave then { m with base := m.base.sendBits l bs }
  else m

/-- A write of SER_PRBS: a checker that does not run, or that is given another pattern, is not locked and seeds itself again. -/
def Mod.prbsWrite (m : Mod) (l v : Nat) : Mod :=
  let g := Reg.SER_PRBS l
  let same := bitOf v 7 && m.base.isSet g F.SER_PRBS_chk_en && bits v F.SER_PRBS_chk_sel == m.base.rd g F.SER_PRBS_chk_sel
  let b := m.base.wr g ⟨0, 8⟩ v
  if same then { m with base := b }
  else ({ m with base := b.wr g F.SER_PRBS_chk_lock 0 } : Mod).setLaneRt { (m.laneRt l) with chk := {} }

/-- The patterns and loopbacks of a tile stop (R242). -/
def Mod.patternsStop (m : Mod) (t : Nat) : Mod :=
  (List.range 8).foldl (fun m i =>
    let l := 8 * t + i
    ({ m with base := m.base.wr (Reg.SER_PRBS l) F.SER_PRBS_chk_lock 0 } : Mod).setLaneRt
      { (m.laneRt l) with chk := {}, gen := BitVec.allOnes 64, sent := 0 }) m

/-- A link partner puts a port into Loopback as its master (R244): the lanes send back what comes. -/
def Mod.loopbackSlave (m : Mod) (p : Nat) : Mod :=
  (m.base.portLanes p).foldl (fun m l => m.setLaneRt { (m.laneRt l) with slave := true }) m

/-! ### Tile gating (R33, R246) -/

/-- Is a port in L1, an L1 substate or down? -/
def Base.portIdle (b : Base) (p : Nat) : Bool :=
  let pm := b.rd (Reg.PRT_STATUS p) F.PRT_STATUS_pm
  !b.linkUp p || (decide (1 ≤ pm) && decide (pm ≤ 4))

/-- Is a cell queued for a tile: one that is to cross to a port that has lanes on it, or a frame in the queues of such a port? -/
def Mod.cellQueued (m : Mod) (t : Nat) : Bool :=
  let ps := m.base.portsTouch t
  m.sw.xfers.any (fun x => x.eg == t || ps.any (fun p => x.eg == m.base.tileOf p)) || m.sw.egress.any (fun e => ps.contains e.port)

/-- The ports of a tile begin their idle time anew. -/
def Mod.idleAnew (m : Mod) (ps : List Nat) : Mod :=
  { m with sw := { m.sw with idleAt := ps.foldl (fun l p => tset l p m.base.now) m.sw.idleAt } }

/-- When idle_us have passed since the last port of a tile became idle, or the die left reset. -/
def Mod.idleDue (m : Mod) (t : Nat) : Nat :=
  (m.base.portsTouch t).foldl (fun n p => max n (tget m.sw.idleAt p)) m.pl.bootAt +
    m.base.rd (Reg.SER_TILE_CFG t) F.SER_TILE_CFG_idle_us * us

/-- The module is in M1 while any tile is gated, and else in M0 (R33). -/
def Base.showM1 (b : Base) : Base :=
  let ms := b.rd Reg.CLK_STATUS F.CLK_STATUS_mstate
  if ms ≤ 1 then b.wr Reg.CLK_STATUS F.CLK_STATUS_mstate (b2n ((List.range 32).any b.gated)) else b

/-- Is every port of a tile in L1, a substate or down? -/
def Base.tileIdle (b : Base) (t : Nat) : Bool := (b.portsTouch t).all b.portIdle

/-- A tile has been idle for idle_us: it gates, unless a condition of R246 fails; a cell queued for it starts the idle time over. -/
def Mod.tileGate (m : Mod) (t : Nat) : Mod :=
  let a := Reg.SER_TILE_CTL t
  if m.base.camTile t || m.base.inTest t || m.base.isSet a F.SER_TILE_CTL_no_gate || !m.base.tileIdle t then m
  else if m.cellQueued t then m.idleAnew (m.base.portsTouch t)
  else
    let b := { m.base with now := max m.base.now (m.idleDue t) }
    { m with base := (b.wr (Reg.SER_TILE_STATUS t) F.SER_TILE_STATUS_gated 1).showM1 }

/-- A tile ungates (R246). -/
def Base.tileUngate (b : Base) (t : Nat) : Base := (b.wr (Reg.SER_TILE_STATUS t) F.SER_TILE_STATUS_gated 0).showM1

/-- Gated tiles ungate once a port on them leaves L1 or a cell is queued for them (R246); only in M1 is a tile gated. -/
def Mod.wakeTiles (m : Mod) : Mod :=
  if m.base.rd Reg.CLK_STATUS F.CLK_STATUS_mstate ≠ 1 then m
  else { m with base := (List.range 32).foldl (fun b t =>
           if b.gated t && (m.cellQueued t || !m.base.tileIdle t) then b.tileUngate t else b) m.base }

end Sys2Proof.Machine
end

