-- ==== Sys2Proof/Machine/Sched.lean ====
section
/-! DEFINITION. The egress scheduler (R62-R72): head frames, strict and DRR queues, meters, shapers and the timing
wheel, disposal at an egress that cannot deliver, and the high-water marks. -/

namespace Sys2Proof.Machine

/-! ### Queues and head frames (R63, R64) -/

/-- The traffic class under which a frame queues: a copy always queues in tc 0 (R63). -/
def Frame.queueTc (f : Frame) : Nat := if f.copy then 0 else f.tc % 8

/-- The frames of queue qi = 8 * p + tc, oldest first. -/
def Switch.queue (w : Switch) (q : Nat) : List Frame :=
  w.egress.filterMap (fun e =>
    match w.frame e.frame with
    | some f => if 8 * e.port + f.queueTc == q then some f else none
    | none => none)

/-- Frame bytes now queued (R72). -/
def Switch.queueBytes (w : Switch) (q : Nat) : Nat := (w.queue q).foldl (fun n f => n + f.bytes) 0

/-- The head frame of a queue under the link partner's credits, as a test of a frame (R64). -/
def Switch.headFrame (w : Switch) (q : Nat) (credit : Frame → Bool) : Option Frame :=
  let l := w.queue q
  l.find? (fun f =>
    let older := l.takeWhile (fun g => g.id != f.id)
    credit f && !older.any (fun g => g.src == f.src && g.vc == f.vc) &&
    (f.vc == 0 || f.vc == 3 || !older.any (fun g => g.src == f.src && g.vc == 0)))

/-- The scheduler state of a queue. -/
def Switch.qst (w : Switch) (q : Nat) : QueueSt := (w.queues.find? (fun x => x.q == q)).getD { q := q }

/-- Put the scheduler state of a queue. -/
def Switch.setQst (w : Switch) (x : QueueSt) : Switch :=
  { w with queues := w.queues.filter (fun y => y.q != x.q) ++ [x] }

/-! ### Meters (R67, R68) -/

/-- A meter's tokens. -/
def Switch.meter (w : Switch) (i : Nat) : MeterSt := (w.meters.find? (fun x => x.m == i)).getD { m := i }

/-- Put a meter's tokens. -/
def Switch.setMeter (w : Switch) (x : MeterSt) : Switch :=
  { w with meters := w.meters.filter (fun y => y.m != x.m) ++ [x] }

/-- Bucket sizes in 1/256 B; below 1,088 B acts as 1,088 B (R67). -/
def Base.cbs (b : Base) (i : Nat) : Nat := 256 * max 1088 (b.rd (Reg.SCH_METER_CBS i) F.SCH_METER_CBS_cbs)
def Base.pbs (b : Base) (i : Nat) : Nat := 256 * max 1088 (b.rd (Reg.SCH_METER_PBS i) F.SCH_METER_PBS_pbs)

/-- Increments per tick; a pir_inc below cir_inc acts as cir_inc (R67). -/
def Base.cir (b : Base) (i : Nat) : Nat := b.rd (Reg.SCH_METER_CIR i) F.SCH_METER_CIR_cir_inc
def Base.pir (b : Base) (i : Nat) : Nat := max (b.cir i) (b.rd (Reg.SCH_METER_PIR i) F.SCH_METER_PIR_pir_inc)

/-- Is the meter enabled? A write of the enable bit acts at once, as a frame sent after it sees (DESIGN CHOICE, log entry 39: R68 has a
changed field take effect at the next tick, and frames green while enable is 0). -/
def Base.meterOn (b : Base) (i : Nat) : Bool := b.isSet (Reg.SCH_METER_CIR i) F.SCH_METER_CIR_enable

/-- The colour of a frame of `n` bytes under its meter (R67): 0 green, 1 yellow, 2 red; unmetered is green. -/
def Mod.colour (m : Mod) (meter : Option Nat) (n : Nat) : Nat :=
  match meter with
  | none => 0
  | some i =>
    if !m.base.meterOn i then 0
    else
      let t := m.sw.meter i
      if t.tp < 256 * n then 2 else if t.tc < 256 * n then 1 else 0

/-- A sent frame is charged to its meter (R67). -/
def Mod.chargeMeter (m : Mod) (meter : Option Nat) (n : Nat) : Mod :=
  match meter with
  | none => m
  | some i =>
    if !m.base.meterOn i then m
    else
      let t := m.sw.meter i
      match m.colour meter n with
      | 0 => { m with sw := m.sw.setMeter { t with tc := t.tc - 256 * n, tp := t.tp - 256 * n } }
      | 1 => { m with sw := m.sw.setMeter { t with tp := t.tp - 256 * n } }
      | _ => m

/-! ### Shapers and the wheel (R70, R71) -/

/-- Is the shaper of queue q on, and its rate and burst? -/
def Base.shaped (b : Base) (q : Nat) : Bool := b.isSet (Reg.SCH_Q_CFG q) F.SCH_Q_CFG_shape_en
def Base.shapeInc (b : Base) (q : Nat) : Nat := b.rd (Reg.SCH_Q_SHAPE q) F.SCH_Q_SHAPE_inc
def Base.shapeBurst (b : Base) (q : Nat) : Nat := b.rd (Reg.SCH_Q_SHAPE q) F.SCH_Q_SHAPE_burst

/-- Does the shaper let queue q send (R70, R71)? An inc of 0 holds it. -/
def Mod.shaperAllows (m : Mod) (q : Nat) : Bool :=
  (m.sw.qst q).due.isNone && (!m.base.shaped q || m.base.shapeInc q != 0)

/-- A shaped queue sends `n` bytes at tick now (R70): its next due tick, and the wheel if that is later. -/
def Mod.shape (m : Mod) (q n : Nat) : Mod :=
  let inc := m.base.shapeInc q
  if !m.base.shaped q || inc = 0 then m
  else
    let now := m.base.tick
    let burstT := m.base.shapeBurst q * 65536 / inc
    let x := m.sw.qst q
    let t := max x.tNext (256 * now - burstT) + n * 65536 / inc
    let due := cdiv t 256
    { m with sw := m.sw.setQst { x with tNext := t, due := if now < due then some due else x.due } }

/-- A queue's due tick has come (R71). -/
def Switch.wheelAt (w : Switch) (now : Nat) : Switch :=
  { w with queues := w.queues.map (fun x =>
      match x.due with
      | some d => if d ≤ now then { x with due := none } else x
      | none => x) }

/-! ### Choosing the next frame (R65, R66) -/

/-- Is queue q sendable in the pass of colour c (R65)? -/
def Mod.sendable (m : Mod) (q c : Nat) (credit : Frame → Bool) : Option Frame :=
  match m.sw.headFrame q credit with
  | none => none
  | some f => if m.shaperAllows q && m.colour f.meter f.bytes == c then some f else none

/-- Is queue q in strict mode? A queue whose turn is open keeps its DRR turn to the end: a change of mode takes effect at its next
turn (R72). -/
def Mod.strict (m : Mod) (q : Nat) : Bool := m.base.isSet (Reg.SCH_Q_CFG q) F.SCH_Q_CFG_mode && !(m.sw.qst q).opened

/-- The DRR quantum; below 1,088 B acts as 1,088 B (R66). -/
def Base.quantum (b : Base) (q : Nat) : Nat := max 1088 (b.rd (Reg.SCH_Q_CFG q) F.SCH_Q_CFG_quantum)

/-- The next DRR queue of port p after q, wrapping (R66). -/
def Mod.nextDrr (m : Mod) (p q : Nat) : Nat :=
  let l := (List.range 8).map (fun t => 8 * p + t) |>.filter (fun x => !m.strict x)
  (l.find? (fun x => decide (q < x))).getD (l.headD q)

/-- One visit of the ring of R66: the state after it, and the queue if it may send. -/
def Mod.drrVisit (m : Mod) (p pass : Nat) (credit : Frame → Bool) : Mod × Option (Nat × Frame) :=
  let q0 := (m.sw.dptr.lookup p).getD (8 * p)
  let q := if m.strict q0 then m.nextDrr p q0 else q0
  let endTurn := fun (m : Mod) =>
    let x := m.sw.qst q
    let x := { x with deficit := if (m.sw.queue q).isEmpty then 0 else x.deficit, opened := false }
    let m : Mod := { m with sw := m.sw.setQst x }
    { m with sw := { m.sw with dptr := tset m.sw.dptr p (m.nextDrr p q) } }
  match m.sendable q pass credit with
  | none => (endTurn m, none)
  | some f =>
    let x := m.sw.qst q
    let x := if x.opened then x else { x with deficit := x.deficit + m.base.quantum q, opened := true }
    let m := { m with sw := { m.sw.setQst x with dptr := tset m.sw.dptr p q } }
    if f.bytes ≤ x.deficit then (m, some (q, f)) else (endTurn m, none)

/-- The deficit round robin of R66, visiting at most `n` queues. -/
def Mod.drrPick (p pass : Nat) (credit : Frame → Bool) : Nat → Mod → Mod × Option (Nat × Frame)
  | 0, m => (m, none)
  | n + 1, m =>
    match m.drrVisit p pass credit with
    | (m, some r) => (m, some r)
    | (m, none) => Mod.drrPick p pass credit n m

/-- One pass of R65 for port p: strict queues from tc 7 down, then DRR. -/
def Mod.pickPass (m : Mod) (p pass : Nat) (credit : Frame → Bool) : Mod × Option (Nat × Frame) :=
  let strictPick := [7, 6, 5, 4, 3, 2, 1, 0].findSome? (fun tc =>
    let q := 8 * p + tc
    if m.strict q then (m.sendable q pass credit).map (fun f => (q, f)) else none)
  match strictPick with
  | some r => (m, some r)
  | none =>
    let n := ((List.range 8).filter (fun t => !m.strict (8 * p + t))).length
    Mod.drrPick p pass credit n m

/-- The choice of R65: green, then yellow. -/
def Mod.pick (m : Mod) (p : Nat) (credit : Frame → Bool) : Mod × Option (Nat × Frame) :=
  match m.pickPass p 0 credit with
  | (m, some r) => (m, some r)
  | (m, none) => m.pickPass p 1 credit

/-- The chosen frame is accounted: meter, deficit, shaper, and the counters of R313 (R65-R70). -/
def Mod.accountSend (m : Mod) (p q : Nat) (f : Frame) : Mod :=
  let yellow := m.colour f.meter f.bytes == 1
  let m := m.chargeMeter f.meter f.bytes
  let x := m.sw.qst q
  let m := if m.strict q then m else { m with sw := m.sw.setQst { x with deficit := x.deficit - f.bytes } }
  let m := m.shape q f.bytes
  let b := (m.base.occ 0x0C0 p none f.bytes).occ 0x0C1 p none 1
  { m with base := if yellow then b.occ 0x0C2 p none 1 else b }

/-- A frame copy leaves an egress port's queues. -/
def Switch.dequeue (w : Switch) (p id : Nat) : Switch :=
  { w with egress := w.egress.filter (fun e => !(e.port == p && e.frame == id)) }

/-! ### Disposal (R54, R218) -/

/-- Can port p not deliver, and as which column of R218: `some true` contained or absent, `some false` link not up? -/
def Base.undeliverable (b : Base) (p : Nat) : Option Bool :=
  if b.contained p || (b.portRole p == 2 && !b.isSet (Reg.PRT_SLOT p) F.PRT_SLOT_present && !b.released.contains p) then
    some true
  else if !b.linkUp p then some false
  else none

/-- The read of the module's own that a request frame to port p carries, by its tag (R208, R210). -/
def Mod.readOf (m : Mod) (p : Nat) (f : Frame) : Option TagOwner :=
  if f.vc == 1 && decide (64 ≤ f.src) then (m.tags.find? (fun x => x.port == p && x.tag == f.tlp.tag)).bind TagUse.owner else none

/-- Port p disposes of a frame (R218): discarded, or answered by a completion that the port makes, which for an engine's own read is a UR
marked port-gone; its cells are given back (R50). A multicast member's disposal is a failed delivery (R56). -/
def Mod.dispose (m : Mod) (p : Nat) (f : Frame) (contained : Bool) : Mod :=
  let np := f.vc == 1
  let host := decide (f.src < 64)
  let cnt := if np && contained then 3 else 2
  let b := m.base.bump (Reg.PRT_CNT p cnt)
  let m := match f.far with
    | some (path, origin) => { m with bondOut := m.bondOut ++ [farAnswer path origin p f contained] }
    | none => m
  let b := if np && f.far.isNone then b.emit (.synthCpl p f (contained && host)) else b
  let b := if f.mc then b.mcFail f.group p 3 else b
  let gone := (m.readOf p f).toList.map (fun o => (o, (⟨.portGone, []⟩ : Cpl)))
  ({ m with base := b, ended := m.ended ++ gone, sw := m.sw.dequeue p f.id }).dropRef f.id

/-- A member port goes down or is contained (R56): a multicast copy that has begun to cross is lost once its crossing is complete, and one
that a port holds as its containment starts is disposed of at once. -/
def Mod.dropCopies (m : Mod) (p : Nat) (held : Bool) : Mod :=
  let mc := fun (i : Nat) => match m.sw.frame i with
    | some f => f.mc
    | none => false
  let lost := fun (x : Xfer) => decide (x.eg < 32) && x.sub == p && decide (0 < x.sent) && mc x.frame
  let here := if held then (m.sw.egress.filter (fun e => e.port == p && mc e.frame)).filterMap (fun e => m.sw.frame e.frame) else []
  here.foldl (fun m f => m.dispose p f true)
    { m with sw := { m.sw with xfers := m.sw.xfers.map (fun x => if lost x then { x with doomed := true } else x) } }

/-- The oldest frame in a port's queues. -/
def Switch.oldestAt (w : Switch) (p : Nat) : Option Frame :=
  (w.egress.find? (fun e => e.port == p)).bind (fun e => w.frame e.frame)

/-- The oldest host frame at a shelf port whose virtual function is in D3hot: it goes as for a link that is down
(R221). -/
def Mod.hostHeld (m : Mod) (p : Nat) : Option Frame :=
  if m.base.portRole p == 2 && m.base.cfg (24 + p) 0x44 % 4 == 3 then
    (m.sw.egress.filterMap (fun e => if e.port == p then m.sw.frame e.frame else none)).find? (fun f => decide (f.src < 64))
  else none

/-- A downstream port overlays the address of a multicast TLP with its MC_Overlay_BAR (R206). -/
def Base.mcOverlay (b : Base) (p : Nat) (f : Frame) : Frame :=
  let w := b.cfg (24 + p) 0x298
  let k := w % 64
  if f.mc && b.portRole p == 2 && decide (6 ≤ k) then
    let bar := w / 64 * 64 + 2 ^ 32 * b.cfg (24 + p) 0x29C
    { f with tlp := { f.tlp with addr := bar / 2 ^ k * 2 ^ k + f.tlp.addr % 2 ^ k } }
  else f

/-- A poisoned frame leaves with its TLP's EP bit set, as PCI Express marks it (R38, R41). -/
def Frame.marked (f : Frame) : Frame := { f with tlp := { f.tlp with ep := f.tlp.ep || f.poison } }

/-- A PCI Express egress port sends (R65): the picked frame goes out on the link, tapped as it begins to be sent
(R57), and its cells are given back; a port that cannot deliver disposes of its oldest frame instead (R54). -/
def Mod.sendPcie (m : Mod) (p : Nat) (credit : Frame → Bool) : Mod :=
  match m.base.undeliverable p with
  | some c =>
    match m.sw.oldestAt p with
    | none => m
    | some f => m.dispose p f c
  | none =>
    match m.hostHeld p with
    | some f => m.dispose p f false
    | none =>
      match m.pick p credit with
      | (m, none) => m
      | (m, some (q, f)) =>
        let m := (m.accountSend p q f).tap f p true
        let w := m.sw.dequeue p f.id
        let w := if m.base.portRole p == 2 && f.vc == 1 && decide (f.src < 64) then
          { w with forwarded := w.forwarded ++ [(p, f)] } else w
        ({ m with base := m.base.emit (.frame p (m.base.mcOverlay p f).marked), sw := w }).dropRef f.id

/-! ### High-water marks (R72) -/

/-- The present depth of the mark at a SCH_Q_HWM, SCH_BUF_HWM or BND_HOLD_HWM offset (BND_HOLD is the bond logic's). -/
def Mod.depthAt (m : Mod) (a : Nat) : Nat :=
  if a < Reg.SCH_BUF_HWM 0 then m.sw.queueBytes ((a - Reg.SCH_Q_HWM 0) / 4)
  else
    let i := (a - Reg.SCH_BUF_HWM 0) / 4
    if i < 219 then m.sw.use i else if i = 219 then m.sw.sharedUse else m.sw.mirrorUse

/-- A write of a meter register is done (R68): an enable from 0 to 1 fills both buckets; other changes count from the
next tick. -/
def Mod.meterChanged (m : Mod) (i : Nat) (wasOn : Bool) : Mod :=
  if m.base.meterOn i && !wasOn then
    { m with sw := m.sw.setMeter { m := i, tc := m.base.cbs i, tp := m.base.pbs i } }
  else m

end Sys2Proof.Machine
end

