-- ==== Sys2Proof/Machine/Memory.lean ====
section
/-! DEFINITION. Park DRAM as memory (R78): reading and writing bytes in the canonical form, and poisoned words. -/

namespace Sys2Proof.Machine

/-- What a park address that nothing has written reads as: zero, as a wipe leaves it (R340, log entry 5). -/
def memDefault : Byte := 0#8

/-- The byte at a park address. -/
def memGet (m : List Host.Cell) (a : Nat) : Byte := (m.lookup a).getD memDefault

/-- Put a byte, keeping the canonical form: addresses rising, and no entry equal to what an unlisted address reads as. -/
def memPut : List Host.Cell → Nat → Byte → List Host.Cell
  | [], a, v => if v = memDefault then [] else [(a, v)]
  | (b, w) :: t, a, v =>
    if a = b then (if v = memDefault then t else (a, v) :: t)
    else if a < b then (if v = memDefault then (b, w) :: t else (a, v) :: (b, w) :: t)
    else (b, w) :: memPut t a v

/-- Put consecutive bytes. -/
def memPutList (m : List Host.Cell) : Nat → List Byte → List Host.Cell
  | _, [] => m
  | a, v :: vs => memPutList (memPut m a v) (a + 1) vs

/-- Consecutive bytes. -/
def memGetList (m : List Host.Cell) (a n : Nat) : List Byte := (List.range n).map (fun i => memGet m (a + i))

/-- The canonical form of memory, above an address bound: entries rise strictly and none reads as unlisted. -/
def memSorted : Option Nat → List Host.Cell → Bool
  | _, [] => true
  | lo, (a, v) :: t =>
    (match lo with
     | none => true
     | some l => decide (l < a)) && v != memDefault && memSorted (some a) t

/-- The canonical form of memory. -/
def Memory.wf (m : List Host.Cell) : Bool := memSorted none m

/-- The DRAM channel of a park address: granules are striped in 512 B pieces (DEDUCED: in ascending channel order, log
entry 6). -/
def channelOf (a : Nat) : Nat := a / 512 % 8

/-- The 8 B words that a run of bytes touches. -/
def wordsTouched (a n : Nat) : List Nat :=
  if n = 0 then [] else (List.range ((a + n - 1) / 8 - a / 8 + 1)).map (fun i => a / 8 + i)

/-- Is all of word `w` inside the bytes from `a`? -/
def coversWord (a n w : Nat) : Bool := decide (a ≤ 8 * w) && decide (8 * w + 8 ≤ a + n)

/-- Bytes are written (R299): a word written whole loses its poison mark, one written in part keeps it; a poisoned
write marks every word it touches. -/
def Dram.write (d : Dram) (a : Nat) (data : List Byte) (poisoned : Bool) : Dram :=
  let ws := wordsTouched a data.length
  { d with mem := memPutList d.mem a data,
           poison := if poisoned then ws ++ d.poison.filter (fun w => !ws.contains w)
                     else d.poison.filter (fun w => !coversWord a data.length w) }

/-- The bytes at an address. -/
def Dram.read (d : Dram) (a n : Nat) : List Byte := memGetList d.mem a n

/-- Does a read meet a poisoned word? -/
def Dram.poisoned (d : Dram) (a n : Nat) : Bool := (wordsTouched a n).any (fun w => d.poison.contains w)

/-- A burst opens a row of its channel or finds it open (event 0x302): the spec does not say which, so where a counter counts activations
it is a free value (log entry 37). -/
def Base.activation (b : Base) (ch : Nat) : Base :=
  if b.isSet Reg.PMC_GLOBAL F.PMC_GLOBAL_run && b.coreOn && (List.range 256).any (fun i => b.pmcSelects i 0x302 ch none) then
    let (i, b) := b.fresh
    b.occModule 0x302 ch none ((Config.freeByte i).toNat % 2) false
  else b

/-- The bursts of 64 B that an access makes, counted by channel (events 0x300, 0x301), and the rows they open. -/
def Base.bursts (b : Base) (ev a n : Nat) : Base :=
  if n = 0 then b
  else (List.range ((a + n - 1) / 64 - a / 64 + 1)).foldl (fun b i =>
    let ch := channelOf (64 * (a / 64 + i))
    (b.occ ev ch none 1).activation ch) b

end Sys2Proof.Machine
end

