-- ==== Sys2Proof/Machine/Order.lean ====
section
/-! DEFINITION. Memory ordering in the park window (R122-R137): stores are performed line by line, the host-ingress
merge buffer, and the reservation pair. -/

namespace Sys2Proof.Machine

/-! ### Stores and loads are performed -/

/-- The reservation of a slice. -/
def Ordering.rsv (o : Ordering) (s : Nat) : Rsv := (o.rsvs.find? (fun r => r.slice == s)).getD { slice := s }

/-- Put a slice's reservation. -/
def Ordering.setRsv (o : Ordering) (r : Rsv) : Ordering :=
  { o with rsvs := o.rsvs.filter (fun x => x.slice != r.slice) ++ [r] }

/-- Take away the reservations that a test picks, for a cause of R137. -/
def Ordering.loseRsv (o : Ordering) (p : Rsv → Bool) (cause : Nat) : Ordering :=
  { o with rsvs := o.rsvs.map (fun r => if r.line.isSome && p r then { r with line := none, cause := cause } else r) }

/-- A reservation that is lost no longer runs its lifetime. -/
def Mod.loseRsv (m : Mod) (p : Rsv → Bool) (cause : Nat) : Mod :=
  let gone := (m.ord.rsvs.filter (fun r => r.line.isSome && p r)).map Rsv.slice
  { m with ord := m.ord.loseRsv p cause,
           base := m.base.disarmAll (fun k => match k with
             | .reservation s => gone.contains s
             | _ => false) }

/-- A store within one line is performed as one piece (R127): the bytes are written, and every reservation on the line
is lost with cause 2 (R137). -/
def Mod.performPiece (m : Mod) (a : Nat) (data : List Byte) (poisoned : Bool) : Mod :=
  let m := m.loseRsv (fun r => r.line == some (a / 64)) 2
  { m with dram := m.dram.write a data poisoned, base := m.base.bursts 0x301 a data.length }

/-- A store is split at line boundaries, its pieces in ascending address order (R127); `n` bounds the pieces. -/
def Mod.performStoreN (poisoned : Bool) : Nat → Mod → Nat → List Byte → Mod
  | 0, m, _, _ => m
  | n + 1, m, a, data =>
    if data.isEmpty then m
    else
      let k := 64 - a % 64
      Mod.performStoreN poisoned n (m.performPiece a (data.take k) poisoned) (a + k) (data.drop k)

/-- A store to park DRAM is performed (R122, R127). -/
def Mod.performStore (m : Mod) (a : Nat) (data : List Byte) (poisoned : Bool) : Mod :=
  Mod.performStoreN poisoned (data.length / 64 + 2) m a data

/-- A load from park DRAM is performed: its bytes, and whether any word was poisoned (R299). -/
def Mod.performLoad (m : Mod) (a n : Nat) : Mod × List Byte × Bool :=
  ({ m with base := m.base.bursts 0x300 a n }, m.dram.read a n, m.dram.poisoned a n)

/-! ### The merge buffer (R128, R129) -/

/-- The lines of a path, oldest first. -/
def Ordering.path (o : Ordering) (p : Nat) : List MergeLine := o.lines.filter (fun l => l.part == p)

/-- The runs of valid bytes of a line: offset and bytes of each. -/
def validRuns : Nat → List (Option Byte) → List (Nat × List Byte)
  | _, [] => []
  | i, none :: t => validRuns (i + 1) t
  | i, some b :: t =>
    match validRuns (i + 1) t with
    | (j, bs) :: rest => if j = i + 1 then (i, b :: bs) :: rest else (i, [b]) :: (j, bs) :: rest
    | [] => [(i, [b])]

/-- The merge window's timer of a path stands for its oldest line (R129). -/
def Mod.armWindow (m : Mod) (p : Nat) : Mod :=
  match m.ord.path p with
  | [] => { m with base := m.base.disarm (.mergeWindow p) }
  | l :: _ => { m with base := { (m.base.disarm (.mergeWindow p)) with
                timers := (m.base.disarm (.mergeWindow p)).timers ++ [⟨.mergeWindow p, l.openedAt + us⟩] } }

/-- One line is written to park DRAM as one piece (R129); the writes of its runs take effect together. -/
def Mod.drainLine (m : Mod) (l : MergeLine) : Mod :=
  let m := { m with ord := { m.ord with lines := m.ord.lines.erase l } }
  let m := (validRuns 0 l.bytes).foldl (fun m r => m.performPiece (64 * l.line + r.1) r.2 false) m
  { m with base := m.base.occ 0x1C3 l.part l.slice 1 }

/-- The lines of a path that a test picks drain, in the order in which they were opened (R129). -/
def Mod.drainWhere (m : Mod) (p : Nat) (f : MergeLine → Bool) : Mod :=
  (((m.ord.path p).filter f).foldl Mod.drainLine m).armWindow p

/-- All lines of a path drain (R129). -/
def Mod.drainPath (m : Mod) (p : Nat) : Mod := m.drainWhere p (fun _ => true)

/-- All lines of every path drain. -/
def Mod.drainAll (m : Mod) : Mod := (List.range 8).foldl (fun m p => m.drainPath p) m

/-- All lines are discarded (R130, reset). -/
def Mod.discardLines (m : Mod) : Mod :=
  { m with ord := { m.ord with lines := [] },
           base := m.base.disarmAll (fun k => match k with
             | .mergeWindow _ => true
             | _ => false) }

/-- The live slice of a partition that is bound to a PASID (R128). -/
def Base.sliceOfPasid (b : Base) (p : Nat) (pasid : Option Nat) : Option Nat :=
  match pasid with
  | none => none
  | some v => (List.range 1024).find? (fun s => b.sliceLive s && b.slicePart s == p && b.slicePasid s == v)

/-- Put store bytes into a line's bytes from an offset; later bytes replace earlier ones. -/
def mergeBytes (bytes : List (Option Byte)) (off : Nat) (data : List Byte) : List (Option Byte) :=
  (List.range 64).map (fun i =>
    if off ≤ i ∧ i < off + data.length then data[i - off]? else (bytes[i]?).getD none)

/-- Do two stores of one path to a line touch a common byte: the store's bytes, and the valid bytes of an open line? -/
def MergeLine.overlaps (l : MergeLine) (a n : Nat) : Bool :=
  l.line == a / 64 && (List.range n).any (fun i => ((l.bytes[a % 64 + i]?).getD none).isSome)

/-- The open line that a store of `n` bytes may join (R123, R128): an open line of the same address, slice and epoch, which is the path's
youngest or, with RO = 1, an older one that no younger line follows with bytes of this store, since overlapping accesses of one master are
performed in issue order. -/
def mergeTarget (fits : MergeLine → Bool) (a n : Nat) (ro : Bool) : List MergeLine → Option MergeLine
  | [] => none
  | l :: older => if fits l then some l else if ro && !l.overlaps a n then mergeTarget fits a n ro older else none

/-- One piece of a store meets the buffer (R128): it merges into an open line that may take it; otherwise it opens a new line, the oldest
draining when 32 are open. A full line drains. -/
def Mod.mergePiece (m : Mod) (p : Nat) (slice : Option Nat) (a : Nat) (data : List Byte) (ro : Bool) : Mod :=
  let ep := m.base.epoch (24 + p)
  let path := m.ord.path p
  let fits := fun (l : MergeLine) => l.line == a / 64 && l.slice == slice && l.epoch == ep
  let target := mergeTarget fits a data.length ro path.reverse
  let (m, l) := match target with
    | some l =>
      let l' := { l with bytes := mergeBytes l.bytes (a % 64) data }
      ({ m with ord := { m.ord with lines := m.ord.lines.map (fun x => if x == l then l' else x) } }, l')
    | none =>
      let m := if path.length < 32 then m else
        match path with
        | o :: _ => m.drainLine o
        | [] => m
      let l' : MergeLine := { part := p, line := a / 64, slice := slice, epoch := ep,
                              bytes := mergeBytes (List.replicate 64 none) (a % 64) data, openedAt := m.base.now }
      ({ m with ord := { m.ord with lines := m.ord.lines ++ [l'] } }, l')
  if l.bytes.all Option.isSome then
    -- lines drain in the order in which they were opened, so those opened before a full line drain before it
    let before := (m.ord.path p).takeWhile (fun x => x != l)
    ((before ++ [l]).foldl Mod.drainLine m).armWindow p
  else m.armWindow p

/-- A park-window store enters the merge buffer, split at line boundaries (R127, R128). -/
def Mod.mergeStoreN (p : Nat) (slice : Option Nat) (ro : Bool) : Nat → Mod → Nat → List Byte → Mod
  | 0, m, _, _ => m
  | n + 1, m, a, data =>
    if data.isEmpty then m
    else
      let k := 64 - a % 64
      Mod.mergeStoreN p slice ro n (m.mergePiece p slice a (data.take k) ro) (a + k) (data.drop k)

/-- The slice's lines are discarded at a fault (R130): contained event 16:(8 + p) with the slice, the number of lines and
the oldest line's window offset. -/
def Mod.discardSliceLines (m : Mod) (s : Nat) : Mod :=
  let gone := m.ord.lines.filter (fun l => l.slice == some s)
  match gone with
  | [] => m
  | l :: _ =>
    let off := 64 * l.line
    let m := { m with ord := { m.ord with lines := m.ord.lines.filter (fun x => x.slice != some s) } }
    let p := m.base.slicePart s
    let e : Ev := { group := 16, bit := 8 + p, sev := 1, scope := .slice s,
                    detail := s % 1024 + 2 ^ 10 * (gone.length % 64) + 2 ^ 16 * (off / 2 ^ 32 % 512),
                    detail2 := off % 2 ^ 32 }
    ({ m with base := m.base.raise e }).armWindow l.part

/-- The slice's lines drain before a quiesce or freeze (R130); lines drain in opening order, so the path's earlier ones
go first. -/
def Mod.drainSlice (m : Mod) (s : Nat) : Mod :=
  if m.ord.lines.any (fun l => l.slice == some s) then m.drainPath (m.base.slicePart s) else m

/-! ### The window regions (R78, R79) -/

/-- Window region `i` as (base, end, partition), if enabled. -/
def Base.window (b : Base) (i : Nat) : Option (Nat × Nat × Nat) :=
  let a := Reg.PRK_WIN_CFG i
  if b.isSet a F.PRK_WIN_CFG_enable then
    let base := b.rd a F.PRK_WIN_CFG_base_gib * 2 ^ 30
    some (base, base + b.rd a F.PRK_WIN_CFG_size_gib * 2 ^ 30, b.rd a F.PRK_WIN_CFG_partition)
  else none

/-- Do the bytes lie in one window region that a test on its partition accepts (R388)? -/
def Base.inWindow (b : Base) (a n : Nat) (ok : Nat → Bool) : Bool :=
  (List.range 16).any (fun i =>
    match b.window i with
    | some (lo, hi, p) => decide (lo ≤ a) && decide (a + n ≤ hi) && ok p
    | none => false)

/-- Do the bytes touch any window region? -/
def Base.touchesWindow (b : Base) (a n : Nat) : Bool :=
  (List.range 16).any (fun i =>
    match b.window i with
    | some (lo, hi, _) => decide (a < hi) && decide (lo < a + n)
    | none => false)

/-! ### Host accesses of the park window -/

/-- A host-ingress access to Mortar as its guard sees it (R138, R141). An access of no slice carries slice 0 there (DESIGN CHOICE, log
entry 40: R143 compares a slice and gives none). -/
def Base.hostAccess (b : Base) (p addr len : Nat) (pasid : Option Nat) (rd wr : Bool) : Access :=
  { space := 0, addr := addr, len := len, rd := rd, wr := wr, secure := b.partWorld p, pasid := pasid,
    slice := (b.sliceOfPasid p pasid).getD 0, ident := 24 + p }

/-- Do BAR2 accesses of partition p reach the store? From stage READY on (R327), in D0 (R156). -/
def Base.parkReady (b : Base) (p : Nat) : Bool :=
  b.rd Reg.CLK_STATUS F.CLK_STATUS_stage == 6 && !b.d3hot p

/-- A host store to the park window (R128, R150): checked, then gathered; a denied write is discarded and
reported (R156). -/
def Mod.windowStore (m : Mod) (p : Nat) (pasid : Option Nat) (off : Nat) (data : List Byte) (ro : Bool) : Mod :=
  if data.isEmpty then m
  else
    let (b, d) := m.base.guard (24 + p) (m.base.hostAccess p off data.length pasid false true)
    let m := { m with base := b }
    if d.isSome then { m with base := b.hostErr p 20 0 [] }
    else Mod.mergeStoreN p (m.base.sliceOfPasid p pasid) ro (data.length / 64 + 2) m off data

/-- A host read, poisoned write, AtomicOp or control-window access (R129): all lines of the path drain, then it is
performed. An AtomicOp to the park window is answered with UR; a denied read with UR (R150). The endpoint reports a denied
access and a poisoned write (R156). -/
def Mod.windowAccess (m : Mod) (p : Nat) (pasid : Option Nat) (x : PathAccess) : Mod :=
  let m := m.drainPath p
  match x with
  | .control => m
  | .read off len =>
    let (b, d) := m.base.guard (24 + p) (m.base.hostAccess p off len pasid true false)
    let m := { m with base := b }
    if d.isSome then { m with base := (m.base.hostErr p 20 0 []).emit (.cplErr p 1) }
    else
      let (m, data, ep) := m.performLoad off len
      { m with base := m.base.emit (.cplData p data ep) }
  | .atomic off len =>
    let (b, _) := m.base.guard (24 + p) (m.base.hostAccess p off len pasid true true)
    { m with base := (b.hostErr p 20 0 []).emit (.cplErr p 1) }
  | .poisonedWrite off data =>
    let (b, d) := m.base.guard (24 + p) (m.base.hostAccess p off data.length pasid false true)
    let b := b.hostErr p 12 0 []
    let m := { m with base := b }
    if d.isSome then { m with base := b.hostErr p 20 0 [] } else m.performStore off data true

/-! ### The reservation pair (R135-R137) -/

/-- The accessing path's partition, for a host (R129): its lines drain before a control-window access. -/
def Mod.drainFor (m : Mod) (who : Who) : Mod :=
  match who with
  | .host p => m.drainPath p
  | _ => m

/-- Does a keystone agent's access come from a bond path that the bond logic records as keystone (R140)? -/
def Base.ksRecorded (b : Base) (who : Who) : Bool :=
  match who with
  | .keystone _ path => b.ksPath path.val
  | _ => true

/-- The slice's word as the accessor's guard sees it (R142): which guard, and the access. A host's check carries the slice's bound PASID,
any other master's none (DESIGN CHOICE, log entry 40: R142 names no PASID). -/
def Base.rsvAccess (b : Base) (who : Who) (s addr : Nat) (wr : Bool) : Nat × Access :=
  let mk := fun (g : Nat) (sec : Bool) =>
    (g, ({ space := 0, addr := addr, len := 8, rd := !wr, wr := wr, secure := sec, pasid := none, slice := s,
           ident := g } : Access))
  match who with
  | .host p => (24 + p.val, { b.hostAccess p addr 8 (some (b.slicePasid s)) (!wr) wr with slice := s })
  | .smbus => mk 20 true
  | .mgmt c => mk (20 + c) true
  | .debug => mk 40 true
  | .keystone k _ => (32 + k.val, { (mk (32 + k) true).2 with ident := 0x3E, badKs := !b.ksRecorded who })

/-- A load-reserved (R135): the value the read returns, and the reservation taken or lost. The guard checks the read of the word whatever
the word is (R142); poisoned data completes with EP set (R99). -/
def Mod.loadReserved (m : Mod) (who : Who) (s : Nat) : Mod × Nat :=
  let m := m.drainFor who
  let off := m.base.rd (Reg.SLC_RSV_ADDR s) F.SLC_RSV_ADDR_offset
  let fail := fun (m : Mod) =>
    (({ m with ord := m.ord.setRsv { m.ord.rsv s with line := none, cause := 1 },
               base := m.base.disarm (.reservation s) } : Mod), 2 ^ 64 - 1)
  let (g, x) := m.base.rsvAccess who s off false
  let (b, d) := m.base.guard g x
  let m := { m with base := b }
  if d.isSome || off % 8 != 0 || !m.base.inWindow off 8 (fun p => p == m.base.slicePart s) then fail m
  else
    let (m, data, ep) := m.performLoad off 8
    let m := if ep then { m with base := m.base.emit (.badRead (Reg.SLC_RSV_LR s)) } else m
    ({ m with ord := m.ord.setRsv { m.ord.rsv s with line := some (off / 64), cause := 1 },
              base := m.base.arm (.reservation s) (100 * us) }, leNat data)

/-- A conditional store (R136): the word of SLC_RSV_SC that the read returns. -/
def Mod.conditionalStore (m : Mod) (who : Who) (s : Nat) : Mod × Nat :=
  let m := m.drainFor who
  let off := m.base.rd (Reg.SLC_RSV_ADDR s) F.SLC_RSV_ADDR_offset
  let (g, x) := m.base.rsvAccess who s off true
  let (b, d) := m.base.guard g x
  let m := { m with base := b }
  let r := m.ord.rsv s
  let consume := fun (m : Mod) =>
    ({ m with ord := m.ord.setRsv { m.ord.rsv s with line := none, cause := 1 },
              base := m.base.disarm (.reservation s) } : Mod)
  if d.isSome then (consume m, 2 * 7)
  else if r.line == some (off / 64) && r.line.isSome then
    let m := consume m
    (m.performStore off (leBytes 8 (m.base.word64 (Reg.SLC_RSV_NEW s))) false, 1)
  else (consume m, 2 * r.cause)

end Sys2Proof.Machine
end

