-- ==== Sys2Proof/Machine/Queue.lean ====
section
/-! DEFINITION. The queue engines (R158-R181): queue pairs, doorbells, completion entries, interrupts by count, time
and error, fences, descriptor fetching and decoding. -/

namespace Sys2Proof.Machine

/-! ### Tags of the module's own reads (R208, R210) -/

/-- The tags of a port that are in use or in quarantine. -/
def Mod.portTags (m : Mod) (port : Nat) : List Nat := (m.tags.filter (fun t => t.port == port)).map TagUse.tag

/-- The lowest free tag of a port, if fewer than 256 are out (R210). -/
def Mod.freeTag (m : Mod) (port : Nat) : Option Nat :=
  let used := m.portTags port
  (List.range 256).find? (fun t => !used.contains t)

/-- Has the port `n` free tags? Further requests wait for one (R210). -/
def Mod.tagsFree (m : Mod) (port n : Nat) : Bool := decide ((m.portTags port).length + n ≤ 256)

/-- The completion timeout of a read through a port: Device Control 2 of the control endpoint for host memory,
PRT_CPL_TO for a shelf (R208). -/
def Base.readTimeout (b : Base) (port : Nat) : Nat :=
  if b.portRole port == 1 then cplTimeoutNs (b.cfg (b.portPart port) 0x98 % 16)
  else cplTimeoutNs (b.rd (Reg.PRT_CPL_TO port) F.PRT_CPL_TO_value)

/-- Outstanding non-posted requests of a port as PRT_STATUS shows them. -/
def Mod.showTags (m : Mod) (port : Nat) : Mod :=
  let n := (m.tags.filter (fun t => t.port == port && t.owner.isSome)).length
  { m with base := m.base.wr (Reg.PRT_STATUS port) F.PRT_STATUS_np_out n }

/-- The requester ID of the module's own requests through a port: the control endpoint's towards a host, the virtual downstream port's
towards a shelf (PRESUMED: PCI Express gives a function's requests its own ID; log entry 7). -/
def Base.ownId (b : Base) (port : Nat) : Nat :=
  let part := b.portPart port
  if b.portRole port == 1 then 256 * bits (b.cfg (16 + part) 0x18) ⟨8, 8⟩
  else 256 * bits (b.cfg (8 + part) 0x18) ⟨8, 8⟩ + 8 * b.rd (Reg.PRT_CFG port) F.PRT_CFG_dev

/-- A read takes a tag of its port and its completion timeout runs. -/
def Mod.takeTag (m : Mod) (port tag len : Nat) (o : TagOwner) : Mod :=
  ({ m with tags := m.tags ++ [{ port := port, tag := tag, owner := some o, len := len }],
            base := m.base.arm (.cplTimeout port tag) (m.base.readTimeout port) } : Mod).showTags port

/-- The tag of an owner's read. -/
def Mod.tagOf (m : Mod) (o : TagOwner) : Option TagUse := m.tags.find? (fun t => t.owner == some o)

/-- A read has its completion: the tag is free. -/
def Mod.freeTagOf (m : Mod) (o : TagOwner) : Mod :=
  match m.tagOf o with
  | none => m
  | some t => ({ m with tags := m.tags.filter (fun x => x != t), base := m.base.disarm (.cplTimeout t.port t.tag) } : Mod).showTags
      t.port

/-- A tag goes out of use for a further timeout period, or until its late completion (R210). -/
def Mod.quarantineTag (m : Mod) (t : TagUse) (reason : Nat) : Mod :=
  let b := (m.base.disarm (.cplTimeout t.port t.tag)).arm (.quarantine t.port t.tag) (m.base.readTimeout t.port)
  ({ m with tags := m.tags.map (fun x => if x == t then { t with owner := none, reason := reason } else x),
            base := b } : Mod).showTags t.port

/-- A read ends: its tag is free, or in quarantine when no completion of the link ended it (R210). -/
def Mod.quarantine (m : Mod) (o : TagOwner) (reason : Nat) : Mod :=
  match m.tagOf o with
  | none => m
  | some t => m.quarantineTag t reason

/-- A read ends with a completion's status: its tag is free, or in quarantine when the completion was made on its behalf and its own may
still come (R210): at its timeout, or as its port went (R217). -/
def Mod.endTag (m : Mod) (o : TagOwner) (st : CplStatus) : Mod :=
  if st == .timeout || st == .portGone then m.quarantine o 0 else m.freeTagOf o

/-- A completion of a read that may be split (R208): the bytes join those that came before, and the last completion, or one with an error,
gives the read's length and all that has come. A completion of a read that is not out gives nothing. -/
def Mod.gather (m : Mod) (o : TagOwner) (c : Cpl) : Mod × Option (Nat × Cpl) :=
  match m.tagOf o with
  | none => (m, none)
  | some t =>
    let got := t.got ++ c.data
    if c.status == .ok && !c.data.isEmpty && decide (got.length < t.len) then
      ({ m with tags := m.tags.map (fun x => if x == t then { t with got := got } else x) }, none)
    else (m, some (t.len, { c with data := got }))

/-! ### Queue pairs and slices -/

/-- The state of a queue pair (R161): 0 DISABLED, 1 ACTIVE, 2 ERROR. -/
def Base.qpState (b : Base) (s q : Nat) : Nat := b.rd (Reg.SLC_QP_STATUS s q) F.SLC_QP_STATUS_state

/-- Ring sizes (R160). -/
def Base.sqSize (b : Base) (s q : Nat) : Nat := 2 ^ b.rd (Reg.SLC_QP_CFG s q) F.SLC_QP_CFG_sq_log2
def Base.cqSize (b : Base) (s q : Nat) : Nat := 2 ^ b.rd (Reg.SLC_QP_CFG s q) F.SLC_QP_CFG_cq_log2

/-- What the queue engine keeps of a pair. -/
def Queues.qp (x : Queues) (g : Nat) : QpRt := (x.qps.find? (fun r => r.gqp == g)).getD { gqp := g }

/-- Put what the queue engine keeps of a pair. -/
def Queues.setQp (x : Queues) (r : QpRt) : Queues := { x with qps := x.qps.filter (fun y => y.gqp != r.gqp) ++ [r] }

/-- A fetched descriptor by id. -/
def Queues.desc (x : Queues) (id : Nat) : Option Desc := x.descs.find? (fun d => d.id == id)

/-- Replace a fetched descriptor. -/
def Queues.setDesc (x : Queues) (d : Desc) : Queues := { x with descs := x.descs.map (fun e => if e.id == d.id then d else e) }

/-- Completion slots that are neither written and unread nor reserved (R160, R172). -/
def Mod.freeSlots (m : Mod) (s q g : Nat) : Nat :=
  let r := m.qe.qp g
  let n := m.base.cqSize s q
  let tail := m.base.rd (Reg.SLC_QP_PTR s q) F.SLC_QP_PTR_cq_tail
  n - 1 - (tail + n - r.cqHead) % n - r.reserved

/-- busy and DISABLED follow the descriptors that have stages to post (R161). -/
def Mod.refreshBusy (m : Mod) (g : Nat) : Mod :=
  match m.base.qpOwner g with
  | none => m
  | some (s, q) =>
    let busy := m.qe.descs.any (fun d => d.gqp == g) || m.qe.turns.any (fun t => t.gqp == g)
    let a := Reg.SLC_QP_STATUS s q
    let b := m.base.flag a F.SLC_QP_STATUS_busy busy
    { m with base := if !busy && !b.isSet (Reg.SLC_QP_CFG s q) F.SLC_QP_CFG_enable then b.wr a F.SLC_QP_STATUS_state 0
                     else b }

/-- The partition a misuse event names: the writer's, or the owning partition's for other paths (R303, R382). -/
def Base.misusePart (b : Base) (who : Who) (s : Nat) : Nat :=
  match who with
  | .host p => p
  | _ => b.slicePart s

/-- A register or doorbell misuse (group 16). -/
def Base.misuse (b : Base) (who : Who) (s : Nat) : Base := b.raise (misuseEv (b.misusePart who s))

/-- Pair g fetches no more: what a recovery of its engine discarded and left in its ring will not come back, and no fence waits for it
(R133, R308). -/
def Queues.noLost (x : Queues) (g : Nat) : Queues :=
  let ids := (x.lost.filter (fun y => y.1 == g)).map (fun y => y.2.2)
  if ids.isEmpty then x
  else { x with lost := x.lost.filter (fun y => y.1 != g),
                fences := x.fences.map (fun f => { f with covered := f.covered.filter (fun i => !ids.contains i) }) }

/-- A queue pair enters ERROR (R161): fetching stops, and contained event 16:p for the slice. -/
def Mod.qpError (m : Mod) (s q cause : Nat) : Mod :=
  let a := Reg.SLC_QP_STATUS s q
  if m.base.qpState s q != 1 then m
  else
    let b := (m.base.wr a F.SLC_QP_STATUS_state 2).wr a F.SLC_QP_STATUS_cause cause
    { m with base := b.raise { group := 16, bit := b.slicePart s, sev := 1, scope := .slice s }, qe := m.qe.noLost (m.base.qpBase s + q) }

/-! ### Fences (R132-R134) -/

/-- The cid of a descriptor (R162). -/
def Desc.cid (d : Desc) : Nat := fieldAt d.raw 2 2

/-- The opcode of a descriptor (R162). -/
def Desc.opcode (d : Desc) : Nat := fieldAt d.raw 0 1

/-- A covered descriptor reaches a stage: the fences that wait for that stage no longer wait for it, and keep a failing
status (R133). -/
def Queues.fenceReached (x : Queues) (d : Desc) (status : Nat) (final : Bool) : Queues :=
  { x with fences := x.fences.map (fun f =>
      if f.covered.contains d.id && (final || !f.final) then
        { f with covered := f.covered.filter (fun i => i != d.id),
                 failed := if 0x20 ≤ status then f.failed ++ [(d.id, status, d.cid)] else f.failed }
      else f) }

/-- The status a fence completes with, and the cid it reports: the first failing descriptor in fetch order (R133). -/
def FenceRun.outcome (f : FenceRun) : Nat × Nat :=
  match f.failed.foldl (fun (best : Option (Nat × Nat × Nat)) x =>
      match best with
      | none => some x
      | some y => if x.1 < y.1 then some x else some y) none with
  | none => (0, 0)
  | some (_, st, cid) => (st, cid)

/-! ### Interrupts of completion rings (R177) -/

/-- A ring's message is sent: unsignalled and the timer are cleared (R177). -/
def Mod.ringMessage (m : Mod) (s q g : Nat) : Mod :=
  let m := { m with qe := m.qe.setQp { m.qe.qp g with unsignalled := 0 }, base := m.base.disarm (.irqTime g) }
  { m with base := m.base.message ⟨m.base.slicePart s, m.base.rd (Reg.SLC_QP_IRQ s q) F.SLC_QP_IRQ_vector, .qp g⟩ }

/-- An entry was written: count it, and send the ring's message when a trigger holds (R177). -/
def Mod.signal (m : Mod) (s q g status : Nat) : Mod :=
  let a := Reg.SLC_QP_IRQ s q
  if !m.base.isSet a F.SLC_QP_IRQ_irq_en then m
  else
    let n := (m.qe.qp g).unsignalled + 1
    let m := { m with qe := m.qe.setQp { m.qe.qp g with unsignalled := n } }
    let t := m.base.rd a F.SLC_QP_IRQ_time_us
    if decide (max 1 (m.base.rd a F.SLC_QP_IRQ_cnt_thr) ≤ n) || t == 0 ||
       (m.base.isSet a F.SLC_QP_IRQ_err_now && decide (0x20 ≤ status)) then m.ringMessage s q g
    else { m with base := m.base.armIfIdle (.irqTime g) (t * us) }

/-! ### Completion entries (R169-R172) -/

/-- The 32 bytes of a completion entry (R169). -/
def cplBytes (e : CplEntry) (sqHead gqp ts : Nat) (phase : Bool) : List Byte :=
  leBytes 4 (e.cid % 65536 + 2 ^ 16 * (e.status % 256) + 2 ^ 24 * (e.opcode % 256)) ++
  leBytes 4 (sqHead % 65536 + 2 ^ 16 * (gqp % 4096) + 2 ^ 31 * b2n e.final) ++
  leBytes 8 e.bytes ++
  leBytes 4 (e.entriesDone % 4096 + 2 ^ 16 * (e.retries % 16)) ++
  leBytes 4 ts ++ leBytes 4 (e.detail % 2 ^ 32) ++ leBytes 4 (2 ^ 31 * b2n phase)

/-- One entry goes into a completion ring (R169, R170): guarded, written, the tail moves, and the ring is
signalled. A denied write posts nothing and puts the pair in ERROR with CPL_DENIED (R150). -/
def Mod.putEntry (m : Mod) (s q g : Nat) (e : CplEntry) : Mod :=
  let p := m.base.slicePart s
  let tail := m.base.rd (Reg.SLC_QP_PTR s q) F.SLC_QP_PTR_cq_tail
  let addr := m.base.word64 (Reg.SLC_QP_CQ_BASE s q) / 4096 * 4096 + 32 * tail
  let pas := some (m.base.slicePasid s)
  let (b, d) := m.base.guard (24 + p) (m.base.qeAccess s addr 32 pas true)
  let m := { m with base := b }
  if d.isSome then
    ({ m with base := m.base.raise { group := 16, bit := 16 + p, sev := 1, scope := .slice s } } : Mod).qpError s q 4
  else
    let r := m.qe.qp g
    let n := m.base.cqSize s q
    let data := cplBytes e (m.base.rd (Reg.SLC_QP_PTR s q) F.SLC_QP_PTR_sq_head) g m.base.ts r.phase
    let b := m.base.emit (.hostWrite p addr pas data)
    let b := b.wr (Reg.SLC_QP_PTR s q) F.SLC_QP_PTR_cq_tail ((tail + 1) % n)
    let b := b.occ 0x1C1 p (some s) 1
    let m := { m with base := b, qe := m.qe.setQp { r with phase := if tail + 1 = n then !r.phase else r.phase } }
    m.signal s q g e.status

/-- A late completion entry of a slice's former occupant is discarded (R188): a late completion of the queue engine, whose header is the
entry's first two words (R169). -/
def Base.lateEntry (b : Base) (s g : Nat) (e : CplEntry) : Base :=
  b.late (24 + b.slicePart s) (e.cid % 65536 + 2 ^ 16 * (e.status % 256) + 2 ^ 24 * (e.opcode % 256))
    (2 ^ 16 * (g % 4096) + 2 ^ 31 * b2n e.final)

/-- A late event entry, likewise: its header is its first two words (R173, R188). -/
def Base.lateEvent (b : Base) (s : Nat) (e : Ev) : Base :=
  b.late (24 + b.slicePart s) (e.bit + 32 * e.group + 2 ^ 10 * e.sev + 2 ^ 16 * (e.cause % 65536)) e.detail

/-- Reserved slots of a pair are given back. -/
def Mod.unreserve (m : Mod) (g n : Nat) : Mod :=
  let r := m.qe.qp g
  { m with qe := m.qe.setQp { r with reserved := r.reserved - n } }

/-- Is the slice that an item is tagged with still the one it was made for (R188)? -/
def Base.sameSlice (b : Base) (s gen : Nat) : Bool := b.sliceLive s && b.sliceGen s == gen

/-- A stage is posted (R28, R169, R171): the entry is written into its reserved slot unless its slice has a
new occupant (R188); the stage counts for fences; a final stage ends the descriptor and frees what it reserved. -/
def Mod.postNow (m : Mod) (id : Nat) (e : CplEntry) : Mod :=
  match m.qe.desc id with
  | none => m
  | some d =>
    let e := { e with cid := d.cid, opcode := d.opcode }
    let m :=
      if m.base.sameSlice d.slice d.gen then m.putEntry d.slice (d.gqp - m.base.qpBase d.slice) d.gqp e
      else { m with base := m.base.lateEntry d.slice d.gqp e }
    let m := if e.final then m.unreserve d.gqp d.slots else m.unreserve d.gqp 1
    let d' := { d with first := d.first.or (some e.status), last := if e.final then some e.status else none,
                       slots := d.slots - 1 }
    let qe := m.qe.fenceReached d' e.status e.final
    let qe := if e.final then { qe with descs := qe.descs.filter (fun x => x.id != id) } else qe.setDesc d'
    ({ m with qe := qe } : Mod).refreshBusy d.gqp

/-- A descriptor has reached a stage: it is posted, or held in its reserved slot while Bus Master Enable is clear (R179), when the
descriptor still counts as busy (R161). -/
def Mod.postStage (m : Mod) (id : Nat) (e : CplEntry) : Mod :=
  match m.qe.desc id with
  | none => m
  | some d =>
    if d.phase == .done then m
    else
      let d := { d with decided := d.decided.or (some e.status), phase := if e.final then .done else d.phase }
      let m := { m with qe := m.qe.setDesc d }
      if m.base.bme (m.base.slicePart d.slice) || !m.base.sameSlice d.slice d.gen then m.postNow id e
      else { m with base := { m.base with held := m.base.held ++ [.stage d.slice id e] } }

/-- A descriptor completes with a final status. -/
def Mod.complete (m : Mod) (id status : Nat) : Mod := m.postStage id { cid := 0, opcode := 0, status := status, final := true }

/-- Has the fence begun: a fence register's at its write, a FENCE descriptor's once the queue engine has taken it up? -/
def Queues.fenceBegun (x : Queues) (f : FenceRun) : Bool :=
  match f.desc.bind x.desc with
  | some d => d.phase == .waiting
  | none => true

/-- Fences that wait for nothing more complete (R133, R134); the completion of one may end another, so `n` bounds the
rounds. -/
def Mod.settleFences : Nat → Mod → Mod
  | 0, m => m
  | n + 1, m =>
    match m.qe.fences.find? (fun f => f.covered.isEmpty && m.qe.fenceBegun f) with
    | none => m
    | some f =>
      let m := { m with qe := { m.qe with fences := m.qe.fences.erase f } }
      let (st, cid) := f.outcome
      let m := match f.desc with
        | some id => m.postStage id { cid := 0, opcode := 0, status := st, final := true, detail := cid }
        | none =>
          let a := Reg.SLC_FENCE f.slice
          { m with base := (m.base.wr a F.SLC_FENCE_done 1).wr a F.SLC_FENCE_status st }
      Mod.settleFences n m

/-- Completions are followed by the fences they end. -/
def Mod.fences (m : Mod) : Mod := Mod.settleFences (m.qe.fences.length + 1) m

/-- The completion entry of a direct-mode job (R115). -/
def HeldCpl.entry (h : HeldCpl) : CplEntry :=
  { cid := h.cid, status := h.status, opcode := 1, final := true, bytes := h.bytes, retries := h.retries, detail := h.detail }

/-- A direct-mode job's entry is written, unless its slice has a new occupant (R188). -/
def Mod.putDirect (m : Mod) (h : HeldCpl) : Mod :=
  if m.base.sameSlice h.slice h.gen then m.putEntry h.slice (h.gqp - m.base.qpBase h.slice) h.gqp h.entry
  else { m with base := m.base.lateEntry h.slice h.gqp h.entry }

/-- Held completion entries of direct-mode jobs are written, in order, while slots are free (R115); while Bus Master Enable is clear
they wait in those slots (R179). -/
def Mod.writeHeld (m : Mod) (g : Nat) : Mod :=
  (m.qe.heldCpls.filter (fun h => h.gqp == g)).foldl (fun m h =>
    match m.base.qpOwner g with
    | none => m
    | some (s, q) =>
      if m.qe.heldCpls.find? (fun x => x.gqp == g) == some h && 0 < m.freeSlots s q g then
        let m := { m with qe := { m.qe with heldCpls := m.qe.heldCpls.erase h } }
        if m.base.bme (m.base.slicePart h.slice) then m.putDirect h
        else
          let r := m.qe.qp g
          { m with base := { m.base with held := m.base.held ++ [.direct h] }, qe := m.qe.setQp { r with reserved := r.reserved + 1 } }
      else m) m

/-- What was held is written now that Bus Master Enable is set (R179), built as it stands now; an item of a slice's former occupant is
discarded (R188). -/
def Mod.release (m : Mod) (x : Held) : Mod :=
  match x with
  | .stage _ id e => (m.postNow id e).fences
  | .direct h => (m.unreserve h.gqp 1).putDirect h
  | .event s gen e =>
    if m.base.sameSlice s gen then
      (if m.base.isSet (Reg.SLC_EQ_STATUS s) F.SLC_EQ_STATUS_enabled then { m with base := m.base.eqWrite s e } else m)
    else { m with base := m.base.lateEvent s e }
  | .msg y => { m with base := m.base.message y }

/-- The slice of something held. -/
def Base.heldSlice (b : Base) (x : Held) : Nat :=
  match x with
  | .stage s _ _ => s
  | .direct h => h.slice
  | .event s _ _ => s
  | .msg y => b.msgSlice y

/-- The partition of something held. -/
def Base.heldPart (b : Base) (x : Held) : Nat :=
  match x with
  | .msg y => y.part
  | _ => b.slicePart (b.heldSlice x)

/-! ### Doorbells (R167, R191) -/

/-- Does a slice's state let doorbells act, record or ignore them (R191): 0 act, 1 record, 2 ignore? -/
def Base.doorbellMode (b : Base) (s : Nat) : Nat :=
  match b.sliceState s with
  | 1 => 0
  | 4 | 5 => 1
  | _ => 2

/-- A doorbell is recorded while the slice freezes or is frozen (R191). -/
def Mod.recordDoorbell (m : Mod) (s r v : Nat) : Mod :=
  let qe := { m.qe with recorded := m.qe.recorded.filter (fun x => !(x.1 == s && x.2.1 == r)) ++ [(s, r, v)] }
  let m := { m with qe := qe }
  if m.qe.saved.contains s then { m with base := m.base.wr (Reg.SLC_STATE s) F.SLC_STATE_stale_blob 1 } else m

/-- The submission doorbell acts (R167). -/
def Mod.sqAct (m : Mod) (who : Who) (s q t : Nat) : Mod :=
  if m.base.qpState s q != 1 then { m with base := m.base.misuse who s }
  else
    let g := m.base.qpBase s + q
    if t = (m.qe.qp g).tail then m
    else if m.base.sqSize s q ≤ t then m.qpError s q 1
    else { m with qe := m.qe.setQp { m.qe.qp g with tail := t } }

/-- The completion doorbell acts (R167): invalid when it passes the tail; else slots are freed and held entries are
written. -/
def Mod.cqAct (m : Mod) (who : Who) (s q h : Nat) : Mod :=
  if m.base.qpState s q == 0 && !m.base.isSet (Reg.SLC_QP_STATUS s q) F.SLC_QP_STATUS_busy then
    { m with base := m.base.misuse who s }
  else
    let g := m.base.qpBase s + q
    let n := m.base.cqSize s q
    let r := m.qe.qp g
    let tail := m.base.rd (Reg.SLC_QP_PTR s q) F.SLC_QP_PTR_cq_tail
    if (tail + n - r.cqHead) % n < (h + n - r.cqHead) % n then m.qpError s q 2
    else ({ m with qe := m.qe.setQp { r with cqHead := h % n } } : Mod).writeHeld g

/-- The event-ring doorbell acts (R173, SLC_EQ_DB). -/
def Mod.eqAct (m : Mod) (s h : Nat) : Mod :=
  let n := 2 ^ m.base.rd (Reg.SLC_EQ_CFG s) F.SLC_EQ_CFG_log2
  let tail := m.base.rd (Reg.SLC_EQ_STATUS s) F.SLC_EQ_STATUS_tail
  let e := m.base.eq s
  if (tail + n - e.head) % n < (h + n - e.head) % n then
    { m with base := m.base.wr (Reg.SLC_EQ_STATUS s) F.SLC_EQ_STATUS_bad_db 1 }
  else { m with base := m.base.setEq { e with head := h % n } }

/-- A doorbell write reaches a slice page (R167, R191): register 0 + q SLC_SQ_DB, 64 + q SLC_CQ_DB, 128 SLC_EQ_DB. A
local number the slice does not have ignores writes (R183). -/
def Mod.doorbell (m : Mod) (who : Who) (s r v : Nat) : Mod :=
  if m.base.sliceLive s && r < 128 && m.base.qpCount s ≤ r % 64 then m
  else
    match m.base.doorbellMode s with
    | 0 => if r < 64 then m.sqAct who s r (v % 65536) else if r < 128 then m.cqAct who s (r - 64) (v % 65536)
           else m.eqAct s (v % 65536)
    | 1 => m.recordDoorbell s r (v % 65536)
    | _ => { m with base := m.base.misuse who s }

/-! ### Ring setup (R161, R173, R176) -/

/-- Does a slice's vector range hold `v` (R176)? -/
def Base.vectorOk (b : Base) (s v : Nat) : Bool :=
  let a := Reg.SLC_NAMES s
  decide (b.rd a F.SLC_NAMES_vec_base ≤ v) && decide (v < b.rd a F.SLC_NAMES_vec_base + b.rd a F.SLC_NAMES_vec_count)

/-- Is a ring size field valid (R160)? -/
def sizeOk (n : Nat) : Bool := decide (6 ≤ n) && decide (n ≤ 16)

/-- A write of SLC_QP_CFG (R161): cfg_err clears on 1, burst takes the value, the size fields are ignored (with an event
when they would change) while enable = 1 or busy = 1, and enable starts or stops the pair. -/
def Mod.qpCfgWrite (m : Mod) (who : Who) (s q v : Nat) : Mod :=
  let a := Reg.SLC_QP_CFG s q
  let st := Reg.SLC_QP_STATUS s q
  let en := m.base.isSet a F.SLC_QP_CFG_enable
  let busy := m.base.isSet st F.SLC_QP_STATUS_busy
  let b := if bitOf v 14 then m.base.wr a F.SLC_QP_CFG_cfg_err 0 else m.base
  let b := b.wr a F.SLC_QP_CFG_burst (bits v F.SLC_QP_CFG_burst)
  let sq := bits v F.SLC_QP_CFG_sq_log2
  let cq := bits v F.SLC_QP_CFG_cq_log2
  let changed := b.rd a F.SLC_QP_CFG_sq_log2 != sq || b.rd a F.SLC_QP_CFG_cq_log2 != cq
  let b := if en || busy then (if changed then b.misuse who s else b)
           else (b.wr a F.SLC_QP_CFG_sq_log2 sq).wr a F.SLC_QP_CFG_cq_log2 cq
  let m := { m with base := b }
  let g := m.base.qpBase s + q
  if bitOf v 0 then
    if en then m
    else if busy || !sizeOk sq || !sizeOk cq then
      { m with base := (m.base.wr a F.SLC_QP_CFG_cfg_err 1).misuse who s }
    else
      let b := ((m.base.wr a F.SLC_QP_CFG_enable 1).wr st F.SLC_QP_STATUS_state 1).wr st F.SLC_QP_STATUS_cause 0
      let b := b.setWord (Reg.SLC_QP_PTR s q) 0#32
      { m with base := b, qe := m.qe.setQp { gqp := g, unsignalled := (m.qe.qp g).unsignalled } }
  else if en then
    ({ m with base := m.base.wr a F.SLC_QP_CFG_enable 0, qe := m.qe.noLost g } : Mod).refreshBusy g
  else m

/-- A pending message of a ring is discarded (R178). -/
def Base.dropPending (b : Base) (src : MsgSrc) : Base := { b with pend := b.pend.filter (fun x => x.src != src) }

/-- A write of SLC_EQ_CFG (R173): size and vector, and an enable from 0 to 1 with a valid size starts the ring anew. -/
def Mod.eqCfgWrite (m : Mod) (who : Who) (s v : Nat) : Mod :=
  let a := Reg.SLC_EQ_CFG s
  let en := m.base.isSet a F.SLC_EQ_CFG_enable
  let vec := bits v F.SLC_EQ_CFG_vector
  let b := m.base
  let b := if b.vectorOk s vec then b.wr a F.SLC_EQ_CFG_vector vec else b.misuse who s
  let b := b.wr a F.SLC_EQ_CFG_irq_en (bits v F.SLC_EQ_CFG_irq_en)
  let b := if bitOf v 17 then b else b.dropPending (.eq s)
  let b := if en then b else b.wr a F.SLC_EQ_CFG_log2 (bits v F.SLC_EQ_CFG_log2)
  let stt := Reg.SLC_EQ_STATUS s
  if bitOf v 0 then
    if en || !sizeOk (bits v F.SLC_EQ_CFG_log2) then { m with base := b }
    else
      let b := ((b.wr a F.SLC_EQ_CFG_enable 1).wr stt F.SLC_EQ_STATUS_tail 0).wr stt F.SLC_EQ_STATUS_enabled 1
      { m with base := b.setEq { slice := s } }
  else { m with base := (b.wr a F.SLC_EQ_CFG_enable 0).wr stt F.SLC_EQ_STATUS_enabled 0 }

/-! ### Decoding (R166) -/

/-- The field of a descriptor's word at an offset. -/
def Desc.field (d : Desc) (off : Nat) (f : Fld) : Nat := bits (fieldAt d.raw off 8) f

/-- Are all bytes of the descriptor in a range zero? -/
def Desc.zero (d : Desc) (off n : Nat) : Bool := fieldAt d.raw off n == 0

/-- The traffic class, retries and meter of a descriptor (R162). -/
def Desc.tc (d : Desc) : Nat := d.field 4 ⟨21, 3⟩
def Desc.meterEn (d : Desc) : Bool := d.field 4 ⟨24, 1⟩ == 1
def Desc.retries (d : Desc) : Nat := d.field 4 ⟨25, 4⟩
def Desc.meterName (d : Desc) : Nat := d.field 8 ⟨0, 12⟩
def Desc.pasidEn (d : Desc) : Bool := d.field 4 ⟨20, 1⟩ == 1
/-- Fields of a park descriptor (R164). -/
def Desc.cls (d : Desc) : Nat := d.field 0 ⟨8, 2⟩
def Desc.release (d : Desc) : Bool := d.field 0 ⟨10, 1⟩ == 1
def Desc.hostAddr (d : Desc) : Nat := fieldAt d.raw 0x10 8
def Desc.shelfAddr (d : Desc) : Nat := fieldAt d.raw 0x18 8
def Desc.length (d : Desc) : Nat := d.field 0x20 ⟨0, 40⟩
def Desc.shelf (d : Desc) : Nat := d.field 0x28 ⟨0, 6⟩
def Desc.path (d : Desc) : Nat := d.field 0x28 ⟨6, 12⟩
def Desc.remote (d : Desc) : Bool := d.field 0x28 ⟨18, 1⟩ == 1

/-- The PASID of a descriptor's host-space accesses: its own for slice 0 when pasid_en, else the slice's (R162). -/
def Base.descPasid (b : Base) (d : Desc) : Nat :=
  if d.pasidEn then d.field 4 ⟨0, 20⟩ else b.slicePasid d.slice

/-- The physical meter of a descriptor, if it names one (R184). -/
def Base.descMeter (b : Base) (d : Desc) : Option Nat :=
  if d.meterEn then
    some (b.rd (Reg.SLC_BASE d.slice) F.SLC_BASE_meter_base + d.meterName -
      b.rd (Reg.SLC_NAMES d.slice) F.SLC_NAMES_meter_name)
  else none

/-- Does the slice accept a meter name (R184)? -/
def Base.meterOwned (b : Base) (s name : Nat) : Bool :=
  let lo := b.rd (Reg.SLC_NAMES s) F.SLC_NAMES_meter_name
  decide (lo ≤ name) && decide (name < lo + b.rd (Reg.SLC_RES s) F.SLC_RES_meter_count)

/-- Digit L (1 to 4) of a bond path (R269). -/
def pathDigit (path l : Nat) : Nat := path / 2 ^ (12 - 3 * l) % 8

/-- The first level at which two bond paths differ (R270). -/
def diffLevel (a c : Nat) : Option Nat := [1, 2, 3, 4].find? (fun l => pathDigit a l != pathDigit c l)

/-- This module's bond path. -/
def Base.path (b : Base) : Nat := b.rd Reg.BND_CFG F.BND_CFG_path

/-- Is a bond path this module or a member of its bonds (R281)? -/
def Base.isMember (b : Base) (path : Nat) : Bool :=
  match diffLevel path b.path with
  | none => true
  | some l => b.rd (Reg.BND_MEMBER (8 * (l - 1) + pathDigit path l)) F.BND_MEMBER_state != 0

/-- Is a reserved bit of the common header set? -/
def Desc.headerReserved (d : Desc) : Bool := d.field 4 ⟨29, 3⟩ != 0 || d.field 8 ⟨12, 20⟩ != 0 || !d.zero 0x0C 4

/-- Is a reserved bit of a descriptor's header or body set (R166)? A SLICE_CTL's reserved bits are checked with its operation (R187,
BAD_FIELD). -/
def Desc.reservedSet (d : Desc) : Bool :=
  d.headerReserved ||
  match d.opcode with
  | 0x01 => d.field 0 ⟨8, 8⟩ != 0 || d.field 0x20 ⟨40, 24⟩ != 0 || !d.zero 0x2C 20 ||
            (d.field 0x28 ⟨0, 32⟩ &&& 0xFFC0C088) != 0
  | 0x02 | 0x03 => d.field 0 ⟨11, 5⟩ != 0 || d.field 0x20 ⟨40, 24⟩ != 0 || d.field 0x28 ⟨19, 13⟩ != 0 || !d.zero 0x2C 20
  | 0x04 => d.field 0 ⟨10, 6⟩ != 0 || !d.zero 0x10 48
  | 0x05 => d.field 0 ⟨8, 8⟩ != 0 || !d.zero 0x10 48
  | 0x11 => d.field 0 ⟨8, 8⟩ != 0 || d.field 0x10 ⟨41, 23⟩ != 0 || !d.zero 0x18 40
  | _ => false

/-- Is the descriptor MALFORMED (R166)? -/
def Base.malformed (b : Base) (d : Desc) : Bool :=
  let park := d.opcode == 2 || d.opcode == 3
  !([0x01, 0x02, 0x03, 0x04, 0x05, 0x10, 0x11].contains d.opcode) || (d.opcode != 0x10 && d.reservedSet) ||
  (park && (d.cls == 3 || d.length == 0 || decide (2 ^ 36 < d.length) || decide (55 < d.shelf))) ||
  (d.opcode == 3 && d.release) || (d.opcode == 2 && d.release && d.cls != 0) ||
  (d.pasidEn && d.slice != 0) || (d.meterEn && !b.meterOwned d.slice d.meterName) ||
  (park && d.remote && (!b.isSet Reg.BND_CFG F.BND_CFG_fabric || !b.isMember d.path)) ||
  ((d.opcode == 0x10 || d.opcode == 0x11) && d.slice != 0)

/-! ### Fetching (R168, R172) -/

/-- Is further fetching of the pair held by a FENCE that waits (R132)? -/
def Queues.fenced (x : Queues) (s g : Nat) : Bool :=
  x.fences.any (fun f => f.desc.isSome && f.slice == s && (f.gqp.isNone || f.gqp == some g)) ||
  x.descs.any (fun d => d.opcode == 4 && d.slice == s && (d.field 0 ⟨8, 1⟩ == 1 || d.gqp == g))

/-- May the queue engine of partition p fetch at all: stage READY (R332), Bus Master Enable (R179), D0 (R156), not held
(R309), the input not in the brown zone (R346)? -/
def Mod.engineRuns (m : Mod) (p : Nat) : Bool :=
  m.base.rd Reg.CLK_STATUS F.CLK_STATUS_stage == 6 && m.base.bme p && !m.base.d3hot p &&
  !m.qe.engineHeld.contains p && decide (m.base.rd Reg.PWR_STATUS F.PWR_STATUS_zone < 2) &&
  m.pl.m2 == 0 && m.pl.take.isNone

/-- The queue pairs of a partition that have work to fetch, in ascending global number. -/
def Mod.fetchable (m : Mod) (p : Nat) : List (Nat × Nat × Nat) :=
  ((List.range 1024).filter (fun s => m.base.sliceState s == 1 && m.base.slicePart s == p)).flatMap (fun s =>
    (List.range (m.base.qpCount s)).filterMap (fun q =>
      let g := m.base.qpBase s + q
      if m.base.qpState s q == 1 && m.base.isSet (Reg.SLC_QP_CFG s q) F.SLC_QP_CFG_enable &&
         (m.qe.qp g).tail != m.base.rd (Reg.SLC_QP_PTR s q) F.SLC_QP_PTR_sq_head && (!m.qe.fenced s g || m.qe.lost.any (fun x => x.1 == g)) &&
         !m.qe.turns.any (fun t => t.gqp == g)
      then some (s, q, g) else none))

/-- Insert a pair by its global number. -/
def insertByG (x : Nat × Nat × Nat) : List (Nat × Nat × Nat) → List (Nat × Nat × Nat)
  | [] => [x]
  | y :: ys => if x.2.2 < y.2.2 then x :: y :: ys else y :: insertByG x ys

/-! ### Shelves as descriptors see them (R25, R26, R285) -/

/-- The record of a shelf slot. -/
def Park.slot (x : Park) (n : Nat) : Slot := (x.slots.find? (fun s => s.n == n)).getD { n := n }

/-- The live entries of a slot of this module: those not in a final state (R25). -/
def Park.live (x : Park) (n : Nat) : List Entry := x.entries.filter (fun e => e.shelf == n && e.state != 7 && e.remoteTo.isNone)

/-- Does a shelf count as awake for R25: its link is in L0 or L1 and SHELF_PG_n is asserted? -/
def Mod.shelfAwake (m : Mod) (n : Nat) : Bool :=
  match m.base.slotPort n with
  | some p => m.base.linkUp p && (m.prk.slot n).pg
  | none => false

/-- The virtual port (32 * partition + device) that a descriptor's port number names when it is no downstream port of this module: device
number q of the partition, while a shelf is lent there (DESIGN CHOICE, log entry 43: R163 has a bus side name a port as the partition's
hierarchy holds it, and gives a lent virtual port no number P0-P63). -/
def Base.lentPort (b : Base) (part q : Nat) : Option Nat :=
  let v := 32 * part + q
  if q < 32 && b.portRole q != 2 && b.isSet (Reg.BND_LEND v) F.BND_LEND_valid then some v else none

/-- The virtual port of a partition that a member's slot is lent to. -/
def Base.lentSlot (b : Base) (part path slot : Nat) : Option Nat :=
  ((List.range 32).map (fun d => 32 * part + d)).find? (fun v => (b.lentPort part (v % 32)).isSome &&
    b.rd (Reg.BND_LEND v) F.BND_LEND_owner_path == path && b.rd (Reg.BND_LEND v) F.BND_LEND_slot == slot)

/-- Is a lent shelf awake, as the borrower knows it: the virtual link is active and the owner reports power good (R214, R289)? -/
def Base.lentAwake (b : Base) (v : Nat) : Bool := bitOf (b.cfg (88 + v) 0x80) 29 && b.isSet (Reg.BND_LEND v) F.BND_LEND_pg

/-- The ports that a MOVE's bus sides name (R163). -/
def Desc.busPorts (d : Desc) : List Nat :=
  let sp := d.field 0x28 ⟨0, 32⟩
  let one := fun (space port : Fld) => if bits sp space = 1 then [bits sp port] else []
  one F.HOD_CH_SH_SPACE_src_space F.HOD_CH_SH_SPACE_src_port ++ one F.HOD_CH_SH_SPACE_dst_space F.HOD_CH_SH_SPACE_dst_port

/-- Is the shelf behind a port that a MOVE names awake? One behind no downstream port is not. -/
def Mod.portAwake (m : Mod) (part q : Nat) : Bool :=
  if m.base.portRole q == 2 then m.shelfAwake (m.base.rd (Reg.PRT_CFG q) F.PRT_CFG_slot)
  else ((m.base.lentPort part q).map m.base.lentAwake).getD false

/-- Does a park descriptor name a shelf of another member (R32)? -/
def Base.elsewhere (b : Base) (d : Desc) : Bool := d.remote && d.path != b.path

/-- The shelf state is sampled once, at fetch (R25, R26). The live entries of another member's shelf are those that this module knows of
(DESIGN CHOICE, log entry 43). -/
def Mod.sampleShelf (m : Mod) (d : Desc) : Desc :=
  let part := m.base.slicePart d.slice
  if d.opcode = 1 then { d with awake := d.busPorts.all (m.portAwake part) }
  else if m.base.elsewhere d then
    { d with awake := ((m.base.lentSlot part d.path d.shelf).map m.base.lentAwake).getD false,
             live := m.prk.entries.any (fun e => e.shelf % 64 == d.shelf && e.state != 7 && e.remoteTo == some d.path) }
  else { d with awake := m.shelfAwake d.shelf, live := !(m.prk.live d.shelf).isEmpty }

/-- One fetch read is issued through the guard (R160, R168): a denied one has failed already. -/
def Mod.issueFetch (m : Mod) (s p port : Nat) (addr : Nat) (r : FetchRead) : Mod × FetchRead :=
  let pas := some (m.base.slicePasid s)
  let (b, d) := m.base.guard (24 + p) (m.base.qeAccess s addr (64 * r.count) pas false)
  let m := { m with base := b }
  if d.isSome then (m, { r with result := some ⟨.ur, []⟩ })
  else
    match m.freeTag port with
    | none => (m, { r with result := some ⟨.ur, []⟩ })
    | some t =>
      (({ m with base := m.base.emit (.hostRead p addr pas (64 * r.count) r.id) } : Mod).takeTag port t (64 * r.count)
        (.fetch p r.id), r)

/-- A queue pair takes its turn (R168): up to burst + 1 descriptors, as many as free completion slots cover (R172), in
one read, or two when the turn wraps. -/
def Mod.fetchTurn (m : Mod) (p port : Nat) (x : Nat × Nat × Nat) : Mod :=
  let (s, q, g) := x
  let size := m.base.sqSize s q
  let head := m.base.rd (Reg.SLC_QP_PTR s q) F.SLC_QP_PTR_sq_head
  let avail := ((m.qe.qp g).tail + size - head) % size
  let n := min (min (m.base.rd (Reg.SLC_QP_CFG s q) F.SLC_QP_CFG_burst + 1) avail) (m.freeSlots s q g / 2)
  let n := if m.qe.fenced s g then min n (m.qe.lost.filter (fun x => x.1 == g)).length else n
  if n = 0 then m
  else
    let n1 := min n (size - head)
    let base := m.base.word64 (Reg.SLC_QP_SQ_BASE s q) / 4096 * 4096
    let id := m.qe.nextFetch
    let (m, r1) := m.issueFetch s p port (base + 64 * head) { id := id, slot := head, count := n1 }
    let (m, rs) := if n1 < n then
        let (m, r2) := m.issueFetch s p port base { id := id + 1, slot := 0, count := n - n1 }
        (m, [r1, r2])
      else (m, [r1])
    let r := m.qe.qp g
    let qe := m.qe.setQp { r with reserved := r.reserved + 2 * n }
    let t : FetchTurn := { part := p, gqp := g, slice := s, gen := m.base.sliceGen s, start := head, reads := rs }
    let qe := { qe with turns := qe.turns ++ [t], nextFetch := id + 2, served := tset qe.served p (g + 1) }
    let b := m.base.wr (Reg.SLC_QP_PTR s q) F.SLC_QP_PTR_sq_head ((head + n) % size)
    let b := b.wr (Reg.SLC_QP_STATUS s q) F.SLC_QP_STATUS_busy 1
    { m with qe := qe, base := b }

/-- The descriptors that one read brought, in ring order: whole 64 B pieces of its data. -/
def FetchRead.pieces (r : FetchRead) : List (List Byte) :=
  match r.result with
  | none => []
  | some c => (List.range (min r.count (c.data.length / 64))).map (fun i => (c.data.drop (64 * i)).take 64)

/-- Did the read bring all it asked for? -/
def FetchRead.whole (r : FetchRead) : Bool :=
  match r.result with
  | some c => c.status == .ok && decide (64 * r.count ≤ c.data.length)
  | none => false

/-- A descriptor is taken (R166, R172): decoded, its second slot released unless it is a PARK_WRITE, and it waits for its
operation or for its completion with MALFORMED. A FENCE records what it covers when it is fetched (R132); the state of the shelves that the
descriptor names is sampled (R26). One that the recovery of the engine discarded comes back in its old place (R308). -/
def Mod.takeDesc (m : Mod) (t : FetchTurn) (slot : Nat) (raw : List Byte) : Mod :=
  let again := m.qe.lost.find? (fun x => x.1 == t.gqp && x.2.1 == slot)
  let id := (again.map (fun x => x.2.2)).getD m.qe.nextDesc
  let m := { m with qe := { m.qe with lost := match again with
    | some x => m.qe.lost.erase x
    | none => m.qe.lost } }
  let d : Desc := { id := id, gqp := t.gqp, slice := t.slice, gen := t.gen, raw := raw, slot := slot }
  let d := m.sampleShelf d
  let d := { d with slots := if d.opcode == 2 then 2 else 1 }
  let m := if d.opcode == 2 then m else m.unreserve t.gqp 1
  let awaitFinal := d.field 0 ⟨9, 1⟩ == 1
  let wide := d.field 0 ⟨8, 1⟩ == 1
  let cov := if d.opcode == 4 then
      (m.qe.descs.filter (fun e => e.slice == d.slice && decide (e.id < id) && (wide || e.gqp == d.gqp) &&
        (awaitFinal || e.first.isNone))).map Desc.id
    else []
  let d := { d with covered := cov, bad := m.base.malformed d }
  let m := { m with qe := { m.qe with descs := m.qe.descs.filter (fun e => decide (e.id < id)) ++ [d] ++
                                        m.qe.descs.filter (fun e => decide (id < e.id)), nextDesc := max m.qe.nextDesc (id + 1) },
                    base := m.base.occ 0x1C0 t.part (some t.slice) 1 }
  if d.opcode == 4 && !d.bad then
    { m with qe := { m.qe with fences := m.qe.fences ++
        [{ desc := some id, slice := d.slice, gqp := if wide then none else some d.gqp, covered := cov,
           final := awaitFinal }] } }
  else m

/-- Descriptors of a turn are taken in ring order from slot number `k` of it, until a FENCE of their scope holds back the rest (R132); the
number taken. -/
def Mod.takeAll (t : FetchTurn) (size : Nat) : Nat → List (List Byte) → Mod → Mod × Nat
  | k, [], m => (m, k)
  | k, raw :: rest, m =>
    let slot := (t.start + k) % size
    if m.qe.fenced t.slice t.gqp && !m.qe.lost.any (fun x => x.1 == t.gqp && x.2.1 == slot) then (m, k)
    else Mod.takeAll t size (k + 1) rest (m.takeDesc t slot raw)

/-- A turn ends: every read is in, or one failed after those before it. The descriptors before the failing one are taken;
at a failure sq_head names the failing slot, the rest is discarded and the pair is in ERROR with FETCH_FAIL (R168). What a FENCE holds
back stays in the ring, and sq_head names the first of it (R132). -/
def Mod.endTurn (m : Mod) (t : FetchTurn) (rs : List FetchRead) : Mod :=
  let m := { m with qe := { m.qe with turns := m.qe.turns.filter (fun x => x != t) } }
  let q := t.gqp - m.base.qpBase t.slice
  let size := m.base.sqSize t.slice q
  let total := t.reads.foldl (fun n r => n + r.count) 0
  let good := rs.takeWhile FetchRead.whole
  let partialRead := (rs.drop good.length).head?
  let pieces := good.flatMap FetchRead.pieces ++
    (match partialRead with
     | some r => r.pieces.take (r.count - 1)
     | none => [])
  let (m, k) := Mod.takeAll t size 0 pieces m
  let m := m.unreserve t.gqp (2 * (total - k))
  let m := if k < total then { m with base := m.base.wr (Reg.SLC_QP_PTR t.slice q) F.SLC_QP_PTR_sq_head ((t.start + k) % size) } else m
  let m := if partialRead.isSome && k == pieces.length then m.qpError t.slice q 3 else m
  m.refreshBusy t.gqp

/-- A turn whose slice was taken away is dropped: its descriptors stay in the ring and sq_head rewinds (R179, R193). -/
def Mod.rewindTurn (m : Mod) (t : FetchTurn) : Mod :=
  let total := t.reads.foldl (fun n r => n + r.count) 0
  let q := t.gqp - m.base.qpBase t.slice
  let m := { m with qe := { m.qe with turns := m.qe.turns.filter (fun x => x != t) } }
  let m := (m.unreserve t.gqp (2 * total))
  ({ m with base := m.base.wr (Reg.SLC_QP_PTR t.slice q) F.SLC_QP_PTR_sq_head t.start } : Mod).refreshBusy t.gqp

/-- The reads of a turn that can be acted on now: all of them, or those up to the first failure once the ones before it
are in (R168). -/
def FetchTurn.ready (t : FetchTurn) : Bool :=
  match t.reads.find? (fun r => !r.whole) with
  | none => true
  | some r => r.result.isSome

/-- A fetch read's completion is taken into its turn (R168). -/
def Mod.fetchDone (m : Mod) (p id : Nat) (c : Cpl) : Mod :=
  match m.gather (.fetch p id) c with
  | (m, none) => m
  | (m, some (_, c)) =>
    let m := m.endTag (.fetch p id) c.status
    match m.qe.turns.find? (fun t => t.part == p && t.reads.any (fun r => r.id == id && r.result.isNone)) with
    | none => m
    | some t =>
      let t' := { t with reads := t.reads.map (fun r => if r.id == id then { r with result := some c } else r) }
      let m := { m with qe := { m.qe with turns := m.qe.turns.map (fun x => if x == t then t' else x) } }
      if t'.ready then (m.endTurn t' t'.reads).fences else m

/-- The queue engine of partition p serves the next pair in round robin (R168), once its reads can have tags (R210). -/
def Mod.fetchNext (m : Mod) (p : Nat) : Mod :=
  match m.base.upstreamPort p with
  | none => m
  | some port =>
    if !m.engineRuns p || !m.tagsFree port 2 then m
    else
      let l := (m.fetchable p).foldl (fun acc x => insertByG x acc) []
      let start := tget m.qe.served p
      let order := l.filter (fun x => decide (start ≤ x.2.2)) ++ l.filter (fun x => decide (x.2.2 < start))
      let blocked := order.takeWhile (fun x => decide (m.freeSlots x.1 x.2.1 x.2.2 < 2))
      match order.drop blocked.length with
      | [] => m
      | x :: _ =>
        let m := m.fetchTurn p port x
        match m.qe.turns.getLast? with
        | some t => if t.reads.any (fun r => r.result.isSome) && t.ready && t.gqp == x.2.2 then (m.endTurn t t.reads).fences
                    else m
        | none => m

/-- Malformed descriptors complete (R166), each once the older descriptors of its pair have been routed, so that the completions
which have no job to wait for come in fetch order (R165); a SLICE_CTL that waits holds none up. -/
def Mod.malformedDue : Nat → Mod → Mod
  | 0, m => m
  | n + 1, m =>
    match m.qe.descs.find? (fun d => d.bad && d.phase == .queued && !m.qe.descs.any (fun e =>
        e.gqp == d.gqp && decide (e.id < d.id) && ((e.phase == .queued && e.opcode != 0x10) || (e.opcode == 4 && e.phase == .waiting)))) with
    | none => m
    | some d => Mod.malformedDue n (m.complete d.id 0x28).fences

/-! ### The descriptor at the front of a queue pair -/

/-- The oldest descriptor of a pair that has not begun, unless an older FENCE of its scope still waits (R132). -/
def Mod.frontDesc (m : Mod) (g : Nat) : Option Desc :=
  match m.qe.descs.find? (fun d => d.gqp == g && d.phase == .queued && d.opcode != 4 && !d.bad) with
  | none => none
  | some d =>
    if m.qe.descs.any (fun f => f.opcode == 4 && decide (f.id < d.id) && f.slice == d.slice &&
        (f.gqp == g || f.field 0 ⟨8, 1⟩ == 1)) then none
    else some d

/-- The queue engine takes up the oldest FENCE of pair `g` (R132); it completes once it covers nothing more. -/
def Mod.beginFence (m : Mod) (g : Nat) : Mod :=
  match m.qe.descs.find? (fun d => d.gqp == g && d.phase == .queued && d.opcode == 4 && !d.bad) with
  | none => m
  | some d => ({ m with qe := m.qe.setDesc { d with phase := .waiting } } : Mod).fences

/-- A completion that carries a guard's denial (R169 detail). -/
def Mod.completeDenied (m : Mod) (id g : Nat) (d : Denial) : Mod :=
  m.postStage id { cid := 0, opcode := 0, status := 0x20, final := true,
                   detail := denialWord g d }

end Sys2Proof.Machine
end

