-- ==== Sys2Proof/Machine/Hod.lean ====
section
/-! DEFINITION. The hods (R102-R121): channels and starts, hand-over, requests and completion space, writes in job
order, lists, errors and retries, the flush, pulses and aborts. -/

namespace Sys2Proof.Machine

/-! ### Channels -/

/-- The address of a channel's status register, and its state code (R105). -/
def Base.chState (b : Base) (h c : Nat) : Nat := b.rd (Reg.HOD_CH_STATUS h c) F.HOD_CH_STATUS_state

/-- Put a channel's state code. -/
def Base.setCh (b : Base) (h c st : Nat) : Base := b.wr (Reg.HOD_CH_STATUS h c) F.HOD_CH_STATUS_state st

/-- Is the channel in direct mode (R104)? -/
def Base.direct (b : Base) (h c : Nat) : Bool := b.isSet (Reg.HOD_CH_MODE h c) F.HOD_CH_MODE_direct

/-- The slice a shadow TAG names. -/
def Base.shSlice (b : Base) (h c : Nat) : Nat := b.rd (Reg.HOD_CH_SH_TAG h c) F.HOD_CH_SH_TAG_slice

/-- A start is lost or refused (R104, R106, R115): counted, and an advisory event of hod `h`. -/
def Base.startLost (b : Base) (h s : Nat) : Base :=
  (b.bump (Reg.HOD_CNT h 5)).raise { group := 13, bit := h, cause := 2, scope := .slice s }

/-- The run on a hod. -/
def Hods.run (x : Hods) (h : Nat) : Option HodRun := x.runs.find? (fun r => r.h == h)

/-- Replace the run on a hod. -/
def Hods.setRun (x : Hods) (r : HodRun) : Hods := { x with runs := x.runs.map (fun q => if q.h == r.h then r else q) }

/-- Does the channel run? -/
def Hods.running (x : Hods) (h c : Nat) : Bool := x.runs.any (fun r => r.h == h && r.c == c)

/-- Is a start latched on the channel? -/
def Hods.latched (x : Hods) (h c : Nat) : Bool := x.starts.any (fun r => r.h == h && r.c == c)

/-- A start reaches a channel (R103, R105, R106). -/
def Mod.start (m : Mod) (x : HodStart) : Mod :=
  if m.hod.latched x.h x.c then { m with base := m.base.startLost x.h (m.base.shSlice x.h x.c) }
  else
    let b := m.base.wr (Reg.HOD_CH_STATUS x.h x.c) F.HOD_CH_STATUS_pending 1
    let b := if m.hod.running x.h x.c then b else b.setCh x.h x.c 1
    { m with base := b, hod := { m.hod with starts := m.hod.starts ++ [x] } }

/-- A latched start is taken away. -/
def Mod.dropStart (m : Mod) (h c : Nat) : Mod :=
  { m with base := m.base.wr (Reg.HOD_CH_STATUS h c) F.HOD_CH_STATUS_pending 0,
           hod := { m.hod with starts := m.hod.starts.filter (fun x => !(x.h == h && x.c == c)) } }

/-- Is the hod held at a channel boundary (R121)? -/
def Mod.hodHold (m : Mod) (h : Nat) : Bool :=
  m.base.isSet (Reg.HOD_CTL h) F.HOD_CTL_hold || m.base.rd Reg.PWR_STATUS F.PWR_STATUS_zone != 0 || m.hod.m2hold

/-- HOD_STATUS follows the hod: its channel, busy, held and reserved cells (R102, R113, R121). -/
def Mod.showHod (m : Mod) (h : Nat) : Mod :=
  let a := Reg.HOD_STATUS h
  match m.hod.run h with
  | some r =>
    let cells := r.reads.foldl (fun n x => n + x.cells) 0
    let b := (m.base.wr a F.HOD_STATUS_channel r.c).wr a F.HOD_STATUS_busy 1
    { m with base := (b.wr a F.HOD_STATUS_held 0).wr a F.HOD_STATUS_resv_cells cells }
  | none =>
    let b := (m.base.wr a F.HOD_STATUS_busy 0).flag a F.HOD_STATUS_held (m.hodHold h)
    { m with base := b.wr a F.HOD_STATUS_resv_cells 0 }

/-! ### Pulses (R115) -/

/-- What a pulse carries: the job's JOB and TAG words, its slice generation, its descriptor, whether the management
cores head its chain, the status, bytes moved and retries used. -/
structure Pulse where
  h : Nat
  c : Nat
  job : Nat
  tag : Nat
  port : Option Nat
  gen : Nat
  desc : Option Nat
  mgmt : Bool
  status : Nat
  bytes : Nat
  retries : Nat
  detail : Nat := 0
  deriving DecidableEq, Repr

/-- The queue engine posts a completion entry for a pulse (R115): for a descriptor its stage, for a direct-mode job an
entry of opcode MOVE in a slot that no fetch has reserved; a pulse with no queue pair to post to raises 13:h, cause
4. -/
def Mod.pulseQueue (m : Mod) (x : Pulse) (status : Nat) : Mod :=
  let s := bits x.tag F.HOD_CH_SH_TAG_slice
  let g := bits x.tag F.HOD_CH_SH_TAG_qp
  let q := g - m.base.qpBase s
  let ok := m.base.sliceLive s && m.base.sliceGen s == x.gen && decide (m.base.qpBase s ≤ g) &&
    decide (q < m.base.qpCount s) && m.base.qpState s q != 0
  if !ok then
    let m := match x.desc with
      | some id => { m with qe := { m.qe with descs := m.qe.descs.filter (fun d => d.id != id) } }
      | none => m
    { m with base := m.base.raise { group := 13, bit := x.h, cause := 4, scope := .slice s } }
  else
    match x.desc with
    | some id =>
      (m.postStage id { cid := 0, opcode := 0, status := status, final := true, bytes := x.bytes,
                        retries := x.retries, detail := x.detail }).fences
    | none =>
      let e : HeldCpl := { gqp := g, slice := s, gen := x.gen, cid := bits x.tag F.HOD_CH_SH_TAG_cid, status := status,
                           bytes := x.bytes, retries := x.retries, detail := x.detail }
      ({ m with qe := { m.qe with heldCpls := m.qe.heldCpls ++ [e] } } : Mod).writeHeld g

/-- A hod job to a shelf has ended: if the shelf's idle hold ran out while the job was in flight, the stop that R92
held back is due now. -/
def Mod.shelfJobEnded (m : Mod) (port : Option Nat) : Mod :=
  match port with
  | none => m
  | some p =>
    let n := m.base.rd (Reg.PRT_CFG p) F.PRT_CFG_slot
    if m.base.portRole p == 2 && m.base.rd (Reg.PRK_SHELF_STATE n) F.PRK_SHELF_STATE_state == 6 &&
       !m.prk.entries.any (fun e => e.shelf == n && e.state != 7) &&
       !m.base.isSet (Reg.PRK_SHELF_CTL n) F.PRK_SHELF_CTL_pin then
      { m with base := m.base.armIfIdle (.idleHold n) 0 }
    else m

/-- A channel that ends sends one pulse (R115). A chained pulse that starts nothing counts at the hod of its target (DESIGN CHOICE, log
entry 42: the rule names no hod). -/
def Mod.pulse (m : Mod) (x : Pulse) : Mod :=
  let m := m.shelfJobEnded x.port
  match bits x.job F.HOD_CH_SH_JOB_pulse_tgt with
  | 1 => m.pulseQueue x (if x.status = 0 then 0x03 else x.status)
  | 2 =>
    if x.status = 0 then
      let h := bits x.job F.HOD_CH_SH_JOB_tgt_hod
      let c := bits x.job F.HOD_CH_SH_JOB_tgt_ch
      if !m.base.direct h c || (h == x.h && c == x.c) then
        { m with base := m.base.startLost h (bits x.tag F.HOD_CH_SH_TAG_slice) }
      else m.start { h := h, c := c, mgmt := x.mgmt, desc := none }
    else m.pulseQueue x x.status
  | _ => m.pulseQueue x x.status

/-- The road of a side's traffic (R109): through a port of the module, to a shelf lent to the job's partition (R285), over Mortar, or none
(the partition of the slice has no upstream port, or no shelf is where the side says). -/
inductive HodRoad where
  | port (p : Nat)
  | lent (v : Nat)
  | mortar
  | gone
  deriving DecidableEq, Repr

/-- The road of a side. -/
def Base.sideRoad (b : Base) (r : HodRun) (dest : Bool) : HodRoad :=
  let s := if dest then r.dst else r.src
  match s.space with
  | 0 => ((r.part.bind b.upstreamPort).map HodRoad.port).getD .gone
  | 1 =>
    if b.portRole s.port == 2 then .port s.port
    else ((r.part.bind (fun p => b.lentPort p s.port)).map HodRoad.lent).getD .gone
  | _ => .mortar

/-- The port of the module that a side's requests leave by, if the road is one. -/
def Base.sidePort (b : Base) (r : HodRun) (dest : Bool) : Option Nat :=
  match b.sideRoad r dest with
  | .port p => some p
  | _ => none

/-- The port whose tags a side's reads take, and the accounting source that their completions are reserved at (R113): for a lent shelf the
partition's upstream port, and the first Camtex port, by which they come (DESIGN CHOICE, log entry 43). -/
def Base.roadTags (b : Base) (x : HodRoad) : Option Nat :=
  match x with
  | .port p => some p
  | .lent v => b.upstreamPort (v / 32)
  | _ => none
def Base.roadReturn (b : Base) (x : HodRoad) : Nat :=
  match x with
  | .port p => p
  | _ => ((List.range 64).find? (fun q => b.portRole q == 4)).getD 0

/-- The shelf port of a job's sides, if it has one. -/
def shelfSide (src dst : HodSide) : Option Nat :=
  if dst.space = 1 then some dst.port else if src.space = 1 then some src.port else none

/-! ### The end of a run (R105, R117, R118) -/

/-- The retries a run has used. -/
def Base.retriesUsed (b : Base) (h c : Nat) : Nat := b.rd (Reg.HOD_CH_STATUS h c) F.HOD_CH_STATUS_retries_used

/-- 64 B blocks that a read touches: its completion reservation in cells (R113). -/
def readCells (addr len : Nat) : Nat := (addr + max len 1 - 1) / 64 - addr / 64 + 1

/-- A read keeps no more than `keep` of its reserved cells; the others' charge is released (R113). -/
def Mod.keepCells (m : Mod) (x : HodRead) (keep : Nat) : Mod × HodRead :=
  let n := min keep x.cells
  let i := 3 * x.ret + 2
  (if x.cells = n then m else { m with sw := { m.sw with reserved := tset m.sw.reserved i (tget m.sw.reserved i - (x.cells - n)) } },
   { x with cells := n })

/-- The completions of the first `n` bytes of a read have come: the blocks that they fill are reserved no more (R113). -/
def Mod.fillCells (m : Mod) (x : HodRead) (n : Nat) : Mod × HodRead :=
  let n := max x.arrived n
  m.keepCells { x with arrived := n } (if n < x.len then readCells (x.addr + n) (x.len - n) else 0)

/-- A read that its run gives up: the cells it still holds are released (R113), and its tag goes out of use (R210). -/
def Mod.abandonRead (m : Mod) (h : Nat) (x : HodRead) : Mod :=
  if x.data.isSome then m else (m.keepCells x 0).1.quarantine (.hod h x.id) 0

/-- A run is taken off its hod: outstanding reads are given up, the channel takes the state and status, and a latched
start makes it PENDING (R106). -/
def Mod.endRun (m : Mod) (r : HodRun) (state status : Nat) : Mod :=
  let m := r.reads.foldl (fun m x => m.abandonRead r.h x) m
  let a := Reg.HOD_CH_STATUS r.h r.c
  let b := (m.base.disarm (.retryGap r.h r.c)).wr a F.HOD_CH_STATUS_last_status status
  let b := b.setCh r.h r.c (if m.hod.latched r.h r.c then 1 else state)
  let b := b.occ 0x141 r.h (some r.slice) 1
  (({ m with base := b, hod := { m.hod with runs := m.hod.runs.filter (fun q => q.h != r.h) } } : Mod).showHod
    r.h).afterRelease

/-- The pulse of a run that has ended. -/
def Mod.runPulse (m : Mod) (r : HodRun) (status : Nat) (detail : Nat := 0) : Mod :=
  m.pulse { h := r.h, c := r.c, job := (m.base.word (Reg.HOD_CH_ACT_JOB r.h r.c)).toNat,
            tag := m.base.word64 (Reg.HOD_CH_ACT_TAG r.h r.c), port := shelfSide r.src r.dst, gen := r.gen, desc := r.desc,
            mgmt := r.mgmt, status := status, bytes := r.written, retries := m.base.retriesUsed r.h r.c, detail := detail }

/-- An error is final (R117): HALTED, the error log, and the pulse with the failing status; `detail` tells of a
denial. -/
def Mod.halt (m : Mod) (r : HodRun) (status addr : Nat) (dest list : Bool) (detail : Nat := 0) : Mod :=
  let used := m.base.retriesUsed r.h r.c
  let b := m.base.setWord64 (Reg.HOD_CH_ERRLOG r.h r.c) addr
  let b := b.setWord (Reg.HOD_CH_ERRINFO r.h r.c) (BitVec.ofNat 32
    (status % 256 + 2 ^ 8 * b2n dest + 2 ^ 9 * b2n list + 2 ^ 10 * (used % 16) + 2 ^ 31))
  let b := (b.bump (Reg.HOD_CNT r.h 3)).raise
    { group := 13, bit := r.h, cause := 0, scope := .slice r.slice,
      detail := status % 256 + 2 ^ 8 * b2n dest + 2 ^ 9 * b2n list + 2 ^ 10 * (used % 16) + 2 ^ 31 }
  (({ m with base := b } : Mod).endRun r 5 status).runPulse r status detail

/-- A run that needs a host request ends with ABORTED while Bus Master Enable is clear (R179). -/
def Mod.abortRun (m : Mod) (r : HodRun) : Mod :=
  (({ m with base := m.base.bump (Reg.HOD_CNT r.h 7) } : Mod).endRun r 0 0x25).runPulse r 0x25

/-- Is a side host memory of a partition whose Bus Master Enable is clear (R179)? -/
def Mod.sideOff (m : Mod) (r : HodRun) (dest : Bool) : Bool :=
  (if dest then r.dst else r.src).space == 0 && (match r.part with
    | some p => !m.base.bme p
    | none => false)

/-- The pulse of a channel that was PENDING and sealed carries the shadow set's job (R118). -/
def Mod.shadowPulse (m : Mod) (h c : Nat) (mgmt : Bool) (desc : Option Nat) (status : Nat) : Mod :=
  let sp := (m.base.word (Reg.HOD_CH_SH_SPACE h c)).toNat
  let port := if bits sp F.HOD_CH_SH_SPACE_dst_space = 1 then some (bits sp F.HOD_CH_SH_SPACE_dst_port)
    else if bits sp F.HOD_CH_SH_SPACE_src_space = 1 then some (bits sp F.HOD_CH_SH_SPACE_src_port) else none
  m.pulse { h := h, c := c, job := (m.base.word (Reg.HOD_CH_SH_JOB h c)).toNat,
            tag := m.base.word64 (Reg.HOD_CH_SH_TAG h c), port := port, gen := m.base.sliceGen (m.base.shSlice h c),
            desc := desc, mgmt := mgmt, status := status, bytes := 0, retries := 0 }

/-- An abort (R118): a run ends with ABORTED, a PENDING channel goes IDLE, and any latched start is cleared; no pulse
under reset, nor for an unsealed PENDING channel. -/
def Mod.abort (m : Mod) (h c : Nat) (reset : Bool) : Mod :=
  match m.hod.runs.find? (fun r => r.h == h && r.c == c) with
  | some r =>
    let m := m.dropStart h c
    let m := ({ m with base := m.base.bump (Reg.HOD_CNT h 7) } : Mod).endRun r 0 0x25
    if reset then m else m.runPulse r 0x25
  | none =>
    match m.hod.starts.find? (fun x => x.h == h && x.c == c) with
    | none => m
    | some x =>
      let m := m.dropStart h c
      let m := { m with base := m.base.setCh h c 0 }
      if reset || !m.base.isSet (Reg.HOD_CH_SH_SEAL h c) F.HOD_CH_SH_SEAL_seal then m
      else m.shadowPulse h c x.mgmt x.desc 0x25

/-! ### Accesses of a run (R109, R112, R138, R388) -/

/-- An access of a run as its guard sees it. -/
def Mod.hodAccess (m : Mod) (r : HodRun) (dest : Bool) (addr len : Nat) (wr : Bool) : Access :=
  let s := if dest then r.dst else r.src
  let pas := (m.base.word (Reg.HOD_CH_ACT_PASID r.h r.c)).toNat
  let x : Access := { space := 0, addr := addr, len := max 1 len, rd := !wr, wr := wr, slice := r.slice,
                      secure := r.mgmt || (r.part.map m.base.partWorld).getD false,
                      pasid := if bitOf pas 20 then some (pas % 2 ^ 20) else none, ident := r.h }
  match s.space with
  | 0 => { x with space := 1, sel := r.part.getD 0 }
  | 1 => { x with space := 2, sel := s.port }
  | 2 => { x with bounds := m.base.inWindow addr (max 1 len) (fun p => r.mgmt || r.part == some p) }
  | _ => { x with addr := mgmtAddr addr, bounds := r.mgmt }

/-- The bytes of a size code of HOD_CFG: 128 to 1,024; 4-7 act as 3. -/
def sizeCode (v : Nat) : Nat := 128 * 2 ^ min v 3

/-- A port's negotiated maximum payload: the Max_Payload_Size of its function's Device Control. -/
def Base.portMps (b : Base) (p : Nat) : Nat :=
  let fn := if b.portRole p == 1 then 8 + b.portPart p else 24 + p
  128 * 2 ^ (b.cfg fn 0x78 / 32 % 8)

/-- The largest read and write unit of a side (R112): aligned pieces of mrrs for reads, of mps and the port's maximum payload for writes,
and of 512 B on Mortar; a write to a lent shelf meets the upstream port's maximum payload, whose value its own hierarchy has. -/
def Mod.unit (m : Mod) (r : HodRun) (dest write : Bool) : Nat :=
  let road := m.base.sideRoad r dest
  let own := sizeCode (if write then m.base.rd (Reg.HOD_CFG r.h) F.HOD_CFG_mps else m.base.rd (Reg.HOD_CFG r.h) F.HOD_CFG_mrrs)
  if road == .mortar then min 512 own
  else if write then min own (((m.base.roadTags road).map m.base.portMps).getD own)
  else own

/-- The frame record values of a run: its class and meter (R62). -/
def Base.runTc (b : Base) (r : HodRun) : Nat := b.rd (Reg.HOD_CH_ACT_JOB r.h r.c) F.HOD_CH_SH_JOB_tc
def Base.runMeter (b : Base) (r : HodRun) : Option Nat :=
  let a := Reg.HOD_CH_ACT_JOB r.h r.c
  if b.isSet a F.HOD_CH_SH_JOB_meter_en then some (b.rd a F.HOD_CH_SH_JOB_meter) else none

/-- A frame of a run, from its group's crossbar port to a port (R102), with the guard and the epoch that let it go (R143). -/
def Mod.hodFrame (m : Mod) (r : HodRun) (port : Nat) (t : Tlp) : Frame :=
  let t := tlpSized { t with rid := m.base.ownId port }
  { src := 68 + r.h / 4, srcXp := 36 + r.h / 4, srcSub := r.h % 4, dstXp := m.base.tileOf port, dstSub := port,
    vc := tlpVc t, bytes := tlpBytes t, tlp := t, tc := m.base.runTc r, meter := m.base.runMeter r, guard := some (r.h, m.base.epoch r.h) }

/-- A request of a run to a lent shelf, as the bond logic takes it (R31, R286): to the owner, for the port that BND_LEND names. -/
def Mod.hodMsg (m : Mod) (r : HodRun) (v : Nat) (secure : Bool) (t : Tlp) : BondMsg :=
  let t := tlpSized { t with rid := m.base.ownId ((m.base.upstreamPort (v / 32)).getD 0) }
  let a := Reg.BND_LEND v
  { dstPath := m.base.rd a F.BND_LEND_owner_path, dstPort := m.base.rd a F.BND_LEND_owner_port, origin := 68 + r.h / 4, vc := tlpVc t,
    tc := m.base.runTc r, world := secure, meter := m.base.runMeter r, data := tlpWire t }

/-- The world of a run's accesses (R138). -/
def Mod.runSecure (m : Mod) (r : HodRun) : Bool := r.mgmt || (r.part.map m.base.partWorld).getD false

/-- May a request of a run leave on its road now (R52)? -/
def Mod.askRoad (m : Mod) (r : HodRun) (road : HodRoad) (t : Tlp) : Mod × Bool :=
  match road with
  | .port p => m.askOffer (m.hodFrame r p t)
  | _ => (m, true)

/-- A request of a run leaves on its road: into the crossbar, or to the bond logic. -/
def Mod.sendOn (m : Mod) (r : HodRun) (road : HodRoad) (t : Tlp) : Mod :=
  match road with
  | .port p => m.admitIngress (m.base.recordOf (m.hodFrame r p t))
  | .lent v => { m with bondOut := m.bondOut ++ [m.hodMsg r v (m.runSecure r) t] }
  | _ => m

/-- Can nothing be delivered on a destination's road (R116): its port cannot, or the lent shelf's virtual link is down? -/
def Mod.roadDead (m : Mod) (road : HodRoad) : Bool :=
  match road with
  | .port p => (m.base.undeliverable p).isSome
  | .lent v => !m.base.lentAwake v
  | .mortar => false
  | .gone => true

/-- The PASID that a run's requests to a side carry: host space only. -/
def Mod.sidePasid (m : Mod) (r : HodRun) (dest : Bool) : Option Nat :=
  let pas := (m.base.word (Reg.HOD_CH_ACT_PASID r.h r.c)).toNat
  if (if dest then r.dst else r.src).space == 0 && bitOf pas 20 then some (pas % 2 ^ 20) else none

/-! ### Errors and retries (R116) -/

/-- An error on a request: a retryable one with retries left waits in RETRY, any other ends the run (R116, R117). Requests
that fail while the channel is in RETRY are issued again with the first, as one retry (DEDUCED, log entry 20). -/
def Mod.hodError (m : Mod) (r : HodRun) (x : HodRead) (status : Nat) (retryable : Bool) : Mod :=
  let used := m.base.retriesUsed r.h r.c
  let cap := m.base.rd (Reg.HOD_CH_ACT_JOB r.h r.c) F.HOD_CH_SH_JOB_retries
  if retryable && decide (used < cap) then
    let r := { r with failed := r.failed ++ [x] }
    let gap := m.base.rd (Reg.HOD_CFG r.h) F.HOD_CFG_retry_gap_us * us
    ({ m with base := (m.base.setCh r.h r.c 3).armIfIdle (.retryGap r.h r.c) gap, hod := m.hod.setRun r } : Mod).showHod r.h
  else m.halt r status x.addr x.dest x.list

/-! ### Issuing reads (R112, R113) -/

/-- What an attempt to issue a read came to. -/
inductive Issue where
  | issued (r : HodRun)
  | wait (r : HodRun)
  | denied (d : Denial)
  | gone
  | aborted
  deriving DecidableEq, Repr

/-- The bytes of a Mortar read: park window or management memory; and whether they are poisoned. -/
def Mod.mortarRead (m : Mod) (space addr len : Nat) : Mod × List Byte × Bool :=
  if space = 2 then m.performLoad addr len else (m, memGetList m.dram.mgmt addr len, false)

/-- The read waits for its reservation: counted once, in HOD_CNT[6] (R113). -/
def Mod.readWaits (m : Mod) (r : HodRun) : Mod × HodRun :=
  if r.waiting then (m, r)
  else ({ m with base := m.base.bump (Reg.HOD_CNT r.h 6) }, { r with waiting := true })

/-- The request of a read (R110, R114): the flush is a read of no bytes. -/
def Mod.readTlp (m : Mod) (r : HodRun) (x : HodRead) (tag : Nat) : Tlp :=
  { kind := .memRead, addr := x.addr, len := if x.flush then 0 else x.len, tag := tag, pasid := m.sidePasid r x.dest, relaxed := x.ro,
    noSnoop := x.ns }

/-- A Mortar read has its data at once (R112); poisoned data gives none. -/
def Mod.issueMortar (m : Mod) (r : HodRun) (x : HodRead) : Mod × Issue :=
  let (b, d) := m.base.guard r.h (m.hodAccess r x.dest x.addr x.len false)
  let m := { m with base := b }
  match d with
  | some d => (m, .denied d)
  | none =>
    let id := m.hod.nextRead
    let (m, data, ep) := m.mortarRead (if x.dest then r.dst else r.src).space x.addr x.len
    let y := { x with id := id, data := if ep then none else some data, cells := 0 }
    ({ m with hod := { m.hod with nextRead := id + 1 } }, .issued { r with reads := r.reads ++ [y] })

/-- A read through the crossbar or to a lent shelf (R112, R113): once its cells are reserved and its request is admitted, it is checked by
the guard, takes its tag and goes. -/
def Mod.issueRemote (m : Mod) (r : HodRun) (x : HodRead) (road : HodRoad) (p : Nat) : Mod × Issue :=
  let ret := m.base.roadReturn road
  let len := if x.flush then 0 else x.len
  let cells := readCells x.addr len
  let have_ := r.reads.foldl (fun n y => n + y.cells) 0
  let cap := m.base.rd (Reg.HOD_CFG r.h) F.HOD_CFG_cpl_cells
  let cap := if cap = 0 then 16 else cap
  let out := (r.reads.filter (fun y => y.data.isNone)).length
  let i := 3 * ret + 2
  if 256 ≤ out then (m, .wait r)
  else if cap < have_ + cells then
    let (m, r) := m.readWaits r
    (m, .wait r)
  else
    match m.freeTag p with
    | none => (m, .wait r)
    | some t =>
      let (m, ok) := m.askAdmit i cells
      if !ok then
        let (m, r) := m.readWaits r
        (m, .wait r)
      else
        let q := m.readTlp r x t
        let (m, ok) := m.askRoad r road q
        if !ok then (m, .wait r)
        else
          let (b, d) := m.base.guard r.h (m.hodAccess r x.dest x.addr len false)
          let m := { m with base := b }
          match d with
          | some d => (m, .denied d)
          | none =>
            let m := m.sendOn r road q
            let id := m.hod.nextRead
            let m := { m with sw := { m.sw with reserved := tset m.sw.reserved i (tget m.sw.reserved i + cells) },
                              hod := { m.hod with nextRead := id + 1 } }
            let y := { x with id := id, cells := cells, ret := ret, arrived := 0, got := [] }
            ((m.markUse i).takeTag p t len (.hod r.h id), .issued { r with reads := r.reads ++ [y], waiting := false })

/-- A read of the run is issued (R109, R112, R113). One whose road leads nowhere is checked by the guard and ends as a target that is
gone (log entry 43). -/
def Mod.issueRead (m : Mod) (r : HodRun) (x : HodRead) : Mod × Issue :=
  if m.sideOff r x.dest then (m, .aborted)
  else
    let road := m.base.sideRoad r x.dest
    match road with
    | .mortar => m.issueMortar r x
    | _ =>
      match m.base.roadTags road with
      | some p => m.issueRemote r x road p
      | none =>
        let (b, d) := m.base.guard r.h (m.hodAccess r x.dest x.addr x.len false)
        ({ m with base := b }, match d with
          | some d => .denied d
          | none => .gone)

/-- A run goes on with what an issue came to. -/
def Mod.afterIssue (m : Mod) (r : HodRun) (x : HodRead) (i : Issue) : Mod × Option HodRun × Bool :=
  match i with
  | .wait r => ({ m with hod := m.hod.setRun r }, some r, false)
  | .denied d => (m.halt r 0x20 x.addr x.dest x.list (denialWord r.h d), none, false)
  | .gone => (m.halt r 0x21 x.addr x.dest x.list, none, false)
  | .aborted => (m.abortRun r, none, false)
  | .issued r =>
    match r.reads.getLast? with
    | none => (m, some r, false)
    | some y =>
      if m.base.sideRoad r x.dest == .mortar && y.data.isNone then
        -- poisoned Mortar data (R116)
        (m.halt r 0x23 x.addr x.dest x.list, none, false)
      else ({ m with hod := m.hod.setRun r }, some r, true)

/-! ### Lists (R110, R111) -/

/-- Is a list fetch of the side out? -/
def HodRun.listOut (r : HodRun) (dest : Bool) : Bool := r.reads.any (fun x => x.list && x.dest == dest)

/-- A list entry is taken (R110, R111): the next range with the attributes of its requests, the next segment, or a fault. -/
def takeEntry (s : HodSide) (bs : List Byte) : Option HodSide :=
  let addr := fieldAt bs 0 8
  let len := fieldAt bs 8 4
  let fl := fieldAt bs 12 4
  let eol := bitOf fl 0
  let link := bitOf fl 1
  if 16 ≤ fl || (eol && link) || (len = 0 && !link) then none
  else if link then (if addr % 16 = 0 then some { s with list := addr } else none)
  else some { s with cur := addr, left := len, list := s.list + 16, eol := eol, ro := bitOf fl 2, ns := bitOf fl 3 }

/-- Put a side of a run. -/
def HodRun.setSide (r : HodRun) (dest : Bool) (s : HodSide) : HodRun := if dest then { r with dst := s } else { r with src := s }

/-- A fetched list entry reaches the run; a faulty one is kept with its address until the walk comes to it. -/
def Mod.listArrived (m : Mod) (r : HodRun) (x : HodRead) (bs : List Byte) : Mod × Option HodRun × Bool :=
  let r := { r with reads := r.reads.filter (fun y => y.id != x.id) }
  let s := if x.dest then r.dst else r.src
  let r := r.setSide x.dest ((takeEntry s bs).getD { s with fault := some x.addr })
  ({ m with hod := m.hod.setRun r }, some r, true)

/-- Has the side's list come to a fault (R111): the address at fault? -/
def HodSide.faulted (s : HodSide) : Option Nat :=
  match s.fault with
  | some a => some a
  | none => if s.eol || !s.sg || s.list % 16 != 0 then some s.list else none

/-- Does no more source data come: the list has come to a fault, and every read is in? -/
def HodRun.drained (r : HodRun) : Bool :=
  decide (r.src.left = 0) && decide (r.asked < r.count) && r.src.faulted.isSome && r.reads.all (fun x => x.list || x.flush)

/-- A side needs its next list entry (R110, R111): MALFORMED at the point of the job where its list is at fault, which is
after the data before it is written; else the fetch is issued. -/
def Mod.needEntry (m : Mod) (r : HodRun) (dest : Bool) : Mod × Option HodRun × Bool :=
  let s := if dest then r.dst else r.src
  match s.faulted with
  | some a => if !dest && !(r.drained && r.buf.isEmpty) then (m, some r, false) else (m.halt r 0x28 a dest true, none, false)
  | none =>
  if r.listOut dest then (m, some r, false)
  else
    let x : HodRead := { id := 0, dest := dest, list := true, addr := s.list, len := 16 }
    let (m, i) := m.issueRead r x
    match m.afterIssue r x i with
    | (m, some r, true) =>
      match r.reads.getLast? with
      | some y =>
        match y.data with
        | some bs => m.listArrived r y bs
        | none => (m, some r, true)
      | none => (m, some r, true)
    | o => o

/-! ### The pump: reads, writes and the flush (R112-R114) -/

/-- Bytes that are in and ready to be written: the leading data reads of the job that have their data. -/
def HodRun.collect (r : HodRun) : HodRun :=
  let lead := (r.reads.filter (fun x => !x.list && !x.flush)).takeWhile (fun x => x.data.isSome)
  { r with buf := r.buf ++ lead.flatMap (fun x => x.data.getD []),
           reads := r.reads.filter (fun x => !lead.any (fun y => y.id == x.id)) }

/-- The next source read, or the next entry of the source list. -/
def Mod.stepRead (m : Mod) (r : HodRun) : Mod × Option HodRun × Bool :=
  if r.count ≤ r.asked then (m, some r, false)
  else if r.src.left = 0 then m.needEntry r false
  else
    let u := m.unit r false false
    let n := min (min r.src.left (r.count - r.asked)) (u - r.src.cur % u)
    let x : HodRead := { id := 0, addr := r.src.cur, len := n, ro := r.src.ro, ns := r.src.ns }
    let (m, i) := m.issueRead r x
    match m.afterIssue r x i with
    | (m, some r', true) =>
      let r' := { r' with asked := r'.asked + n, src := { r'.src with cur := r'.src.cur + n, left := r'.src.left - n } }
      ({ m with hod := m.hod.setRun r' }, some r', true)
    | o => o

/-- The posted request of a destination write (R110, R112). -/
def Mod.writeTlp (m : Mod) (r : HodRun) (addr : Nat) (data : List Byte) : Tlp :=
  { kind := .memWrite, addr := addr, data := data, pasid := m.sidePasid r true, relaxed := r.dst.ro, noSnoop := r.dst.ns }

/-- A destination write is performed: in DRAM, in management memory, or as a posted request (R112, R114). -/
def Mod.hodWrite (m : Mod) (r : HodRun) (road : HodRoad) (addr : Nat) (data : List Byte) : Mod :=
  match road with
  | .mortar => if r.dst.space = 2 then m.performStore addr data false
               else { m with dram := { m.dram with mgmt := memPutList m.dram.mgmt addr data } }
  | _ => m.sendOn r road (m.writeTlp r addr data)

/-- The next failed request whose gap has passed is issued again in its old place (R116). -/
def Mod.stepRedo (m : Mod) (r : HodRun) : Mod × Option HodRun × Bool :=
  match r.redo with
  | [] => (m, some r, false)
  | x :: rest =>
    let pre := r.reads.takeWhile (fun y => y.id != x.id)
    let post := (r.reads.drop pre.length).drop 1
    let (m, i) := m.issueRead { r with reads := pre ++ post } x
    match i with
    | .issued r' =>
      let n := pre.length
      let r' := { r' with redo := rest, reads := r'.reads.take n ++ r'.reads.getLast?.toList ++ r'.reads.dropLast.drop n }
      ({ m with hod := m.hod.setRun r' }, some r', true)
    | .wait r' =>
      let r' := { r' with reads := r.reads }
      ({ m with hod := m.hod.setRun r' }, some r', false)
    | i => m.afterIssue r x i

/-- The next destination write, in ascending job order, or the next entry of the destination list (R114). -/
def Mod.stepWrite (m : Mod) (r : HodRun) : Mod × Option HodRun × Bool :=
  let r := r.collect
  let m := { m with hod := m.hod.setRun r }
  if r.count ≤ r.written || r.buf.isEmpty then (m, some r, false)
  else if r.dst.left = 0 then m.needEntry r true
  else
    let u := m.unit r true true
    let n := min (min r.dst.left (r.count - r.written)) (u - r.dst.cur % u)
    let n := if r.drained then min n r.buf.length else n
    let road := m.base.sideRoad r true
    if r.buf.length < n then (m, some r, false)
    else if m.sideOff r true then (m.abortRun r, none, false)
    else if m.roadDead road then (m.halt r 0x21 r.dst.cur true false, none, false)
    else
      let (m, ok) := m.askRoad r road (m.writeTlp r r.dst.cur (r.buf.take n))
      if !ok then (m, some r, false)
      else
        let (b, d) := m.base.guard r.h (m.hodAccess r true r.dst.cur n true)
        let m := { m with base := b }
        match d with
        | some d => (m.halt r 0x20 r.dst.cur true false (denialWord r.h d), none, false)
        | none =>
          let m := m.hodWrite r road r.dst.cur (r.buf.take n)
          let r := { r with buf := r.buf.drop n, written := r.written + n, lastAddr := r.dst.cur + n - 1,
                            dst := { r.dst with cur := r.dst.cur + n, left := r.dst.left - n } }
          let b := (m.base.bumpBy (Reg.HOD_CNT r.h 1) n).occ 0x140 r.h (some r.slice) n
          let b := b.wr (Reg.HOD_CH_PROGRESS r.h r.c) F.HOD_CH_PROGRESS_bytes r.written
          ({ m with base := b, hod := m.hod.setRun r }, some r, true)

/-- The flush (R114): a zero-length read on the crossbar; on Mortar the write response of the last write is waited
for. -/
def Mod.stepFlush (m : Mod) (r : HodRun) : Mod × Option HodRun × Bool :=
  if r.written < r.count || r.flushing then (m, some r, false)
  else
    let m := { m with base := m.base.setCh r.h r.c 4 }
    match m.base.sideRoad r true with
    | .mortar =>
      let r := { r with flushing := true }
      ({ m with hod := m.hod.setRun r }, some r, false)
    | _ =>
      let x : HodRead := { id := 0, dest := true, flush := true, addr := r.lastAddr, len := 0 }
      let (m, i) := m.issueRead r x
      match m.afterIssue r x i with
      | (m, some r', true) =>
        let r' := { r' with flushing := true }
        ({ m with hod := m.hod.setRun r' }, some r', false)
      | o => o

/-- The run goes on until nothing more can be issued: writes before reads, failed reads before new ones, then the flush (R108);
`n` bounds the requests of one command. -/
def Mod.pumpN : Nat → Mod → HodRun → Mod
  | 0, m, _ => m
  | n + 1, m, r =>
    match m.stepWrite r with
    | (m, none, _) => m
    | (m, some r, true) => Mod.pumpN n m r
    | (m, some r, false) =>
      match m.stepRedo r with
      | (m, none, _) => m
      | (m, some r, true) => Mod.pumpN n m r
      | (m, some r, false) =>
        if !r.redo.isEmpty then m
        else
          match m.stepRead r with
          | (m, none, _) => m
          | (m, some r, true) => Mod.pumpN n m r
          | (m, some r, false) => (m.stepFlush r).1

/-- The requests that one command lets a run issue: every byte and list entry it can have, and no more. -/
def HodRun.fuel (r : HodRun) : Nat := 4 * (r.count - r.written) + 65536

/-- Hod h goes on with its run, unless it waits in RETRY. -/
def Mod.pump (m : Mod) (h : Nat) : Mod :=
  match m.hod.run h with
  | none => m
  | some r => if !r.failed.isEmpty then m else (Mod.pumpN r.fuel m r).showHod h

/-! ### The pick and the hand-over (R107, R120) -/

/-- A side of the job as the active set gives it (R110). -/
def sideOf (sp addr count : Nat) (dest : Bool) : HodSide :=
  let space := bits sp (if dest then F.HOD_CH_SH_SPACE_dst_space else F.HOD_CH_SH_SPACE_src_space)
  let sg := bits sp (if dest then F.HOD_CH_SH_SPACE_dst_sg else F.HOD_CH_SH_SPACE_src_sg) == 1
  let port := bits sp (if dest then F.HOD_CH_SH_SPACE_dst_port else F.HOD_CH_SH_SPACE_src_port)
  if sg then { space := space, sg := true, port := port, cur := 0, left := 0, list := addr }
  else { space := space, sg := false, port := port, cur := addr, left := count, list := 0 }

/-- The shadow set is copied to the active set, word by word, and seal clears (R120). -/
def Base.handOver (b : Base) (h c : Nat) : Base :=
  let b := (List.range 12).foldl (fun b i =>
    b.setWord (Reg.HOD_CH_ACT_SRC h c + 4 * i) (b.word (Reg.HOD_CH_SH_SRC h c + 4 * i))) b
  b.wr (Reg.HOD_CH_SH_SEAL h c) F.HOD_CH_SH_SEAL_seal 0

/-- A job to a shelf begins: its slot's idle hold starts over (R92). -/
def Base.restartIdleHold (b : Base) (port : Option Nat) : Base :=
  match port with
  | none => b
  | some p =>
    let n := b.rd (Reg.PRT_CFG p) F.PRT_CFG_slot
    if b.portRole p == 2 && b.armed (.idleHold n) then
      b.arm (.idleHold n) (b.rd (Reg.PRK_SHELF_TIME n) F.PRK_SHELF_TIME_idle_hold_s * sec)
    else b

/-- The hod picks the start latched earliest and hands it over (R107, R120). -/
def Mod.pickStart (m : Mod) (x : HodStart) : Mod :=
  let m := m.dropStart x.h x.c
  let st := Reg.HOD_CH_STATUS x.h x.c
  if !m.base.isSet (Reg.HOD_CH_SH_SEAL x.h x.c) F.HOD_CH_SH_SEAL_seal then
    let b := ((m.base.setCh x.h x.c 0).wr st F.HOD_CH_STATUS_last_status 0x26).bump (Reg.HOD_CNT x.h 4)
    { m with base := b.raise { group := 13, bit := x.h, cause := 1, scope := .slice (b.shSlice x.h x.c) } }
  else
    let b := m.base.handOver x.h x.c
    let sp := (b.word (Reg.HOD_CH_ACT_SPACE x.h x.c)).toNat
    let count := b.rd (Reg.HOD_CH_ACT_COUNT x.h x.c) F.HOD_CH_SH_COUNT_bytes
    let s := b.rd (Reg.HOD_CH_ACT_TAG x.h x.c) F.HOD_CH_SH_TAG_slice
    let r : HodRun := {
      h := x.h, c := x.c, slice := s, gen := b.sliceGen s, mgmt := x.mgmt, desc := x.desc, count := count,
      part := if b.sliceLive s then some (b.slicePart s) else none,
      src := sideOf sp (b.word64 (Reg.HOD_CH_ACT_SRC x.h x.c)) count false,
      dst := sideOf sp (b.word64 (Reg.HOD_CH_ACT_DST x.h x.c)) count true }
    let b := ((b.setCh x.h x.c 2).wr st F.HOD_CH_STATUS_retries_used 0).wr
      (Reg.HOD_CH_PROGRESS x.h x.c) F.HOD_CH_PROGRESS_bytes 0
    let b := b.restartIdleHold (shelfSide r.src r.dst)
    let m := { m with base := b, hod := { m.hod with runs := m.hod.runs ++ [r] } }
    if count = 0 then m.halt r 0x28 0 false false
    else (m.showHod x.h).pump x.h

/-- A free hod that is enabled and not held picks (R107, R121). -/
def Mod.hodPick (m : Mod) (h : Nat) : Mod :=
  if (m.hod.run h).isSome || !m.base.isSet (Reg.HOD_CFG h) F.HOD_CFG_enable || !m.base.coreOn then m
  else if m.hodHold h then m.showHod h
  else
    match m.hod.starts.find? (fun x => x.h == h) with
    | none => m
    | some x => m.pickStart x

/-! ### Completions (R114, R116) -/

/-- The final status that a completion's error gives, and whether it may be retried (R116, R218). -/
def hodStatus (c : CplStatus) : Nat × Bool :=
  match c with
  | .ok => (0, false)
  | .ur | .ca => (0x21, true)
  | .portGone => (0x21, false)
  | .timeout => (0x22, true)
  | .poisoned => (0x23, false)

/-- Read `x` of a run ends with an error (R116). -/
def Mod.hodReadFailed (m : Mod) (r : HodRun) (x : HodRead) (st : CplStatus) : Mod :=
  let (m, x) := (m.endTag (.hod r.h x.id) st).keepCells x 0
  let r := { r with reads := r.reads.map (fun y => if y.id == x.id then x else y) }
  let (code, again) := if st == CplStatus.ok then (0x21, true) else hodStatus st
  (({ m with hod := m.hod.setRun r } : Mod).afterRelease).hodError r x code again

/-- A completion of a read of hod h (R113, R114, R116): its data joins what has come of the read; the last one sends the read on in job
order; an error, or one without data, ends the read. -/
def Mod.hodReadDone (m : Mod) (h id : Nat) (cpl : Cpl) : Mod :=
  match m.hod.run h with
  | none => { m with base := m.base.late h id (hodStatus cpl.status).1 }
  | some r =>
    match r.reads.find? (fun x => x.id == id && x.data.isNone && !x.flush && !(r.failed ++ r.redo).any (fun y => y.id == id)) with
    | none => { m with base := m.base.late h id (hodStatus cpl.status).1 }
    | some x =>
      if cpl.status != CplStatus.ok || cpl.data.isEmpty then m.hodReadFailed r x cpl.status
      else
        let got := x.got ++ cpl.data
        let (m, x) := m.fillCells { x with got := got } got.length
        let m := m.afterRelease
        if got.length < x.len then
          let r := { r with reads := r.reads.map (fun y => if y.id == id then x else y) }
          ({ m with hod := m.hod.setRun r } : Mod).pump h
        else
          let m := m.endTag (.hod h id) .ok
          if x.list then
            match m.listArrived r x (got.take 16) with
            | (m, some _, _) => m.pump h
            | (m, none, _) => m
          else
            let y := { x with data := some (got.take x.len), got := [] }
            let r := { r with reads := r.reads.map (fun z => if z.id == id then y else z) }
            ({ m with hod := m.hod.setRun r } : Mod).pump h

/-- The flush of hod h has ended (R114, R115): OK ends the run with its pulse; an error is one of the channel's
traffic (R116). A response that no flush waits for is late (R126). -/
def Mod.flushDone (m : Mod) (h : Nat) (st : CplStatus) : Mod :=
  match m.hod.run h with
  | none => { m with base := m.base.late h 0 (hodStatus st).1 }
  | some r =>
    if !r.flushing then { m with base := m.base.late h 0 (hodStatus st).1 }
    else
      let x := (r.reads.find? (fun x => x.flush)).getD { id := 0, dest := true, flush := true, addr := r.lastAddr, len := 0 }
      let (m, x) := (m.endTag (.hod h x.id) st).keepCells x 0
      let r := { r with reads := r.reads.filter (fun y => !y.flush), flushing := false }
      let m := { m with hod := m.hod.setRun r }
      if st == CplStatus.ok then
        let m := { m with base := m.base.bump (Reg.HOD_CNT h 0) }
        (m.endRun r 0 0).runPulse r 0
      else
        let (code, again) := hodStatus st
        m.afterRelease.hodError r x code again

/-- The retry gap has passed (R116): retries_used rises by 1, and each failed request is due again under a new tag; a failed flush is read
again as the pump comes to it. -/
def Mod.retry (m : Mod) (h : Nat) : Mod :=
  match m.hod.run h with
  | none => m
  | some r =>
    let st := Reg.HOD_CH_STATUS h r.c
    let b := (m.base.setCh h r.c 2).wr st F.HOD_CH_STATUS_retries_used (m.base.retriesUsed h r.c + 1)
    let b := b.bump (Reg.HOD_CNT h 2)
    let r := { r with failed := [], redo := r.redo ++ r.failed.filter (fun x => !x.flush) }
    ({ m with base := b, hod := m.hod.setRun r } : Mod).pump h

/-- A destination port is contained, down or removed: the jobs that write to it end with TARGET_GONE (R116, R117). -/
def Mod.hodPortGone (m : Mod) (p : Nat) : Mod :=
  (m.hod.runs.filter (fun r => m.base.sidePort r true == some p && decide (0 < r.written))).foldl
    (fun m r => m.halt r 0x21 r.lastAddr true false) m

/-! ### Jobs of the queue engine (R104) -/

/-- The queue engine writes a job into a channel's shadow set and seals it in one step, and the start is latched
(R104). -/
def Mod.handJob (m : Mod) (j : HodJob) : Mod :=
  let h := j.h
  let c := j.c
  let b := (m.base.setWord64 (Reg.HOD_CH_SH_SRC h c) j.src).setWord64 (Reg.HOD_CH_SH_DST h c) j.dst
  let b := b.setWord64 (Reg.HOD_CH_SH_COUNT h c) (j.count % 2 ^ 40)
  let b := (b.setWord (Reg.HOD_CH_SH_SPACE h c) (BitVec.ofNat 32 j.space)).setWord (Reg.HOD_CH_SH_PASID h c)
    (BitVec.ofNat 32 j.pasid)
  let b := (b.setWord (Reg.HOD_CH_SH_JOB h c) (BitVec.ofNat 32 j.job)).setWord64 (Reg.HOD_CH_SH_TAG h c) j.tag
  let b := b.wr (Reg.HOD_CH_SH_SEAL h c) F.HOD_CH_SH_SEAL_seal 1
  ({ m with base := b } : Mod).start { h := h, c := c, mgmt := false, desc := some j.desc }

/-- Is the channel without a job, so that the queue engine may hand it the next? -/
def Hods.freeCh (x : Hods) (h c : Nat) : Bool := !x.running h c && !x.latched h c

/-- The jobs that wait are handed over, one to each free channel, in the order made (R104). -/
def Mod.handJobs (m : Mod) : Mod :=
  m.hod.jobs.foldl (fun m j =>
    if m.hod.freeCh j.h j.c then
      ({ m with hod := { m.hod with jobs := m.hod.jobs.erase j } } : Mod).handJob j
    else m) m

/-- A job joins its channel's line. -/
def Mod.addJob (m : Mod) (j : HodJob) : Mod :=
  ({ m with hod := { m.hod with jobs := m.hod.jobs ++ [j] } } : Mod).handJobs

/-- Does any hod job, running, latched or waiting, name the shelf port (R92)? -/
def Mod.jobsTo (m : Mod) (p : Nat) : Bool :=
  let names := fun (sp : Nat) =>
    (bits sp F.HOD_CH_SH_SPACE_dst_space == 1 && bits sp F.HOD_CH_SH_SPACE_dst_port == p) ||
    (bits sp F.HOD_CH_SH_SPACE_src_space == 1 && bits sp F.HOD_CH_SH_SPACE_src_port == p)
  m.hod.runs.any (fun r => (r.src.space == 1 && r.src.port == p) || (r.dst.space == 1 && r.dst.port == p)) ||
  m.hod.starts.any (fun x => names (m.base.word (Reg.HOD_CH_SH_SPACE x.h x.c)).toNat) ||
  m.hod.jobs.any (fun j => names j.space)

/-! ### Register writes of software (R104, R118, R119) -/

/-- May this accessor write direct-mode channels (R104): the manager partition and the management cores; the debug
master and the keystone agent act through their guards alone. -/
def Base.mayDirect (b : Base) (who : Who) : Bool :=
  match who with
  | .host p => p.val == b.manager
  | _ => true

/-- A software write to a queue-mode channel is ignored, counted and raised (R104). -/
def Base.queueModeWrite (b : Base) (who : Who) (h c : Nat) : Base :=
  let s := b.rd (Reg.HOD_CH_MODE h c) F.HOD_CH_MODE_slice
  (b.bump (Reg.HOD_CNT h 5)).misuse who s

/-- A write of HOD_CH_CTL (R103, R118). -/
def Mod.hodCtlWrite (m : Mod) (who : Who) (h c v : Nat) : Mod :=
  if !m.base.direct h c then { m with base := m.base.queueModeWrite who h c }
  else if !m.base.mayDirect who then m
  else
    let m := if bitOf v 1 then m.abort h c false else m
    if bitOf v 0 then
      m.start { h := h, c := c, desc := none, mgmt := match who with
        | .mgmt _ => true
        | _ => false }
    else m

/-- A write of a shadow register other than seal stores the value and clears seal (R119); `words` are the offsets and
new words, already masked to the register's fields. -/
def Mod.shadowWrite (m : Mod) (who : Who) (h c : Nat) (words : List (Nat × W32)) : Mod :=
  if !m.base.direct h c then { m with base := m.base.queueModeWrite who h c }
  else if !m.base.mayDirect who then m
  else
    let b := words.foldl (fun b w => b.setWord w.1 w.2) m.base
    { m with base := b.wr (Reg.HOD_CH_SH_SEAL h c) F.HOD_CH_SH_SEAL_seal 0 }

/-- A write of HOD_CH_SH_SEAL (R119). -/
def Mod.sealWrite (m : Mod) (who : Who) (h c v : Nat) : Mod :=
  if !m.base.direct h c then { m with base := m.base.queueModeWrite who h c }
  else if !m.base.mayDirect who then m
  else { m with base := m.base.wr (Reg.HOD_CH_SH_SEAL h c) F.HOD_CH_SH_SEAL_seal (v % 2) }

/-- A write of HOD_CTL.hold (R121). -/
def Mod.holdWrite (m : Mod) (h v : Nat) : Mod :=
  ({ m with base := m.base.wr (Reg.HOD_CTL h) F.HOD_CTL_hold (v % 2) } : Mod).showHod h

end Sys2Proof.Machine
end

