-- ==== Sys2Proof/Machine/Park.lean ====
section
/-! DEFINITION. The park store (R73-R88, R97-R101): granules, admission and push-out, the life of an entry, ingest,
sweeps and refetch, the stages it posts, guest copies, and the containment of a shelf port (R217). -/

namespace Sys2Proof.Machine

/-! ### Sequences (R20) -/

/-- Is `a` newer than `c` among k-bit sequence values (R20)? -/
def newer (k a c : Nat) : Bool :=
  let d := (a % 2 ^ k + 2 ^ k - c % 2 ^ k) % 2 ^ k
  decide (1 ≤ d) && decide (d ≤ 2 ^ (k - 1) - 1)

/-! ### Slots and entries -/

/-- Put the record of a shelf slot. -/
def Park.setSlot (x : Park) (s : Slot) : Park := { x with slots := x.slots.filter (fun y => y.n != s.n) ++ [s] }

/-- The state code of a slot (R93). -/
def Base.slotState (b : Base) (n : Nat) : Nat := b.rd (Reg.PRK_SHELF_STATE n) F.PRK_SHELF_STATE_state

/-- Put the state code of a slot. -/
def Base.setSlotState (b : Base) (n st : Nat) : Base := b.wr (Reg.PRK_SHELF_STATE n) F.PRK_SHELF_STATE_state st

/-- The entry with an index. -/
def Park.entry (x : Park) (i : Nat) : Option Entry := x.entries.find? (fun e => e.idx == i)

/-- Replace an entry. -/
def Park.setEntry (x : Park) (e : Entry) : Park := { x with entries := x.entries.map (fun y => if y.idx == e.idx then e else y) }

/-- Replace an entry of the module. -/
def Mod.setEntry (m : Mod) (e : Entry) : Mod := { m with prk := m.prk.setEntry e }

/-- Is slot n's shelf present and served by a downstream port (R215)? -/
def Base.slotServed (b : Base) (n : Nat) : Bool :=
  match b.slotPort n with
  | some p => b.isSet (Reg.PRT_SLOT p) F.PRT_SLOT_present
  | none => false

/-- The bytes of an entry as the table stores it (R80). -/
def Entry.raw (e : Entry) : List Byte :=
  let dbl := b2n e.double
  leBytes 4 (e.state % 16 + 2 ^ 4 * (e.cls % 4) + 2 ^ 6 * b2n e.release + 2 ^ 7 * b2n e.read + 2 ^ 8 * dbl +
    2 ^ 9 * b2n e.evicted + 2 ^ 10 * (e.shelf % 64) + 2 ^ 16 * (e.status % 256)) ++
  leBytes 4 (e.slice % 1024 + 2 ^ 10 * (e.gen % 65536)) ++
  leBytes 8 e.hostAddr ++ leBytes 4 (e.pasid % 2 ^ 20) ++ leBytes 4 (e.length % 2 ^ 25) ++ leBytes 8 e.shelfAddr ++
  leBytes 4 ((match e.grans with
    | (g, _) :: _ => g
    | [] => 0) % 2 ^ 29) ++
  leBytes 4 e.seq ++ leBytes 4 e.parkTime ++ leBytes 4 (e.qp % 4096) ++
  leBytes 4 (e.cid % 65536 + 2 ^ 16 * (e.entryNo % 4096)) ++ leBytes 4 (e.entryLast % 4096) ++ leBytes 8 0

/-! ### Granules (R78, R81) -/

/-- Granules in a list of runs. -/
def runSize (l : List (Nat × Nat)) : Nat := l.foldl (fun n x => n + x.2) 0

/-- The pool granules now free: capacity less those that entries and guest copies hold. -/
def Mod.freeGranules (m : Mod) : Nat :=
  m.base.rd Reg.PRK_CAPACITY F.PRK_CAPACITY_granules -
    (m.prk.entries.foldl (fun n e => n + runSize e.grans) 0 + m.prk.guests.foldl (fun n g => n + runSize g.grans) 0)

/-- Insert a run by its first granule. -/
def insertRun (x : Nat × Nat) : List (Nat × Nat) → List (Nat × Nat)
  | [] => [x]
  | y :: ys => if x.1 ≤ y.1 then x :: y :: ys else y :: insertRun x ys

/-- Take `n` granules from the lowest free ones at or above `lo`, between the used runs (DESIGN CHOICE: the spec names
no order; log entry 9). -/
def takeFree : List (Nat × Nat) → Nat → Nat → List (Nat × Nat)
  | [], lo, n => if n = 0 then [] else [(lo, n)]
  | (a, k) :: rest, lo, n =>
    if n = 0 then []
    else if a ≤ lo then takeFree rest (max lo (a + k)) n
    else
      let here := min n (a - lo)
      (lo, here) :: takeFree rest (a + k) (n - here)

/-- Granules that window regions cover (R78). -/
def Base.windowRuns (b : Base) : List (Nat × Nat) :=
  (List.range 16).filterMap (fun i =>
    match b.window i with
    | some (lo, hi, _) => some (lo / 4096, (hi - lo) / 4096)
    | none => none)

/-- The runs that `n` new granules take. -/
def Mod.allocate (m : Mod) (n : Nat) : List (Nat × Nat) :=
  let used := m.base.windowRuns ++ m.prk.entries.flatMap Entry.grans ++ m.prk.guests.flatMap Guest.grans
  takeFree (used.foldl (fun acc x => insertRun x acc) []) 0 n

/-- Split runs after the first `n` granules. -/
def splitRuns : List (Nat × Nat) → Nat → List (Nat × Nat) × List (Nat × Nat)
  | [], _ => ([], [])
  | (a, k) :: rest, n =>
    if n = 0 then ([], (a, k) :: rest)
    else if k ≤ n then
      let (x, y) := splitRuns rest (n - k)
      ((a, k) :: x, y)
    else ([(a, n)], (a + n, k - n) :: rest)

/-- The park address of a byte of an entry: granule g lies at 4,096 * g (log entry 9). -/
def granAddr : List (Nat × Nat) → Nat → Nat
  | [], _ => 0
  | (a, k) :: rest, off => if off < 4096 * k then 4096 * a + off else granAddr rest (off - 4096 * k)

/-- Cut a byte range into pieces that end at multiples of `u` of an address. -/
def cutPieces (u : Nat) : Nat → Nat → Nat → List (Nat × Nat)
  | 0, _, _ => []
  | n + 1, addr, len =>
    if len = 0 then []
    else
      let k := min len (u - addr % u)
      (addr, k) :: cutPieces u n (addr + k) (len - k)

/-! ### Accesses of a park engine (R83, R138, R388) -/

/-- The park engine of a slot (R83). -/
def engineOf (n : Nat) : Nat := n % 4

/-- The world of an entry's accesses: that of its owning slice's partition (R138). -/
def Base.entryWorld (b : Base) (e : Entry) : Bool := b.partWorld (if b.sliceLive e.slice then b.slicePart e.slice else e.part)

/-- The first address of the reserved area (R78): the last 8 GiB of park DRAM. -/
def Base.resvBase (b : Base) : Nat := (if b.rd Reg.GLB_PRODUCT_ID F.GLB_PRODUCT_ID_order_code = 2 then 2 ^ 40 else 2 ^ 41) - 2 ^ 33

/-- The read staging area of a park engine, 1,024 granules (R78): the areas stand in engine order at the start of the reserved area
(DESIGN CHOICE, log entry 9). -/
def Base.stageBase (b : Base) (eng : Nat) : Nat := b.resvBase + 4194304 * eng

/-- Where bytes of a park engine lie, and how its guard sees the accesses: the slot, slice and world, the granules as runs, and for a
staging area the bytes after which it is used again. -/
structure ParkStore where
  n : Nat
  slice : Nat
  secure : Bool
  grans : List (Nat × Nat)
  ring : Nat := 0
  deriving DecidableEq, Repr

/-- An entry's granules, and its engine's staging granules (R78, R86, R87; accesses of the reserved area are secure, R138): byte k of the
entry is staged at k mod 4 MiB (DESIGN CHOICE, log entry 9). -/
def Base.entryStore (b : Base) (e : Entry) : ParkStore :=
  { n := e.shelf, slice := e.slice, secure := b.entryWorld e, grans := e.grans }
def Base.stageStore (b : Base) (e : Entry) : ParkStore :=
  { n := e.shelf, slice := e.slice, secure := true, grans := [(b.stageBase (engineOf e.shelf) / 4096, 1024)], ring := 4194304 }

/-- The address of byte `off` of a store. -/
def ParkStore.addr (x : ParkStore) (off : Nat) : Nat := granAddr x.grans (if x.ring = 0 then off else off % x.ring)

/-- An access of a store as the park engine's guard sees it (R138, R388). -/
def Base.storeAccess (b : Base) (x : ParkStore) (addr len : Nat) (wr : Bool) : Access :=
  { space := 0, addr := addr, len := max 1 len, rd := !wr, wr := wr, secure := x.secure, slice := x.slice, ident := 16 + engineOf x.n,
    bounds := !b.touchesWindow addr len }

/-- A park engine makes an access of a store for each piece of a byte range, by `act`, until its guard denies one: what it denied. -/
def Mod.eachPiece (m : Mod) (x : ParkStore) (off len : Nat) (wr : Bool) (act : Mod → Nat → Nat → Nat → Mod) : Mod × Option Nat :=
  (cutPieces 4096 (len / 4096 + 2) off len).foldl (fun (acc : Mod × Option Nat) p =>
    match acc with
    | (m, some w) => (m, some w)
    | (m, none) =>
      let a := x.addr p.1
      let (b, d) := m.base.guard (16 + engineOf x.n) (m.base.storeAccess x a p.2 wr)
      let m := { m with base := b }
      match d with
      | some d => (m, some (denialWord (16 + engineOf x.n) d))
      | none => (act m p.1 a p.2, none)) (m, none)

/-- Bytes are stored in a store, piece by piece. -/
def Mod.putAt (m : Mod) (x : ParkStore) (off : Nat) (data : List Byte) : Mod × Option Nat :=
  m.eachPiece x off data.length true (fun m p a k => m.performStore a ((data.drop (p - off)).take k) false)

/-- Bytes of a store are read; the first word is what the guard denied. -/
def Mod.getAt (m : Mod) (x : ParkStore) (off len : Nat) : Mod × Option Nat × List Byte :=
  let (m, no) := m.eachPiece x off len false (fun m _ a k => { m with base := m.base.bursts 0x300 a k })
  (m, no, (cutPieces 4096 (len / 4096 + 2) off len).flatMap (fun p => m.dram.read (x.addr p.1) p.2))

/-- A park engine's access for an entry on the crossbar: host memory, or the shelf. -/
def Base.parkAccess (b : Base) (e : Entry) (host : Bool) (addr len : Nat) (wr : Bool) : Access :=
  { space := if host then 1 else 2, sel := if host then e.part else (b.slotPort e.shelf).getD 0, addr := addr, len := max 1 len,
    rd := !wr, wr := wr, secure := b.entryWorld e, pasid := if host then some e.pasid else none, slice := e.slice,
    ident := 16 + engineOf e.shelf }

/-- A frame of a park engine for an entry, with what its record is made of when it is admitted: the entry's class, and on frames to the
shelf the shelf's meter (R62). It names its entry, so that a stop can take back what has not left the engine, and the guard and the
epoch that let it go (R143). -/
def Mod.parkFrame (m : Mod) (e : Entry) (port : Nat) (host : Bool) (t : Tlp) : Frame :=
  let t := tlpSized { t with rid := m.base.ownId port }
  let g := 16 + engineOf e.shelf
  { src := 64 + engineOf e.shelf, srcXp := 32 + engineOf e.shelf, dstXp := m.base.tileOf port, dstSub := port, vc := tlpVc t,
    bytes := tlpBytes t, tlp := t, park := some (e.cls, if host then none else some e.shelf), entry := some e.idx,
    guard := some (g, m.base.epoch g) }

/-- The port an entry's traffic takes: its partition's upstream port, or its shelf's port. -/
def Mod.entryPort (m : Mod) (e : Entry) (host : Bool) : Option Nat :=
  if host then m.base.upstreamPort e.part else m.base.slotPort e.shelf

/-! ### The end of an entry and the stages of its descriptor (R75, R77, R84) -/

/-- Something is handed to the bond logic. -/
def Mod.toBond (m : Mod) (x : BondMsg) : Mod := { m with bondOut := m.bondOut ++ [x] }

/-- A PARK message (R289): message code 7, its kind (1 refusal, 2 free, 3 eviction, 6 send again; log entry 10), and the entry index. -/
def Mod.parkMsg (m : Mod) (path kind idx : Nat) : Mod :=
  m.toBond { dstPath := path, stype := .msg, data := leBytes 4 (7 + 2 ^ 8 * kind) ++ leBytes 4 idx }

/-- The member that holds an entry's other copy: its partner (R97), or the owner of its shelf (R32). -/
def Mod.peerOf (m : Mod) (e : Entry) : Nat := e.remoteTo.getD (m.base.rd Reg.PRK_PEER F.PRK_PEER_path)

/-- A message to the member that holds an entry's copy (R98). -/
def Mod.tellPeer (m : Mod) (kind : Nat) (e : Entry) : Mod := m.parkMsg (m.peerOf e) kind e.idx

/-- Does another member hold a copy of the entry, or one on its way there (R97, R98)? -/
def Entry.copyOut (e : Entry) : Bool := e.double || e.awaitPeer || e.remoteTo.isSome

/-- An entry's granules are given back; a partner that holds its copy is told to free it (R84, R98). -/
def Mod.freeEntry (m : Mod) (e : Entry) : Mod :=
  let m := if e.copyOut then m.tellPeer 2 e else m
  m.setEntry { e with grans := [], double := false, awaitPeer := false, pieces := [], buf := [], got := [], far := none }

/-- Frames of an entry that have not been admitted to the core are taken back. -/
def Mod.recall (m : Mod) (e : Entry) : Mod :=
  { m with sw := { m.sw with waiting := m.sw.waiting.filter (fun f =>
      !(f.src == 64 + engineOf e.shelf && f.entry == some e.idx)) } }

/-- The entry's reads that are out end without their completions (R210). -/
def Mod.dropReads (m : Mod) (e : Entry) : Mod :=
  m.tags.foldl (fun m t =>
    match t.owner with
    | some (.ingest i o) => if i = e.idx then m.quarantine (.ingest i o) 0 else m
    | some (.sweepRead i o) => if i = e.idx then m.quarantine (.sweepRead i o) 0 else m
    | some (.refetch i o) => if i = e.idx then m.quarantine (.refetch i o) 0 else m
    | some (.sweepFlush i) => if i = e.idx then m.quarantine (.sweepFlush i) 0 else m
    | _ => m) m

/-- Bytes of an entry that have left its engine: those sent less those still waiting for admission. -/
def Mod.sentBytes (m : Mod) (e : Entry) : Nat :=
  e.sent - m.sw.waiting.foldl (fun n f =>
    if f.src == 64 + engineOf e.shelf && f.entry == some e.idx then n + f.tlp.data.length else n) 0

/-- A wake asked for by PRK_SHELF_CTL.wake_now ends with the slot's last live entry (R91). -/
def Mod.wakeOver (m : Mod) (n : Nat) : Mod :=
  if (m.prk.slot n).wakeNow && (m.prk.live n).isEmpty then
    { m with prk := m.prk.setSlot { (m.prk.slot n) with wakeNow := false } }
  else m

/-- One entry reaches DONE with a status (R84). -/
def Mod.doneOne (m : Mod) (e : Entry) (status : Nat) : Mod :=
  let sent := m.sentBytes e
  let m := (m.recall e).dropReads e
  let b := m.base.disarm (.entryExpiry e.idx)
  let b := match status with
    | 0x03 => b.bump (Reg.PRK_CNT 1)
    | 0x04 => b.bump (Reg.PRK_CNT 2)
    | 0x24 => b.bump (Reg.PRK_CNT 4)
    | _ => b
  (({ m with base := b } : Mod).freeEntry { e with state := 7, status := status, sent := sent, flushing := false }).wakeOver e.shelf

/-- The entries of one descriptor: by its id, or once kept by their original owner (R100). -/
def Park.siblings (x : Park) (e : Entry) : List Entry :=
  x.entries.filter (fun y => match e.desc with
    | some d => y.desc == some d
    | none => y.desc.isNone && y.kept == e.kept && y.cid == e.cid)

/-- Report a kept or re-owned entry's outcome on the manager's event ring (R100, R173). -/
def Base.outcome (b : Base) (e : Entry) : Base :=
  let (s, q) := e.kept.getD (e.slice, e.qp)
  b.raise { group := 5, bit := 6, detail := s % 1024 + 2 ^ 10 * (q % 4096) + 2 ^ 22 * (e.status % 256),
            detail2 := e.cid % 65536 + 2 ^ 16 * (e.entryNo % 4096) }

/-- The name of a submitting member's own second copy of an entry that it sent away (R32), by its index there: apart from the indices that
guest copies have (log entry 12). -/
def ownCopy (i : Nat) : Nat := 2 ^ 22 + i

/-- The outcome of an entry that has no descriptor here: to the member that submitted it (R32, log entry 12), or on the
manager's event ring (R100); the second copy that a member held of a kept entry is freed (R292). -/
def Mod.tellOutcome (m : Mod) (e : Entry) : Mod :=
  match e.remote with
  | some (path, i) =>
    m.toBond { dstPath := path, stype := .msg, origin := 64 + engineOf e.shelf,
               data := leBytes 4 (7 + 2 ^ 8 * 4) ++ leBytes 4 i ++ leBytes 4 e.status ++ leBytes 4 e.sent ++ leBytes 4 e.detail }
  | none =>
    let m : Mod := { m with base := m.base.outcome e }
    match e.keptFor with
    | some (path, i) => if path < 4096 then m.parkMsg path 2 (ownCopy i) else m
    | none => m

/-- The expiry timer of an entry follows its mode and class (R84): a retain-mode entry's age limit is expire_s of its class (0: none). -/
def Base.expireNs (b : Base) (cls : Nat) : Nat := b.rd (Reg.PRK_CLASS_EXPIRE cls) F.PRK_CLASS_EXPIRE_expire_s * sec
def Mod.armExpiry (m : Mod) (e : Entry) : Mod :=
  let t := m.base.expireNs e.cls
  if e.release || t = 0 || e.state = 7 then { m with base := m.base.disarm (.entryExpiry e.idx) }
  else { m with base := m.base.arm (.entryExpiry e.idx) (e.bornNs + t - m.base.now) }

/-- The entries of a descriptor turn to retain mode (R75). -/
def Mod.turnRetain (m : Mod) (d : Nat) : Mod :=
  (m.prk.entries.filter (fun y => y.desc == some d && y.release)).foldl (fun m y =>
    let y := { y with release := false }
    (m.setEntry y).armExpiry y) m

/-- The first stage (R75): once every entry is stored and no copy is awaited, PARKED_DOUBLE when every copy is
acknowledged, else PARKED with every entry turned to retain mode. An entry that is DONE by then, delivered ahead of the stage, counts as not
doubled, its copy being freed (DESIGN CHOICE, log entry 44). -/
def Mod.firstStage (m : Mod) (e : Entry) : Mod :=
  match e.desc with
  | none => m
  | some d =>
    let sib := m.prk.siblings e
    match m.qe.desc d with
    | none => m
    | some ds =>
      if e.read || ds.decided.isSome || sib.any (fun y => y.state == 1 || y.awaitPeer || (y.state == 7 && decide (0x20 ≤ y.status)))
      then m
      else
        let dbl := sib.all (fun y => y.double)
        let bytes := sib.foldl (fun n y => n + y.length) 0
        let m := if dbl then m else m.turnRetain d
        m.postStage d { cid := 0, opcode := 0, status := if dbl then 0x02 else 0x01, final := false, bytes := bytes }

/-- The descriptor's final stage, once every entry is DONE (R77): its status is the first failing entry's, or REFETCHED
if any entry was, or DELIVERED; the entries are freed. Kept entries are reported one by one (R100). -/
def Mod.finalStage (m : Mod) (e : Entry) : Mod :=
  let sib := m.prk.siblings e
  match e.desc with
  | none =>
    let gone := sib.filter (fun y => y.state == 7)
    let m := gone.foldl (fun m y => m.tellOutcome y) m
    { m with prk := { m.prk with entries := m.prk.entries.filter (fun y => !gone.contains y) } }
  | some d =>
    if sib.any (fun y => y.state != 7) then m
    else
      let bad := sib.find? (fun y => decide (0x20 ≤ y.status))
      let status := match bad with
        | some y => y.status
        | none => if sib.any (fun y => y.status == 4) then 0x04 else 0x03
      let before := match bad with
        | some y => (sib.filter (fun z => decide (z.entryNo < y.entryNo) && decide (z.status < 0x20))).length
        | none => 0
      let bytes := sib.foldl (fun n y => n + y.sent) 0
      let m := { m with prk := { m.prk with entries := m.prk.entries.filter (fun y => y.desc != some d) } }
      (m.postStage d { cid := 0, opcode := 0, status := status, final := true, bytes := bytes, entriesDone := before,
                       detail := (bad.map Entry.detail).getD 0 }).fences

/-- An entry reaches DONE; when it failed, the descriptor's later entries end with its status (R77, R84). -/
def Mod.finish (m : Mod) (e : Entry) (status : Nat) : Mod :=
  let m := m.doneOne e status
  let later := if status < 0x20 then [] else
    (m.prk.siblings e).filter (fun y => decide (e.entryNo < y.entryNo) && y.state != 7)
  let m := later.foldl (fun m y => m.doneOne y status) m
  let m := if status < 0x20 then m.firstStage e else m
  m.finalStage e

/-- Finish the entry with an index, if it is there and not DONE. -/
def Mod.finishIdx (m : Mod) (i status : Nat) : Mod :=
  match m.prk.entry i with
  | some e => if e.state = 7 then m else m.finish e status
  | none => m

/-! ### Expiry (R84) -/

/-- The expiry timers of every entry of a class follow a change of its expire_s. -/
def Mod.armClass (m : Mod) (cls : Nat) : Mod :=
  (m.prk.entries.filter (fun e => e.cls == cls)).foldl Mod.armExpiry m

/-- An entry's age passes expire_s (R84): EXPIRED, unless it is in SWEEP or DONE or in release mode. -/
def Mod.expire (m : Mod) (i : Nat) : Mod :=
  match m.prk.entry i with
  | none => m
  | some e => if e.state = 6 || e.state = 7 || e.release || m.base.expireNs e.cls = 0 then m else m.finish e 0x24

/-! ### Push-out (R82) and eviction (R85) -/

/-- An entry is evicted: its granules are free, its quota charge released, its guest copy freed (R82). A repair (R85) is no push-out and
counts as none. -/
def Mod.evictEntry (m : Mod) (e : Entry) (push : Bool) : Mod :=
  let m := if e.copyOut then m.tellPeer 2 e else m
  let b := if push then (m.base.bump (Reg.PRK_CNT 3)).occ 0x104 (engineOf e.shelf) (some e.slice) 1 else m.base
  ({ m with base := b } : Mod).setEntry { e with state := 4, evicted := true, double := false, awaitPeer := false, grans := [],
                                                 asked := 0 }

/-- A guest copy is evicted and its owner told (R98). -/
def Mod.evictGuest (m : Mod) (g : Guest) : Mod :=
  let m := { m with base := m.base.bump (Reg.PRK_CNT 3), prk := { m.prk with guests := m.prk.guests.filter (fun x => x != g) } }
  m.parkMsg g.owner 3 g.idx

/-- A victim of push-out with what orders it. -/
structure Victim where
  guest : Option Guest
  entry : Option Entry
  cls : Nat
  elig : Option Nat
  shelf : Nat
  seq : Nat
  size : Nat
  deriving DecidableEq, Repr

/-- The eligibility time of a slot (R82); none: not yet eligible. -/
def Mod.eligTime (m : Mod) (n : Nat) : Option Nat :=
  match m.base.slotState n with
  | 1 => some (m.prk.slot n).since
  | 8 => (m.prk.slot n).keepSince
  | _ => none

/-- Does victim x go before y (R82)? -/
def victimBefore (x y : Victim) : Bool :=
  if x.guest.isSome != y.guest.isSome then x.guest.isSome
  else if x.cls ≠ y.cls then decide (y.cls < x.cls)
  else if x.elig ≠ y.elig then
    match x.elig, y.elig with
    | none, _ => true
    | some _, none => false
    | some a, some c => decide (c < a)
  else if x.shelf ≠ y.shelf then decide (y.shelf < x.shelf)
  else newer 32 x.seq y.seq

/-- Insert a victim in order. -/
def insertVictim (x : Victim) : List Victim → List Victim
  | [] => [x]
  | y :: ys => if victimBefore x y then x :: y :: ys else y :: insertVictim x ys

/-- The victims of push-out for a class (R82). A guest copy counts as one of a shelf that is not yet eligible: its slot stands at its owner
(DESIGN CHOICE, log entry 44). -/
def Mod.victims (m : Mod) (cls : Nat) : List Victim :=
  let gs := (m.prk.guests.filter (fun g => !g.release && decide (cls < g.cls) && !g.orphan && g.cls != 0)).map (fun g =>
    ({ guest := some g, entry := none, cls := g.cls, elig := none, shelf := g.shelf, seq := g.seq, size := runSize g.grans } : Victim))
  let es := (m.prk.entries.filter (fun e => (e.state == 2 || e.state == 3) && !e.release && e.remoteTo.isNone && decide (cls < e.cls) &&
      [0, 1, 8].contains (m.base.slotState e.shelf))).map (fun e =>
    ({ guest := none, entry := some e, cls := e.cls, elig := m.eligTime e.shelf, shelf := e.shelf, seq := e.seq,
       size := runSize e.grans } : Victim))
  (gs ++ es).foldl (fun acc v => insertVictim v acc) []

/-- Evict from the front until enough is free. -/
def Mod.evictUntil (m : Mod) : Nat → List Victim → Mod
  | _, [] => m
  | need, v :: vs =>
    if need = 0 then m
    else
      let m := match v.guest, v.entry with
        | some g, _ => m.evictGuest g
        | none, some e => m.evictEntry e true
        | none, none => m
      Mod.evictUntil m (need - v.size) vs

/-- Push-out for a class (R82): nothing is evicted when all victims together would not do. -/
def Mod.pushOut (m : Mod) (cls need : Nat) : Mod :=
  let vs := m.victims cls
  if vs.foldl (fun n v => n + v.size) 0 < need then m else m.evictUntil need vs

/-! ### Admission (R81) -/

/-- Granules of one entry's bytes. -/
def entryGrans (len : Nat) : Nat := cdiv len 4096

/-- The length of entry k of a descriptor (R81). -/
def entryLen (total k : Nat) : Nat := min (16777216) (total - 16777216 * k)

/-- Park bytes charged to a slice's quota: the granules its entries hold, those kept or re-owned apart (R81, R100). -/
def Mod.quotaUse (m : Mod) (s : Nat) : Nat :=
  4096 * m.prk.entries.foldl (fun n e => if e.slice == s && e.kept.isNone then n + runSize e.grans else n) 0

/-- The lowest `k` entry indices that are free (log entry 9). -/
def Mod.freeEntries (m : Mod) (k : Nat) : List Nat :=
  let used := m.prk.entries.map Entry.idx
  ((List.range (used.length + k)).filter (fun i => !used.contains i)).take k

/-- Bytes of an entry travel to another member's engine in frames of at most 1,024 B, each with its kind, the entry's index
and the offset (log entry 10), in the class of the entry (R62); `copy` marks the last one. -/
def Mod.bondData (m : Mod) (path kind idx origin cls : Nat) (world : Bool) (off : Nat) (data : List Byte) (copy : Option Nat) : Mod :=
  (cutPieces 1024 (data.length / 1024 + 2) 0 data.length).foldl (fun m x =>
    m.toBond { dstPath := path, origin := origin, world := world, park := some (cls, none),
               data := leBytes 4 kind ++ leBytes 4 idx ++ leBytes 4 (off + x.1) ++ (data.drop x.1).take x.2,
               copy := if data.length ≤ x.1 + x.2 then copy else none }) m

/-- The kind of the frame that opens an entry's copy: 1 a copy for the partner (R97), 3 an entry for the owner of its shelf (R32); the next
kind carries its bytes (log entries 10, 12). -/
def Entry.copyKind (e : Entry) : Nat := if e.remoteTo.isSome then 3 else 1

/-- The copy of an entry begins, or an entry goes to the owner of its shelf: one frame with its 64 B entry. -/
def Mod.copyHead (m : Mod) (e : Entry) : Mod :=
  m.toBond { dstPath := m.peerOf e, origin := 64 + engineOf e.shelf, world := m.base.entryWorld e, park := some (e.cls, none),
             data := leBytes 4 e.copyKind ++ leBytes 4 e.idx ++ ({ e with grans := [] } : Entry).raw }

/-- Bytes of an entry are read from its granules, under the engine's guard, and go out; `ack` marks the last of them. -/
def Mod.copyBytes (m : Mod) (e : Entry) (off len : Nat) (ack : Bool) : Mod × Option Nat :=
  match m.getAt (m.base.entryStore e) off len with
  | (m, some w, _) => (m, some w)
  | (m, none, data) =>
    (m.bondData (m.peerOf e) (e.copyKind + 1) e.idx (64 + engineOf e.shelf) e.cls (m.base.entryWorld e) off data
      (if ack then some e.idx else none), none)

/-- The copy goes out during ingest (R97): the pieces that continue it, in order; `n` bounds them. Its guard's denial ends the copy. -/
def Mod.copyNext : Nat → Mod → Entry → Mod × Entry × Option Nat
  | 0, m, e => (m, e, none)
  | n + 1, m, e =>
    match e.got.find? (fun x => x.1 == e.copied) with
    | none => (m, e, none)
    | some x =>
      match m.copyBytes e x.1 x.2 (decide (e.length ≤ x.1 + x.2)) with
      | (m, some w) => (m, e, some w)
      | (m, none) => Mod.copyNext n m { e with copied := x.1 + x.2, got := e.got.filter (fun y => y != x) }

/-- Is the entry one that is copied, as it begins to be stored: one for another member, or any while a partner is set (R97)? -/
def Mod.wantsCopy (m : Mod) (e : Entry) : Bool :=
  !e.noCopy && (e.remoteTo.isSome || e.awaitPeer || e.double || (m.base.isSet Reg.PRK_PEER F.PRK_PEER_valid && e.remote.isNone && e.stored = 0))

/-- A piece of an entry has been stored: it joins the entry's copy, which begins with the first. -/
def Mod.copyPiece (m : Mod) (e : Entry) (off len : Nat) : Mod × Entry × Option Nat :=
  if !m.wantsCopy e then (m, { e with noCopy := true }, none)
  else if off + len ≤ e.copied then (m, e, none)
  else
    let m := if e.awaitPeer || e.double then m else m.copyHead e
    Mod.copyNext (e.got.length + 2) m { e with awaitPeer := !e.double, got := e.got ++ [(off, len)] }

/-- The member that holds an entry asks for its bytes again (R85, R87; log entry 12). -/
def Mod.copyAgain (m : Mod) (i : Nat) : Mod :=
  match m.prk.entry i with
  | none => m
  | some e => if e.grans.isEmpty then m else (m.copyBytes e 0 (if e.state = 1 then e.copied else e.length) false).1

/-- The entries of a descriptor are made (R81): INGEST for a write, WAIT_R for a read, with the next shelf sequences. -/
def Mod.makeEntries (m : Mod) (d : Desc) (k : Nat) : Mod :=
  let far := m.base.elsewhere d
  let n := if far then 64 + d.shelf else d.shelf
  let rd := d.opcode == 3
  let slot := m.prk.slot n
  let part := m.base.slicePart d.slice
  let pas := m.base.descPasid d
  let total := if rd then 0 else (List.range k).foldl (fun g i => g + entryGrans (entryLen d.length i)) 0
  let (es, _) := (List.range k).foldl (fun (acc : List Entry × List (Nat × Nat)) i =>
    let (l, runs) := acc
    let len := entryLen d.length i
    let (mine, rest) := splitRuns runs (if rd then 0 else entryGrans len)
    let e : Entry := {
      idx := (m.freeEntries k).getD i 0, state := if rd then 5 else 1, cls := d.cls, release := d.release, read := rd,
      shelf := n, slice := d.slice, gen := d.gen, hostAddr := d.hostAddr + 16777216 * i, pasid := pas, length := len,
      shelfAddr := d.shelfAddr + 16777216 * i, grans := mine, seq := (slot.nextSeq + i) % 2 ^ 32,
      parkTime := m.base.todSec % 2 ^ 32, bornNs := m.base.now, qp := d.gqp, cid := d.cid, entryNo := i,
      entryLast := k - 1, desc := some d.id, part := part,
      remoteTo := if far then some d.path else none }
    (l ++ [e], rest)) ([], m.allocate total)
  let b := (m.base.bumpBy (Reg.PRK_CNT 0) k).occ 0x103 (engineOf n) (some d.slice) k
  let b := if b.armed (.idleHold n) then b.disarm (.idleHold n) else b
  let slot := { slot with nextSeq := (slot.nextSeq + k) % 2 ^ 32,
                          sweeping := slot.sweeping || b.slotState n == 6 }
  let m : Mod := { m with base := b, prk := { m.prk with entries := m.prk.entries ++ es } }
  let m : Mod := if far then (if rd then es.foldl (fun m e => m.copyHead e) m else m)
    else
      let cfg := m.base.word (Reg.PRK_CLASS_CFG d.cls)
      let batch := bits cfg.toNat F.PRK_CLASS_CFG_batch_s * sec
      { m with base := m.base.armIfIdle (.batch n) batch, prk := { (m.prk.setSlot slot) with planDue := true } }
  es.foldl Mod.armExpiry m

/-- One try of the space check of R81: the granules and entries fit, after one push-out; admission is closed in M2 (R341). A descriptor
whose slot has become FAILED meanwhile ends with TARGET_GONE (R95). -/
def Mod.tryAdmit (m : Mod) (d : Desc) (k g : Nat) : Mod × Bool :=
  if !m.base.elsewhere d && m.base.slotState d.shelf == 9 then ((m.complete d.id 0x21).fences, true)
  else
  let m := if m.freeGranules < g then m.pushOut d.cls (g - m.freeGranules) else m
  let back := !m.base.elsewhere d && m.bnd.awaitBack.any (fun x => x.1 == d.shelf)
  if m.pl.m2 = 0 && !back && g ≤ m.freeGranules && m.prk.entries.length + k ≤ 4194304 then (m.makeEntries d k, true) else (m, false)

/-- Admission of a descriptor that reached the park path (R81). -/
def Mod.letIn (m : Mod) (d : Desc) : Mod :=
  let n := d.shelf
  if !m.base.isSet Reg.PRK_CTRL F.PRK_CTRL_enable then (m.complete d.id 0x25).fences
  else if !m.base.elsewhere d && (m.base.slotState n == 9 || !m.base.slotServed n) then (m.complete d.id 0x21).fences
  else
    let k := cdiv d.length 16777216
    let g := if d.opcode == 3 then 0 else (List.range k).foldl (fun g i => g + entryGrans (entryLen d.length i)) 0
    let quota := m.base.rd (Reg.SLC_QUOTA d.slice) F.SLC_QUOTA_quota_gib * 2 ^ 30
    if quota < m.quotaUse d.slice + 4096 * g then
      (({ m with base := m.base.bump (Reg.PRK_CNT 11) } : Mod).complete d.id 0x27).fences
    else
      let m := { m with qe := m.qe.setDesc { d with phase := .running } }
      match m.tryAdmit d k g with
      | (m, true) => m
      | (m, false) =>
        let wait := m.base.rd Reg.PRK_ADMIT F.PRK_ADMIT_wait_ms * ms
        if wait = 0 then (({ m with base := m.base.bump (Reg.PRK_CNT 11) } : Mod).complete d.id 0x27).fences
        else
          { m with base := (m.base.bump (Reg.PRK_CNT 10)).arm (.admissionWait d.id) wait,
                   prk := { m.prk with waits := m.prk.waits ++ [⟨d.id, k, g⟩] } }

/-- An admission leaves the wait. -/
def Mod.endWait (m : Mod) (w : AdmWait) : Mod :=
  { m with base := m.base.disarm (.admissionWait w.desc), prk := { m.prk with waits := m.prk.waits.erase w } }

/-- Granules or entries were freed: the admissions that wait try again, in order (R81). -/
def Mod.admissionResume (m : Mod) : Mod :=
  m.prk.waits.foldl (fun m w =>
    match m.qe.desc w.desc with
    | none => m.endWait w
    | some d =>
      match m.tryAdmit d w.k w.g with
      | (m, true) => m.endWait w
      | (m, false) => m) m

/-- The wait of the admission whose deadline comes first has run out (R81): one last try, then QUOTA. -/
def Mod.admissionExpired (m : Mod) (w : AdmWait) : Mod :=
  match m.qe.desc w.desc with
  | none => m.endWait w
  | some d =>
    match m.tryAdmit d w.k w.g with
    | (m, true) => m.endWait w
    | (m, false) =>
      let m := m.endWait w
      (({ m with base := m.base.bump (Reg.PRK_CNT 11) } : Mod).complete d.id 0x27).fences

/-! ### Ingest (R83, R84) -/

/-- The final status a failed read gives an entry (R84). -/
def cplToStatus (c : CplStatus) : Nat :=
  match c with
  | .ok => 0x03
  | .ur | .ca | .portGone => 0x21
  | .timeout => 0x22
  | .poisoned => 0x23

/-- Is ingest paused: by the supply zone (R346), by M2 (R341), by a take-down (R298, R329), or before READY (R332)? -/
def Mod.ingestPaused (m : Mod) : Bool :=
  m.base.rd Reg.PWR_STATUS F.PWR_STATUS_zone != 0 || m.pl.m2 != 0 || m.pl.take.isSome ||
  m.base.rd Reg.CLK_STATUS F.CLK_STATUS_stage != 6

/-- A read of an entry is issued: guarded, its tag taken, its frame handed to the engine's crossbar port. `false`: no tag
is free, so it waits. -/
def Mod.parkRead (m : Mod) (e : Entry) (o : TagOwner) (host : Bool) (addr len : Nat) : Mod × Bool :=
  match m.entryPort e host with
  | none => (m.finish e 0x21, true)
  | some p =>
    if host && !m.base.bme e.part then (m.finish e 0x25, true)
    else
    match m.freeTag p with
    | none => (m, false)
    | some t =>
      let (b, d) := m.base.guard (16 + engineOf e.shelf) (m.base.parkAccess e host addr len false)
      let m := { m with base := b }
      match d with
      | some d => (m.finish { e with detail := denialWord (16 + engineOf e.shelf) d } 0x20, true)
      | none =>
        let f := m.parkFrame e p host { kind := .memRead, addr := addr, len := len, tag := t,
                                        pasid := if host then some e.pasid else none }
        ((m.takeTag p t len o).inject f, true)

/-- The next ingest reads of an entry, each up to the next 4 KiB boundary of the host address, while tags are free; `n`
bounds them. -/
def Mod.ingestReads : Nat → Mod → Nat → Mod
  | 0, m, _ => m
  | n + 1, m, i =>
    match m.prk.entry i with
    | none => m
    | some e =>
      if e.state ≠ 1 || e.desc.isNone || e.length ≤ e.asked || m.ingestPaused then m
      else
        let a := e.hostAddr + e.asked
        let k := min (e.length - e.asked) (4096 - a % 4096)
        match m.parkRead e (.ingest i e.asked) true a k with
        | (m, false) => m
        | (m, true) =>
          match m.prk.entry i with
          | none => m
          | some e' => if e'.state ≠ 1 then m else Mod.ingestReads n (m.setEntry { e' with asked := e'.asked + k }) i

/-- The last granule of an entry is stored (R84): HELD, or HELD2 when its copy has been acknowledged already. -/
def Mod.stored (m : Mod) (e : Entry) : Mod :=
  let e := { e with state := if e.double then 3 else 2 }
  let m := m.setEntry e
  if e.awaitPeer then m else m.firstStage e

/-- The highest class among a slot's live entries: the lowest number. -/
def Park.topClass (x : Park) (n : Nat) : Option Nat :=
  (x.live n).foldl (fun (t : Option Nat) e => match t with
    | none => some e.cls
    | some c => some (min c e.cls)) none

/-- Bytes that a slot's live write entries hold stored in park DRAM (R91). -/
def Park.storedBytes (x : Park) (n : Nat) : Nat :=
  (x.live n).foldl (fun k e => if e.read || e.grans.isEmpty then k else k + e.stored) 0

/-- Has the slot reached batch_gib of its highest class (R91)? -/
def Mod.batchFull (m : Mod) (n c : Nat) : Bool :=
  let g := m.base.rd (Reg.PRK_CLASS_BATCH c) F.PRK_CLASS_BATCH_batch_gib
  g != 0 && decide (g * 2 ^ 30 ≤ m.prk.storedBytes n)
def Mod.slotFull (m : Mod) (n : Nat) : Bool := ((m.prk.topClass n).map (m.batchFull n)).getD false

/-- More of an entry is stored: the plan runs when its slot reaches its batch_gib (R91). -/
def Mod.moreStored (m : Mod) (e : Entry) : Mod :=
  let m' := m.setEntry e
  if !m.slotFull e.shelf && m'.slotFull e.shelf then { m' with prk := { m'.prk with planDue := true } } else m'

/-- Granules that are whole once `n` bytes of an entry are in. -/
def Entry.granulesAt (e : Entry) (n : Nat) : Nat := if e.length ≤ n then entryGrans e.length else n / 4096

/-- `len` more bytes of an entry are stored: with the last of them it is HELD. -/
def Mod.ingested (m : Mod) (e : Entry) (len : Nat) : Mod :=
  let e' := { e with stored := e.stored + len }
  let m := { m with base := m.base.occ 0x100 (engineOf e.shelf) (some e.slice) (e.granulesAt e'.stored - e.granulesAt e.stored) }
  let m := m.moreStored e'
  if e'.length ≤ e'.stored then m.stored e' else m

/-- The copy of an entry ends before it is whole: no copy is awaited, and none is made (R97). -/
def Entry.copyEnded (e : Entry) : Entry := { e with awaitPeer := false, noCopy := true, got := [] }

/-- A host read for ingest completes (R84): its bytes are stored through the engine's guard and join the entry's copy; a completion of a
split read waits for the others. -/
def Mod.ingestDone (m : Mod) (i off : Nat) (c : Cpl) : Mod :=
  match m.gather (.ingest i off) c with
  | (m, none) => m
  | (m, some (len, c)) =>
    let m := m.endTag (.ingest i off) c.status
    match m.prk.entry i with
    | none => m
    | some e =>
      if e.state ≠ 1 then m
      else if c.status == CplStatus.ok && decide (len ≤ c.data.length) then
        match m.putAt (m.base.entryStore e) off (c.data.take len) with
        | (m, some w) => m.finish { e with detail := w } 0x20
        | (m, none) =>
          match m.copyPiece e off len with
          | (m, e, some w) =>
            if e.remoteTo.isSome then m.finish { e with detail := w } 0x20
            else m.ingested (e.copyEnded) len
          | (m, e, none) => m.ingested e len
      else m.finish e (if c.status == CplStatus.ok then 0x21 else cplToStatus c.status)

/-- A partner copy is lost or evicted (R84): HELD2 returns to HELD, counted, with an advisory event. -/
def Mod.peerLost (m : Mod) (i : Nat) : Mod :=
  match m.prk.entry i with
  | none => m
  | some e =>
    if !e.double then m
    else
      let e := { e with double := false, state := if e.state = 3 then 2 else e.state,
                        prior := if e.prior = 3 then 2 else e.prior }
      ({ m with base := (m.base.bump (Reg.PRK_CNT 13)).raise { group := 5, bit := 0, detail := i } } : Mod).setEntry e

/-- The number of a guest copy among the entries: its owner and index. -/
def guestKey (owner idx : Nat) : Nat := 2 ^ 23 * (owner + 1) + idx

/-- The partner has acknowledged an entry's copy (R84, R97), or the joining module an orphan's last frame (R292). -/
def Mod.peerAck (m : Mod) (i : Nat) : Mod :=
  match m.prk.entry i with
  | none => { m with prk := { m.prk with guests := m.prk.guests.filter (fun g => !(g.sent && guestKey g.owner g.idx == i)) } }
  | some e =>
    if !e.awaitPeer then m
    else
      let e := { e with awaitPeer := false, double := e.state != 7 && e.state != 4, state := if e.state = 2 then 3 else e.state,
                        prior := if e.state = 6 && e.prior = 2 then 3 else e.prior }
      (m.setEntry e).firstStage e

/-- The partner refused a copy, or no acknowledgement came in time: the entry stays in HELD (R97). -/
def Mod.peerNo (m : Mod) (i : Nat) : Mod :=
  match m.prk.entry i with
  | none => { m with prk := { m.prk with guests := m.prk.guests.map (fun g =>
      if guestKey g.owner g.idx == i then { g with sent := false } else g) } }
  | some e => if e.remoteTo.isSome then m.finishIdx i 0x21
              else if e.awaitPeer then (m.setEntry e.copyEnded).firstStage e.copyEnded
              else m.peerLost i

/-! ### Sweeps (R86, R87) -/

/-- Put a piece into the pieces that are in, and move those that continue the stream to its buffer. -/
def Entry.takePiece (e : Entry) (off : Nat) (data : List Byte) : Entry :=
  let rec go (n : Nat) (e : Entry) : Entry :=
    match n with
    | 0 => e
    | n + 1 =>
      match e.pieces.find? (fun x => x.1 == e.sent + e.buf.length) with
      | none => e
      | some x => go n { e with buf := e.buf ++ x.2, pieces := e.pieces.filter (fun y => y != x) }
  go (e.pieces.length + 1) { e with pieces := e.pieces ++ [(off, data)] }

/-- One data write of a sweep goes out: guarded, then a posted frame (R86), unless the guard denies it. -/
def Mod.sweepWrite (m : Mod) (e : Entry) (port addr : Nat) (host : Bool) (data : List Byte) : Mod × Option Nat :=
  let (b, d) := m.base.guard (16 + engineOf e.shelf) (m.base.parkAccess e host addr data.length true)
  let m := { m with base := b }
  match d with
  | some d => (m, some (denialWord (16 + engineOf e.shelf) d))
  | none => (m.inject (m.parkFrame e port host { kind := .memWrite, addr := addr, data := data,
                                                    pasid := if host then some e.pasid else none }), none)

/-- Bytes of the entry's stream are taken from where they lie: from the staging granules for a park read or a refetch, under the engine's
guard (R86, R87); a stored write's were read from its granules as the sweep came to it. -/
def Mod.takeStaged (m : Mod) (e : Entry) (k : Nat) : Mod × Option Nat :=
  if e.read || e.refetch then
    let (m, no, _) := m.getAt (m.base.stageStore e) e.sent k
    (m, no)
  else (m, none)

/-- The next piece of an entry's stream goes out at port `p` when it is ready, and `next` goes on (R86). -/
def Mod.sweepPiece (next : Mod → Entry → Mod × Option Entry) (m : Mod) (e : Entry) (p : Nat) : Mod × Option Entry :=
  let host := e.read
  let u := m.base.portMps p
  let a := (if host then e.hostAddr else e.shelfAddr) + e.sent
  let k := min (e.length - e.sent) (u - a % u)
  if k = 0 || e.buf.length < k then (m.setEntry e, some e)
  else if host && !m.base.bme e.part then (m.finish e 0x25, none)
  else
    match m.takeStaged e k with
    | (m, some w) => (m.finish { e with detail := w } 0x20, none)
    | (m, none) =>
      match m.sweepWrite e p a host (e.buf.take k) with
      | (m, some w) => (m.finish { e with detail := w } 0x20, none)
      | (m, none) =>
        let e := { e with sent := e.sent + k, buf := e.buf.drop k }
        next (m.setEntry e) e

/-- Write out what is ready of an entry's stream, in pieces of the port's maximum payload that end at multiples of it;
an unfinished piece waits for more data unless the stream has ended (R86). -/
def Mod.sweepOut : Nat → Mod → Entry → Mod × Option Entry
  | 0, m, e => (m, some e)
  | n + 1, m, e =>
    let host := e.read
    match e.remote, m.entryPort e host with
    | some (path, i), _ =>
      if !host then
        match m.entryPort e false with
        | none => (m.finish e 0x21, none)
        | some p => Mod.sweepPiece (Mod.sweepOut n) m e p
      else if e.buf.isEmpty then (m.setEntry e, some e)
      else
        -- the bytes go to the member whose host asked for them (R32, log entry 12)
        match m.takeStaged e e.buf.length with
        | (m, some w) => (m.finish { e with detail := w } 0x20, none)
        | (m, none) =>
          let m := m.bondData path 5 i (64 + engineOf e.shelf) e.cls (m.base.entryWorld e) e.sent e.buf none
          let e := { e with sent := e.sent + e.buf.length, buf := [] }
          (m.setEntry e, some e)
    | none, none => (m.finish e 0x21, none)
    | none, some p => Mod.sweepPiece (Mod.sweepOut n) m e p

/-- The flush read of an entry, once all its bytes are sent (R86): zero length, at the last address written. -/
def Mod.sweepFlush (m : Mod) (e : Entry) : Mod :=
  if e.flushing || e.sent < e.length then m
  else if e.read && e.remote.isSome then m.finish e 0x03
  else
    let host := e.read
    let a := (if host then e.hostAddr else e.shelfAddr) + e.length - 1
    match m.parkRead e (.sweepFlush e.idx) host a 0 with
    | (m, false) => m
    | (m, true) =>
      match m.prk.entry e.idx with
      | some e' => if e'.state = 6 then m.setEntry { e' with flushing := true } else m
      | none => m

/-- The flush read of a park read whose data came from another member (R32, R131): the DELIVERED that its owner reported waits for it. -/
def Mod.remoteFlush (m : Mod) (e : Entry) : Mod :=
  if e.far.isNone || e.flushing then m
  else
    match m.parkRead e (.sweepFlush e.idx) true (e.hostAddr + e.length - 1) 0 with
    | (m, false) => m
    | (m, true) =>
      match m.prk.entry e.idx with
      | some e' => if e'.state = 7 then m else m.setEntry { e' with flushing := true }
      | none => m

/-- The next reads of an entry in SWEEP that reads its data: from the shelf for a park read, from the host again for an
evicted write (R86, R87); the bytes of an entry held for another member come from that member's copy (log entry 12). -/
def Mod.sweepReads : Nat → Mod → Nat → Mod
  | 0, m, _ => m
  | n + 1, m, i =>
    match m.prk.entry i with
    | none => m
    | some e =>
      if e.state ≠ 6 || !(e.read || e.refetch && e.remote.isNone) || e.length ≤ e.asked then m
      else
        let host := !e.read
        let a := (if host then e.hostAddr else e.shelfAddr) + e.asked
        let k := min (e.length - e.asked) (4096 - a % 4096)
        let o := if host then TagOwner.refetch i e.asked else TagOwner.sweepRead i e.asked
        match m.parkRead e o host a k with
        | (m, false) => m
        | (m, true) =>
          match m.prk.entry i with
          | none => m
          | some e' => if e'.state ≠ 6 then m else Mod.sweepReads n (m.setEntry { e' with asked := e'.asked + k }) i

/-- Requests one command lets an entry make. -/
def Entry.fuel (e : Entry) : Nat := e.length + 2

/-- What is ready of an entry's stream goes out, and its flush read once all has (R86). -/
def Mod.sweepOn (m : Mod) (e : Entry) : Mod :=
  match Mod.sweepOut e.fuel m e with
  | (m, some e) => m.sweepFlush e
  | (m, none) => m

/-- Bytes of an entry's stream come in: staged, under the engine's guard, and sent on (R86, R87). -/
def Mod.streamIn (m : Mod) (e : Entry) (off : Nat) (data : List Byte) : Mod :=
  match m.putAt (m.base.stageStore e) off data with
  | (m, some w) => m.finish { e with detail := w } 0x20
  | (m, none) =>
    let e' := e.takePiece off data
    let had := fun (e : Entry) => e.granulesAt (e.sent + e.buf.length + e.pieces.foldl (fun n x => n + x.2.length) 0)
    let b := if e.refetch then m.base.occ 0x102 (engineOf e.shelf) (some e.slice) (had e' - had e) else m.base
    (({ m with base := b } : Mod).setEntry e').sweepOn e'

/-- The sweep reaches an entry (R84, R86): a stored write is sent from its granules, an evicted one is fetched again, a
park read is read from the shelf. -/
def Mod.sweepEntry (m : Mod) (e : Entry) : Mod :=
  let e := { e with prior := e.state, state := 6, sent := 0, buf := [], pieces := [], flushing := false,
                    refetch := e.evicted, asked := if e.read || e.evicted then 0 else e.asked }
  let m := m.setEntry e
  match e.refetch, e.remote with
  | true, some (path, i) => m.parkMsg path 6 i
  | _, _ =>
    if e.read || e.refetch then m.sweepReads e.fuel e.idx
    else
      match m.getAt (m.base.entryStore e) 0 e.length with
      | (m, some w, _) => m.finish { e with detail := w } 0x20
      | (m, none, data) => m.sweepOn { e with buf := data }

/-- The oldest live entry of a slot (R20, R86). -/
def Park.oldest (x : Park) (n : Nat) : Option Entry :=
  (x.live n).foldl (fun (best : Option Entry) e =>
    match best with
    | none => some e
    | some y => if newer 32 y.seq e.seq then some e else some y) none

/-- The sweep has ended (R88, R92, R95): the idle hold starts unless the slot is pinned, the failure count is zeroed, and
the plan runs. -/
def Mod.sweepEnd (m : Mod) (n : Nat) : Mod :=
  let slot := { (m.prk.slot n) with sweeping := false, wakeNow := false, idleFrom := m.base.now }
  let b := m.base.wr (Reg.PRK_SHELF_STATE n) F.PRK_SHELF_STATE_fails 0
  let b := if b.isSet (Reg.PRK_SHELF_CTL n) F.PRK_SHELF_CTL_pin then b
    else b.arm (.idleHold n) (b.rd (Reg.PRK_SHELF_TIME n) F.PRK_SHELF_TIME_idle_hold_s * sec)
  { m with base := b, prk := { (m.prk.setSlot slot) with planDue := true } }

/-- May sweeps of slot n go on: not in the brown zone (R346), under a take-down, before READY, or on a held park engine
(R309)? -/
def Mod.sweepsRun (m : Mod) (n : Nat) : Bool :=
  decide (m.base.rd Reg.PWR_STATUS F.PWR_STATUS_zone < 2) && m.pl.take.isNone &&
  m.base.rd Reg.CLK_STATUS F.CLK_STATUS_stage == 6 && !m.pl.parkHeld.contains (n % 4)

/-- A sweep goes on (R86): nothing while an entry is in SWEEP, the port is contained or its link is away; the oldest live
entry next, an entry in INGEST holding the sweep; with none left the sweep ends. -/
def Mod.sweepNext (m : Mod) (n : Nat) : Mod :=
  let slot := m.prk.slot n
  let ok := match m.base.slotPort n with
    | some p => !m.base.contained p
    | none => false
  if !slot.sweeping || slot.paused || !ok || !m.sweepsRun n || m.base.slotState n != 6 || (m.prk.live n).any (fun e => e.state == 6) then m
  else
    match m.prk.oldest n with
    | none => m.sweepEnd n
    | some e => if e.state = 1 then m else m.sweepEntry e

/-- Sweeps go on until each waits for something; every round starts an entry or ends a sweep. -/
def Mod.sweepAll : Nat → Mod → Mod
  | 0, m => m
  | k + 1, m =>
    let m' := m.prk.slots.foldl (fun m s => m.sweepNext s.n) m
    if m'.prk == m.prk then m else Mod.sweepAll k m'

/-- Reads that wait for a tag are tried again, and flush reads that could not be issued (R210). -/
def Mod.parkPump (m : Mod) : Mod :=
  m.prk.entries.foldl (fun m e =>
    match m.prk.entry e.idx with
    | none => m
    | some e =>
      if e.far.isSome then m.remoteFlush e
      else if e.state = 1 then m.ingestReads e.fuel e.idx
      else if e.state = 6 then
        let m := m.sweepReads e.fuel e.idx
        match m.prk.entry e.idx with
        | some e => if e.state = 6 && e.length ≤ e.sent then m.sweepFlush e else m
        | none => m
      else m) m

/-- Does a slot's own containment explain a port-gone completion (R84)? -/
def Mod.ownContainment (m : Mod) (e : Entry) (c : CplStatus) : Bool :=
  c == CplStatus.portGone && (match m.base.slotPort e.shelf with
    | some p => m.base.contained p
    | none => false)

/-- An entry in SWEEP returns to its prior state (R84): its reads are given up and its frames taken back; delivery starts
again from its first byte at the next sweep. -/
def Mod.returnPrior (m : Mod) (e : Entry) : Mod :=
  let m := (m.recall e).dropReads e
  m.setEntry { e with state := e.prior, sent := 0, buf := [], pieces := [], flushing := false,
                      asked := if e.read || e.evicted then 0 else e.asked, refetch := false }

/-- Every entry of a slot in SWEEP returns to its prior state. -/
def Mod.returnSweep (m : Mod) (n : Nat) : Mod :=
  ((m.prk.live n).filter (fun e => e.state == 6)).foldl Mod.returnPrior m

/-- A sweep entry's flush read completes (R84, R86). -/
def Mod.sweepFlushDone (m : Mod) (i : Nat) (c : CplStatus) : Mod :=
  let m := m.endTag (.sweepFlush i) c
  match m.prk.entry i with
  | none => m
  | some e =>
    if (e.state ≠ 6 && e.far.isNone) || !e.flushing then m
    else if c == CplStatus.ok && e.far.isSome then m.finish e (e.far.getD 0x03)
    else if c == CplStatus.ok then
      let b := m.base.occ 0x101 (engineOf e.shelf) (some e.slice) (entryGrans e.length)
      ({ m with base := b } : Mod).finish e (if e.evicted then 0x04 else 0x03)
    else if m.ownContainment e c then m.returnPrior e
    else m.finish e (cplToStatus c)

/-- A read of the shelf for a park read, or a refetch from the host, completes (R86, R87). -/
def Mod.sweepData (m : Mod) (i off : Nat) (c : Cpl) (o : TagOwner) : Mod :=
  match m.gather o c with
  | (m, none) => m
  | (m, some (len, c)) =>
    let m := m.endTag o c.status
    match m.prk.entry i with
    | none => m
    | some e =>
      if e.state ≠ 6 then m
      else if c.status == CplStatus.ok && decide (len ≤ c.data.length) then m.streamIn e off (c.data.take len)
      else if m.ownContainment e c.status then m.returnPrior e
      else m.finish e (if c.status == CplStatus.ok then 0x21 else cplToStatus c.status)

/-! ### Containment of a shelf port (R217) -/

/-- The event of port p (groups 8 and 9), in its partition's scope. -/
def Base.portEv (b : Base) (p cause sev : Nat) : Ev :=
  { group := 8 + p / 32, bit := p % 32, cause := cause, sev := sev,
    scope := if b.portRole p == 1 || b.portRole p == 2 then .part (b.portPart p) else .module }

/-- A port function's MSI message (R201), sent while its MSI Enable and its Bus Master Enable are set. -/
def Base.portMsi (b : Base) (fn part : Nat) : Base :=
  if bitOf (b.cfg fn 0x50) 16 && bitOf (b.cfg fn 0x04) 2 then
    b.emit (.msi part (b.cfg fn 0x54 + 2 ^ 32 * b.cfg fn 0x58) (b.cfg fn 0x5C % 65536))
  else b

/-- Has the host enabled a DPC trigger on a port (R217)? -/
def Base.dpcOn (b : Base) (p : Nat) : Bool := b.cfg (24 + p) 0x2A4 / 2 ^ 16 % 4 != 0

/-- DPC Status takes a trigger with its reason (R217); the interrupt with its status bit and its MSI, and the ERR_COR message, follow as
the host has enabled them. -/
def Base.dpcStatus (b : Base) (p reason ext : Nat) : Base :=
  let fn := 24 + p
  let c := b.cfg fn 0x2A4
  let w := b.cfg fn 0x2A8
  let irq := bitOf c 19
  let b := b.setCfg fn 0x2A8 (w / 2 ^ 7 * 2 ^ 7 + 1 + 2 * reason + 2 ^ 3 * b2n (irq || bitOf w 3) + 2 ^ 5 * ext)
  let b := if irq then b.portMsi fn (b.portPart p) else b
  if bitOf c 20 then b.aerCor fn else b

/-- A software trigger shows in the DPC capability when the host has enabled it (R217): reason software. -/
def Base.dpcSoftware (b : Base) (p : Nat) : Base := if b.dpcOn p then b.dpcStatus p 3 1 else b

/-- Does a read of the module's own wait for its completion at its port: its request has left the core, and its last completion has not come? -/
def Mod.readSent (m : Mod) (t : TagUse) : Bool :=
  !t.seen && !(m.sw.frames ++ m.sw.waiting).any (fun f => f.dstSub == t.port && f.vc == 1 && decide (64 ≤ f.src) && f.tlp.tag == t.tag)

/-- Containment starts (R217): every request the port has forwarded is completed as R218 states, those still queued being disposed of
as they come to it, the sweep's entries return, hod jobs that write to the port end; a port already contained keeps its records. -/
def Mod.containPort (m : Mod) (p cause : Nat) : Mod :=
  if m.base.contained p then m
  else
    let a := Reg.PRT_STATUS p
    let m := { m with base := { m.base with released := m.base.released.filter (fun q => q != p) } }
    let b := ((m.base.wr a F.PRT_STATUS_contained 1).wr a F.PRT_STATUS_cont_cause cause).bump (Reg.PRT_CNT p 4)
    let b := b.raise (b.portEv p 0 1)
    let b := if cause = 0 then b else b.dpcSoftware p
    let out := m.sw.forwarded.filter (fun x => x.1 == p)
    let b := out.foldl (fun b x =>
      let b := b.bump (Reg.PRT_CNT p 3)
      if x.2.far.isSome then b else b.emit (.synthCpl p x.2 true)) b
    let away := out.filterMap (fun x => x.2.far.map (fun y => farAnswer y.1 y.2 p x.2 true))
    let own := (m.tags.filter (fun t => t.port == p && m.readSent t)).filterMap (fun t => t.owner)
    let b := own.foldl (fun b _ => b.bump (Reg.PRT_CNT p 3)) b
    let m := { m with base := b, ended := m.ended ++ own.map (fun o => (o, ({ status := .portGone, data := [] } : Cpl))), dirty := m.dirty ++ [p],
                      bondOut := m.bondOut ++ away, sw := { m.sw with forwarded := m.sw.forwarded.filter (fun x => x.1 != p) } }
    let m := (m.dropCopies p true).hodPortGone p
    if m.base.portRole p == 2 then m.returnSweep (m.base.rd (Reg.PRT_CFG p) F.PRT_CFG_slot) else m

/-- Does the port's slot wait for orphans to be handed back (R292)? -/
def Mod.awaitsBack (m : Mod) (p : Nat) : Bool := m.bnd.awaitBack.any (fun x => m.base.slotPort x.1 == some p)

/-- Containment ends (R219): an advisory event; the sweep goes on when the slot is still AWAKE. A port whose slot waits for a hand-back stays
contained (R292). -/
def Mod.releasePort (m : Mod) (p : Nat) : Mod :=
  if !m.base.contained p || m.awaitsBack p then m
  else
    let b := m.base.wr (Reg.PRT_STATUS p) F.PRT_STATUS_contained 0
    let b := { b with released := b.released.filter (fun q => q != p) ++ [p] }
    { m with base := b.raise (b.portEv p 1 0), dirty := m.dirty ++ [p] }

/-! ### Quiesce, reset and integrity (R85, R99-R101) -/

/-- The manager's slice 0 takes an entry over (R100, R101): reported one by one, as its original slice, pair and cid. -/
def Mod.reown (m : Mod) (e : Entry) : Mod :=
  m.setEntry { e with slice := 0, gen := m.base.sliceGen 0, desc := none, kept := some (e.kept.getD (e.slice, e.qp)),
                      sent := if e.state = 7 then e.sent else 0 }

/-- A descriptor whose entries slice 0 has taken over is gone: nothing more is posted for it. -/
def Mod.forgetDesc (m : Mod) (id : Nat) : Mod :=
  match m.qe.desc id with
  | none => m
  | some x => ({ m with qe := { m.qe with descs := m.qe.descs.filter (fun y => y.id != id) } } : Mod).unreserve x.gqp x.slots

/-- A slice's entries are handled at rest (R101): those in SWEEP stop first, or run on for their 2 ms and the other entries of their
descriptor wait for them; release-mode entries whose descriptor has posted PARKED_DOUBLE are re-owned by slice 0, all others end with
ABORTED. -/
def Mod.quiesceEntries (m : Mod) (s : Nat) (stopSweep : Bool) : Mod :=
  let busy := if stopSweep then [] else (m.prk.entries.filter (fun e => e.slice == s && e.kept.isNone && e.state == 6)).map Entry.desc
  let mine := m.prk.entries.filter (fun e => e.slice == s && e.kept.isNone && e.state != 7 && !busy.contains e.desc)
  let m := mine.foldl (fun m e =>
    if e.state = 6 then
      let sent := m.sentBytes e
      let m := m.returnPrior e
      match m.prk.entry e.idx with
      | some e' => m.setEntry { e' with sent := sent }
      | none => m
    else m) m
  let doubled := (m.qe.descs.filter (fun d => d.decided == some 0x02)).map Desc.id
  let kept := mine.filter (fun e => e.release && e.desc.any (fun d => doubled.contains d))
  let ids := (kept.filterMap Entry.desc).eraseDups
  let m := (m.prk.entries.filter (fun e => e.desc.any (fun d => ids.contains d))).foldl Mod.reown m
  let m := ids.foldl Mod.forgetDesc m
  mine.foldl (fun m e =>
    match m.prk.entry e.idx with
    | none => m
    | some e =>
      if e.kept.isSome then m.finalStage e
      else if e.state = 7 then m
      else (m.doneOne e 0x25).finalStage e) m

/-- Admissions of a slice that wait end with ABORTED. -/
def Mod.abortWaits (m : Mod) (s : Nat) : Mod :=
  m.prk.waits.foldl (fun m w =>
    match m.qe.desc w.desc with
    | some d => if d.slice == s then ((m.endWait w).complete d.id 0x25).fences else m
    | none => m.endWait w) m

/-- The entry that holds a park address in its granules. -/
def Park.holder (x : Park) (addr : Nat) : Option Entry :=
  x.entries.find? (fun e => e.grans.any (fun g => decide (4096 * g.1 ≤ addr) && decide (addr < 4096 * (g.1 + g.2))))

/-- The park read whose staged bytes, in and not yet sent on, a park address holds (R85). -/
def Mod.stageHolder (m : Mod) (addr : Nat) : Option Entry :=
  m.prk.entries.find? (fun e =>
    let lo := m.base.stageBase (engineOf e.shelf)
    e.state == 6 && e.read && decide (lo ≤ addr) && decide (addr < lo + 4194304) &&
    ((e.sent, e.buf.length) :: e.pieces.map (fun x => (x.1, x.2.length))).any (fun x =>
      decide ((addr - lo + 4194304 - x.1 % 4194304) % 4194304 < x.2)))

/-- An entry in INGEST starts its ingest again from its first byte (R85, R308); one that another member sends asks it for its bytes again
(log entry 12). -/
def Mod.restartIngest (m : Mod) (e : Entry) : Mod :=
  match e.source with
  | some (path, i) => (m.setEntry { e with stored := 0 }).parkMsg path 6 i
  | none => (m.dropReads e).setEntry { e with asked := 0, stored := 0, got := [] }

/-- An uncorrectable error in an entry's granule, by its state and copies (R85); a park read's bytes that are not yet
delivered are read again from the shelf. -/
def Mod.granuleError (m : Mod) (e : Entry) : Mod :=
  let st := if e.state = 6 then e.prior else e.state
  if e.read then (m.dropReads e).setEntry { e with asked := e.sent, buf := [], pieces := [] }
  else if st = 1 then m.restartIngest e
  else if st = 3 then
    { m with base := (m.base.bump (Reg.PRK_CNT 14)).raise { group := 5, bit := 3, detail := e.idx } }
  else if st = 2 then
    if e.release then m.finish e 0x23
    else
      let sweep := e.state = 6
      let m := if sweep then m.returnPrior e else m
      m.evictEntry { e with state := st, sent := 0, buf := [], pieces := [], flushing := false } false
  else m

/-- What a kept warm reset leaves of the entries (R100): INGEST freed, SWEEP back to its prior state, EVICTED retain-mode
entries done with ABORTED, the rest kept for slice 0. An entry that was DONE and waited for its descriptor's stage is reported now. -/
def Mod.keepEntries (m : Mod) : Mod :=
  let es := m.prk.entries.filter (fun e => e.state != 1)
  let keep := es.map (fun e =>
    { e with state := if e.state = 6 then e.prior else e.state, sent := if e.state = 7 then e.sent else 0, buf := [], pieces := [],
             flushing := false, refetch := false, asked := if e.read || e.evicted then 0 else e.asked, desc := none,
             awaitPeer := false, far := none, remote := none, keptFor := some (e.keptFor.getD (e.remote.getD (4096, e.idx))), kept := some (e.kept.getD (e.slice, e.qp)), slice := 0, gen := m.base.sliceGen 0 })
  let m := { m with prk := { m.prk with entries := keep, waits := [] } }
  keep.foldl (fun m e =>
    match m.prk.entry e.idx with
    | none => m
    | some e => if e.state = 4 && !e.release then m.finish e 0x25 else if e.state = 7 then m.finalStage e else m) m

/-! ### Guest copies of a partner (R97, R98) -/

/-- A guest copy arrives (R97): it takes its granules, or is refused when the guest limit or the pool has no room without
push-out. -/
def Mod.guestArrive (m : Mod) (owner idx : Nat) (raw : List Byte) : Mod :=
  let w0 := fieldAt raw 0 4
  let len := fieldAt raw 0x14 4 % 2 ^ 25
  let need := entryGrans len
  let held := m.prk.guests.foldl (fun n g => n + runSize g.grans) 0
  let limit := m.base.rd Reg.PRK_GUEST F.PRK_GUEST_limit_gib * 262144
  if limit < held + need || m.freeGranules < need then m.parkMsg owner 1 idx
  else
    let g : Guest := { owner := owner, idx := idx, cls := w0 / 16 % 4, release := bitOf w0 6, shelf := w0 / 1024 % 64,
                       seq := fieldAt raw 0x24 4, grans := m.allocate need, length := len, raw := raw }
    { m with base := m.base.bump (Reg.PRK_CNT 12), prk := { m.prk with guests := m.prk.guests ++ [g] } }

/-- A guest copy's granules: slice 0's, in the world that its frames carry (R138). -/
def Guest.store (g : Guest) (world : Bool) : ParkStore := { n := g.shelf, slice := 0, secure := world, grans := g.grans }

/-- Bytes of a guest copy arrive (R97), under the guard of the engine that stores them; those of a copy that was refused are gone. A copy
that the guard denies is refused. -/
def Mod.guestData (m : Mod) (owner idx off : Nat) (world : Bool) (data : List Byte) : Mod :=
  match m.prk.guests.find? (fun g => g.owner == owner && g.idx == idx && !g.orphan) with
  | none => m
  | some g =>
    let data := data.take (g.length - off)
    match m.putAt (g.store world) off data with
    | (m, some _) => ({ m with prk := { m.prk with guests := m.prk.guests.filter (fun x => x != g) } } : Mod).parkMsg owner 1 idx
    | (m, none) =>
      { m with prk := { m.prk with guests := m.prk.guests.map (fun x =>
          if x == g then { g with stored := g.stored + data.length } else x) } }

/-- An entry of another member for a shelf of this one arrives (R32), or an orphan is handed back (R292): it is parked here
under slice 0 with no quota charge, its data to follow. The checks of R81 on the slot are made here: TARGET_GONE for one that is FAILED,
absent or not served; one with no room, or for a slot that waits for a hand-back (R292), is refused. The entries of one descriptor keep its slice, pair and cid with the member's path, by
which they stay together (R77). -/
def Mod.remoteArrive (m : Mod) (path idx : Nat) (raw : List Byte) (back : Bool) : Mod :=
  let w0 := fieldAt raw 0 4
  let len := fieldAt raw 0x14 4 % 2 ^ 25
  let rd := !back && bitOf w0 7
  let n := w0 / 1024 % 64
  let need := if rd then 0 else entryGrans len
  let m := if m.freeGranules < need then m.pushOut (w0 / 16 % 4) (need - m.freeGranules) else m
  let bad := !m.base.slotServed n || m.base.slotState n == 9
  let held := !back && m.bnd.awaitBack.any (fun x => x.1 == n)
  let from_ := (fieldAt raw 4 4 % 1024 + (if back then 0 else 1024 * (path + 1)), fieldAt raw 0x2C 4 % 4096)
  if bad || held || m.freeGranules < need then
    if back then
      { m with base := m.base.raise { group := 5, bit := 6, detail := from_.1 + 2 ^ 10 * from_.2 + 2 ^ 22 * (if bad then 0x21 else 0x27),
                                      detail2 := fieldAt raw 0x30 2 + 2 ^ 16 * (fieldAt raw 0x32 2 % 4096) } }
    else if bad then
      m.toBond { dstPath := path, stype := .msg, origin := 64 + engineOf n,
                 data := leBytes 4 (7 + 2 ^ 8 * 4) ++ leBytes 4 idx ++ leBytes 4 0x21 ++ leBytes 4 0 ++ leBytes 4 0 }
    else m.parkMsg path 1 idx
  else
    let slot := m.prk.slot n
    let i := (m.freeEntries 1).headD 0
    let e : Entry := {
      idx := i, state := if rd then 5 else 1, cls := w0 / 16 % 4, release := back || bitOf w0 6, read := rd, shelf := n, slice := 0,
      gen := m.base.sliceGen 0, hostAddr := fieldAt raw 0x8 8, pasid := fieldAt raw 0x10 4 % 2 ^ 20, length := len,
      shelfAddr := fieldAt raw 0x18 8, grans := m.allocate need, seq := slot.nextSeq, parkTime := m.base.todSec % 2 ^ 32,
      bornNs := m.base.now, qp := fieldAt raw 0x2C 4 % 4096, cid := fieldAt raw 0x30 2, entryNo := fieldAt raw 0x32 2 % 4096,
      entryLast := fieldAt raw 0x34 4 % 4096, desc := none, asked := if rd then 0 else len,
      kept := some from_, part := m.base.slicePart 0,
      remote := if back then none else some (path, idx), source := if rd then none else some (path, idx) }
    let slot := { slot with nextSeq := (slot.nextSeq + 1) % 2 ^ 32, sweeping := slot.sweeping || m.base.slotState n == 6 }
    let m := { m with base := (m.base.bump (Reg.PRK_CNT 0)).armIfIdle (.batch n)
                        (m.base.rd (Reg.PRK_CLASS_CFG e.cls) F.PRK_CLASS_CFG_batch_s * sec),
                      prk := { (m.prk.setSlot slot) with entries := m.prk.entries ++ [e], planDue := true } }
    m.armExpiry e

/-- Bytes of such an entry arrive in order, and are stored under the engine's guard; with the last of them it is stored (R84). The bytes of
one that was evicted go through staging to its sweep (R87). -/
def Mod.remoteStore (m : Mod) (path idx off : Nat) (data : List Byte) : Mod :=
  match m.prk.entries.find? (fun e => e.source == some (path, idx)) with
  | some e =>
    if off ≠ e.stored then m
    else
      let data := data.take (e.length - off)
      match m.putAt (m.base.entryStore e) off data with
      | (m, some w) => m.finish { e with detail := w, source := none } 0x20
      | (m, none) =>
        let n := e.stored + data.length
        if n < e.length then m.moreStored { e with stored := n } else m.moreStored { e with stored := n, state := 2, source := none }
  | none =>
    match m.prk.entries.find? (fun e => e.remote == some (path, idx) && e.state == 6 && e.refetch) with
    | none => m
    | some e => if off = e.sent + e.buf.length then m.streamIn e off (data.take (e.length - off)) else m

/-- Bytes of a park read arrive from the owner of the shelf (R32): staged, and written to the host under the engine's guard in writes of the
host port (R86); an offset of 0 begins the delivery again. -/
def Mod.remoteData (m : Mod) (i off : Nat) (data : List Byte) : Mod :=
  match m.prk.entry i with
  | none => m
  | some e =>
    if e.remoteTo.isNone || e.state = 7 || e.far.isSome then m
    else
      let e := if off = 0 then { e with sent := 0, buf := [], pieces := [] } else e
      if off = e.sent + e.buf.length then m.streamIn e off (data.take (e.length - off)) else m

/-- The owner of the shelf reports how an entry ended (R32): a park read's DELIVERED is posted once the host has all the data, which a
zero-length read of it shows (R28, R131); anything else ends the entry at once. -/
def Mod.remoteOutcome (m : Mod) (i status bytes detail : Nat) : Mod :=
  match m.prk.entry i with
  | none => m
  | some e =>
    if e.remoteTo.isNone || e.state = 7 then m
    else if e.read && status < 0x20 then
      let e := { e with far := some status }
      (m.setEntry e).remoteFlush e
    else (m.setEntry { e with sent := bytes, detail := detail }).finishIdx i status

/-- The member that submitted an entry has ended it (R32): the entry and its data are dropped, with no outcome. -/
def Mod.remoteFree (m : Mod) (path idx : Nat) : Mod :=
  match m.prk.entries.find? (fun e => e.remote == some (path, idx) && e.state != 7) with
  | none => m
  | some e =>
    let m := m.doneOne e 0x25
    { m with prk := { m.prk with entries := m.prk.entries.filter (fun y => y.idx != e.idx) } }

/-- A guest copy is freed at its owner's word (R98). -/
def Mod.guestFree (m : Mod) (owner idx : Nat) : Mod :=
  { m with prk := { m.prk with guests := m.prk.guests.filter (fun g => !(g.owner == owner && g.idx == idx)) } }

end Sys2Proof.Machine
end

