-- ==== Sys2Proof/Machine/Shelf.lean ====
section
/-! DEFINITION. The wake plan, the power ledger and the shelf sideband (R89-R96): eligibility and rank, the plan step, a
wake and a stop, wake failures and surprise removal. -/

namespace Sys2Proof.Machine

/-! ### The ledger (R89, R90) -/

/-- The power a wake of slot n needs (R89). -/
def Base.need (b : Base) (n : Nat) : Nat :=
  max (b.rd (Reg.PRK_SHELF_PWR n) F.PRK_SHELF_PWR_spin_w) (b.rd (Reg.PRK_SHELF_PWR n) F.PRK_SHELF_PWR_run_w)

/-- The run power of slot n. -/
def Base.runW (b : Base) (n : Nat) : Nat := b.rd (Reg.PRK_SHELF_PWR n) F.PRK_SHELF_PWR_run_w

/-- The shelf power budget. -/
def Base.budget (b : Base) : Nat := b.rd Reg.PRK_LEDGER_BUDGET F.PRK_LEDGER_BUDGET_watts

/-- The sum of all charges (R89). -/
def Mod.ledgerUse (m : Mod) : Nat := m.prk.slots.foldl (fun n s => n + s.charge) 0

/-- The part of it that slots in STOPPING hold (R89). -/
def Mod.releasing (m : Mod) : Nat :=
  m.prk.slots.foldl (fun n s => if m.base.slotState s.n == 7 then n + s.charge else n) 0

/-! ### Eligibility and rank (R91) -/

/-- When the oldest live entry of a slot was admitted. -/
def Park.oldestNs (x : Park) (n : Nat) : Nat := (x.live n).foldl (fun t e => min t e.bornNs) (2 ^ 63)

/-- Does the slot meet the eligibility conditions of R91? -/
def Mod.eligible (m : Mod) (n : Nat) : Bool :=
  m.base.slotServed n &&
  (m.base.isSet (Reg.PRK_SHELF_CTL n) F.PRK_SHELF_CTL_pin ||
    match m.prk.topClass n with
    | none => false
    | some c =>
      (m.prk.slot n).wakeNow || m.batchFull n c ||
      decide (m.prk.oldestNs n + m.base.rd (Reg.PRK_CLASS_CFG c) F.PRK_CLASS_CFG_batch_s * sec ≤ m.base.now))

/-- The rank of a slot (R91). -/
def Mod.rank (m : Mod) (n : Nat) : Nat :=
  if m.base.isSet (Reg.PRK_SHELF_CTL n) F.PRK_SHELF_CTL_pin then 0
  else
    match m.prk.topClass n with
    | none => 2
    | some c =>
      let pr := m.base.rd (Reg.PRK_CLASS_CFG c) F.PRK_CLASS_CFG_promote_s
      if pr != 0 && decide ((m.prk.slot n).since + pr * sec ≤ m.base.now) then 0 else c

/-! ### The plan (R91) -/

/-- A slot becomes WAITING: it keeps `since`, and its promotion is timed. -/
def Mod.toWaiting (m : Mod) (n since : Nat) : Mod :=
  let pr := match m.prk.topClass n with
    | some c => m.base.rd (Reg.PRK_CLASS_CFG c) F.PRK_CLASS_CFG_promote_s
    | none => 0
  let b := (m.base.setSlotState n 1).disarm (.batch n)
  let b := if pr = 0 then b else b.arm (.promote n) (since + pr * sec - b.now)
  { m with base := b, prk := m.prk.setSlot { (m.prk.slot n) with since := since, keepSince := none } }

/-- Slots move between ASLEEP and WAITING (R91). -/
def Mod.planMoves (m : Mod) : Mod :=
  (List.range 56).foldl (fun m n =>
    match m.base.slotState n with
    | 0 => if m.eligible n then m.toWaiting n m.base.now else m
    | 1 => if m.eligible n then m else { m with base := (m.base.setSlotState n 0).disarm (.promote n) }
    | _ => m) m

/-- Insert a slot by rank, then since, then number (R91). -/
def Mod.insertCand (m : Mod) (n : Nat) : List Nat → List Nat
  | [] => [n]
  | k :: ks =>
    let a := (m.rank n, (m.prk.slot n).since, n)
    let c := (m.rank k, (m.prk.slot k).since, k)
    if a.1 < c.1 || (a.1 = c.1 && (a.2.1 < c.2.1 || (a.2.1 = c.2.1 && a.2.2 < c.2.2))) then n :: k :: ks
    else k :: m.insertCand n ks

/-- The slots in WAITING in plan order. -/
def Mod.planOrder (m : Mod) : List Nat :=
  ((List.range 56).filter (fun n => m.base.slotState n == 1)).foldl (fun acc n => m.insertCand n acc) []

/-- The candidates of the plan: slots whose need fits the budget at all. -/
def Mod.candidates (m : Mod) : List Nat := m.planOrder.filter (fun n => decide (m.base.need n ≤ m.base.budget))

/-- A slot whose need exceeds the whole budget raises its contained event, once until that changes (R91). -/
def Mod.needEvents (m : Mod) : Mod :=
  m.planOrder.foldl (fun m n =>
    let s := m.prk.slot n
    let bad := decide (m.base.budget < m.base.need n)
    if bad && !s.needBad then
      { m with base := m.base.raise { group := 5, bit := 5, sev := 1, detail := n }, prk := m.prk.setSlot { s with needBad := true } }
    else if !bad && s.needBad then { m with prk := m.prk.setSlot { s with needBad := false } }
    else m) m

/-- The ledger unit asserts SHELF_PWRREQ_n, or refuses when the charge does not fit (R90). Step 1 of R94: POWERING, the
charge taken, the containment of the port ended (R219). -/
def Mod.powerUp (m : Mod) (n : Nat) : Mod :=
  if m.base.budget < m.ledgerUse + m.base.need n then
    { m with base := (m.base.bump (Reg.PRK_CNT 15)).raise { group := 5, bit := 4, detail := n } }
  else
    let m := match m.base.slotPort n with
      | some p => m.releasePort p
      | none => m
    let b := ((m.base.setSlotState n 2).disarm (.promote n)).disarm (.batch n)
    let b := b.arm (.pgTimeout n) (b.rd Reg.PRK_SIDE_TIME F.PRK_SIDE_TIME_pg_timeout_ms * ms)
    let b := (b.bump (Reg.PRK_CNT 5)).occ 0x106 n none 1
    { m with base := b, prk := m.prk.setSlot { (m.prk.slot n) with pwrreq := true, perst := true, charge := m.base.need n,
                                                                   failing := false } }

/-- SHELF_PERST_n# asserts; the slot enters STOPPING; 1 ms later its power request ends (R94 step 6, R36). -/
def Mod.stopShelf (m : Mod) (n : Nat) : Mod :=
  let b := ((m.base.setSlotState n 7).disarm (.idleHold n)).arm (.pwrreqRelease n) ms
  { m with base := b, prk := { (m.prk.setSlot { (m.prk.slot n) with perst := true, sweeping := false }) with planDue := true } }

/-- Insert a slot by its idle time, longest first: the time since its sweep ended or its pin was cleared (DESIGN CHOICE, log entry 44: R91
does not say what makes an idle shelf older, and a restart of the idle hold does not end its being idle). -/
def Park.insertIdle (x : Park) (n : Nat) : List Nat → List Nat
  | [] => [n]
  | k :: ks => if (x.slot n).idleFrom < (x.slot k).idleFrom then n :: k :: ks else k :: x.insertIdle n ks

/-- The shelves that could yield, longest idle first (R91; log entry 44). -/
def Mod.idleShelves (m : Mod) : List Nat :=
  ((List.range 56).filter (fun n =>
    m.base.slotState n == 6 && !(m.prk.slot n).sweeping && !m.base.isSet (Reg.PRK_SHELF_CTL n) F.PRK_SHELF_CTL_pin &&
    (m.prk.live n).isEmpty && !(match m.base.slotPort n with
      | some p => m.jobsTo p
      | none => false))).foldl (fun acc n => m.prk.insertIdle n acc) []

/-- Idle shelves stop from the front until their run power reaches `short` (R91). -/
def Mod.yieldShelves (m : Mod) : Nat → List Nat → Mod
  | _, [] => m
  | short, n :: ns =>
    if short = 0 then m
    else Mod.yieldShelves (({ m with base := m.base.bump (Reg.PRK_CNT 7) } : Mod).stopShelf n) (short - m.base.runW n) ns

/-- Power up the candidates that fit, in order; the first that does not fit waits, or takes the yield of idle shelves, and
no later slot passes it (R91). -/
def Mod.planWake (m : Mod) : List Nat → Mod
  | [] => m
  | n :: ns =>
    if m.ledgerUse + m.base.need n ≤ m.base.budget then Mod.planWake (m.powerUp n) ns
    else
      let short := m.ledgerUse + m.base.need n - m.base.budget - m.releasing
      let idle := m.idleShelves
      if 0 < short && short ≤ idle.foldl (fun k i => k + m.base.runW i) 0 then m.yieldShelves short idle else m

/-- One run of the plan (R91); it wakes nothing in the brown zone (R346), in M2, under a take-down or before READY. -/
def Mod.planStep (m : Mod) : Mod :=
  let m := ({ m with prk := { m.prk with planDue := false } } : Mod).planMoves.needEvents
  if m.base.isSet Reg.PRK_CTRL F.PRK_CTRL_plan_hold || 2 ≤ m.base.rd Reg.PWR_STATUS F.PWR_STATUS_zone || m.pl.m2 != 0 ||
     m.pl.take.isSome || m.base.rd Reg.CLK_STATUS F.CLK_STATUS_stage != 6 then m
  else m.planWake m.candidates

/-- The plan runs when an event of R91 came about, and again for the stops it makes; three runs settle it: a yield frees
nothing before the shelf is off. -/
def Mod.runPlan : Nat → Mod → Mod
  | 0, m => m
  | n + 1, m => if m.prk.planDue then Mod.runPlan n m.planStep else m

/-! ### A wake (R94) -/

/-- A slot's timers end. -/
def Base.quietSlot (b : Base) (n : Nat) : Base :=
  b.disarmAll (fun k => match k with
    | .perstRelease i | .readyDelay i | .readyPoll i | .idleHold i | .pgTimeout i | .linkTimeout i | .readyTimeout i
    | .pwrreqRelease i | .pgOff i | .minOff i => i == n
    | _ => false)

/-- The borrower of a lent shelf is told of its power-good line (R289). -/
def Mod.tellBorrower (m : Mod) (n code : Nat) (body : List Byte) : Mod :=
  match m.base.slotPort n with
  | none => m
  | some p =>
    if m.base.isSet (Reg.BND_PORT_LEND p) F.BND_PORT_LEND_valid then
      m.toBond { dstPath := m.base.rd (Reg.BND_PORT_LEND p) F.BND_PORT_LEND_borrower_path, stype := .msg, origin := p,
                 data := leBytes 4 (code + 2 ^ 8 * p) ++ body }
    else m

/-- Shelf ready (R94 step 5): AWAKE, the charge falls to run_w, and the sweep starts. -/
def Mod.shelfReady (m : Mod) (n : Nat) : Mod :=
  let b := m.base.setSlotState n 6
  let b := b.disarmAll (fun k => match k with
    | .readyDelay i | .readyPoll i | .readyTimeout i => i == n
    | _ => false)
  { m with base := b, prk := m.prk.setSlot { (m.prk.slot n) with charge := m.base.runW n, sweeping := true, wakeNow := false,
                                                                 paused := false } }

/-- Step 8 of R94: the charge is released; FAILED for a slot past its retries, ASLEEP for a removed shelf, else
OFF_HOLD. -/
def Mod.powerOff (m : Mod) (n : Nat) : Mod :=
  let s := m.prk.slot n
  let b := m.base.disarm (.pgOff n)
  let s' := { s with charge := 0, failing := false, removed := false }
  let m := { m with base := b, prk := { (m.prk.setSlot s') with planDue := true } }
  if s.removed then { m with base := m.base.setSlotState n 0 }
  else if s.failing then
    let b := (m.base.setSlotState n 9).raise (slotEv n 1 1)
    let m := { m with base := b, dirty := m.dirty ++ (m.base.slotPort n).toList }
    (m.prk.live n).foldl (fun m e => m.finishIdx e.idx 0x21) m
  else
    let b := (m.base.setSlotState n 8).arm (.minOff n)
      (m.base.rd (Reg.PRK_SHELF_TIME n) F.PRK_SHELF_TIME_min_off_s * sec)
    { m with base := b }

/-- SHELF_PERST_n# asserts at once and the power request ends 1 ms later (R95). -/
def Mod.takeDown (m : Mod) (n : Nat) (s : Slot) : Mod :=
  let b := ((m.base.quietSlot n).setSlotState n 7).arm (.pwrreqRelease n) ms
  { m with base := b, prk := m.prk.setSlot { s with perst := true, sweeping := false, paused := false } }

/-- A wake failure (R95). -/
def Mod.wakeFailure (m : Mod) (n : Nat) : Mod :=
  let m := match m.base.slotPort n with
    | some p => m.containPort p 1
    | none => m
  let m := m.returnSweep n
  let a := Reg.PRK_SHELF_STATE n
  let fails := m.base.rd a F.PRK_SHELF_STATE_fails + 1
  let past := decide (m.base.rd (Reg.PRK_SHELF_PWR n) F.PRK_SHELF_PWR_retries < fails)
  let b := ((m.base.wr a F.PRK_SHELF_STATE_fails (min 15 fails)).bump (Reg.PRK_CNT 6)).raise (slotEv n 0 1)
  let s := m.prk.slot n
  ({ m with base := b } : Mod).takeDown n { s with failing := past, keepSince := if past then none else some s.since }

/-- A shelf is removed by surprise (R96, R215): for one that was being woken or awake a wake failure that is counted and not retried; its live
entries end with TARGET_GONE, the port is contained, and the slot becomes ASLEEP once its power is off. -/
def Mod.surpriseRemoval (m : Mod) (n : Nat) : Mod :=
  let m := match m.base.slotPort n with
    | some p => m.containPort p 2
    | none => m
  let m := (m.prk.live n).foldl (fun m e => m.finishIdx e.idx 0x21) m
  let a := Reg.PRK_SHELF_STATE n
  let st := m.base.slotState n
  let b := if 2 ≤ st && st ≤ 6 then
      (m.base.wr a F.PRK_SHELF_STATE_fails (min 15 (m.base.rd a F.PRK_SHELF_STATE_fails + 1))).bump (Reg.PRK_CNT 6)
    else m.base
  let m := { m with base := b.raise (slotEv n 3 1) }
  let s := m.prk.slot n
  if s.pwrreq || s.pg then m.takeDown n { s with removed := true, failing := false, keepSince := none }
  else
    { m with base := (m.base.quietSlot n).setSlotState n 0,
             prk := { (m.prk.setSlot { s with sweeping := false, keepSince := none, removed := false }) with planDue := true } }

/-! ### Sideband and timer events (R94-R96) -/

/-- SHELF_PG_n asserts (R94 step 2). -/
def Mod.pgAssert (m : Mod) (n : Nat) : Mod :=
  let m := { m with prk := m.prk.setSlot { (m.prk.slot n) with pg := true } }
  let m := m.tellBorrower n 4 (leBytes 4 1)
  if m.base.slotState n = 2 then
    { m with base := ((m.base.setSlotState n 3).disarm (.pgTimeout n)).arm (.perstRelease n) (100 * ms) }
  else m

/-- SHELF_PG_n deasserts (R94 step 8, R95, R96). -/
def Mod.pgDeassert (m : Mod) (n : Nat) : Mod :=
  let m := { m with prk := m.prk.setSlot { (m.prk.slot n) with pg := false } }
  let m := m.tellBorrower n 4 (leBytes 4 0)
  let st := m.base.slotState n
  if 3 ≤ st && st ≤ 6 then m.wakeFailure n
  else if st = 7 then (if (m.prk.slot n).pwrreq then m else m.powerOff n)
  else if (m.prk.slot n).charge ≠ 0 && !(m.prk.slot n).pwrreq then
    -- a slot that kept power after its stop (R89, R96), also once clear_fail has made it ASLEEP
    { m with prk := { (m.prk.setSlot { (m.prk.slot n) with charge := 0 }) with planDue := true } }
  else m

/-- 100 ms after SHELF_PG_n, SHELF_PERST_n# deasserts (R94 step 3). -/
def Mod.perstOff (m : Mod) (n : Nat) : Mod :=
  if m.base.slotState n = 3 && (m.prk.slot n).pg then
    let t := m.base.rd Reg.PRK_SIDE_TIME F.PRK_SIDE_TIME_link_timeout_s * sec
    { m with base := (m.base.setSlotState n 4).arm (.linkTimeout n) t,
             prk := m.prk.setSlot { (m.prk.slot n) with perst := false } }
  else m

/-- The shelf's link reaches L0 (R94 step 4); a sweep that a hot reset interrupted goes on (R216). -/
def Mod.shelfLinkUp (m : Mod) (n : Nat) : Mod :=
  let st := m.base.slotState n
  if st = 4 then
    let a := Reg.PRK_SHELF_TIME n
    let b := ((m.base.setSlotState n 5).disarm (.linkTimeout n)).arm (.readyTimeout n)
      (m.base.rd a F.PRK_SHELF_TIME_ready_timeout_s * sec)
    let b := if b.rd (Reg.PRK_SHELF_READY n) F.PRK_SHELF_READY_mode = 1 then b.arm (.readyPoll n) (100 * ms)
      else b.arm (.readyDelay n) (b.rd (Reg.PRK_SHELF_READY n) F.PRK_SHELF_READY_delay_s * sec)
    { m with base := b }
  else if st = 6 then { m with prk := m.prk.setSlot { (m.prk.slot n) with paused := false } }
  else m

/-- The shelf's link leaves L0 and L1 (R84, R95): a wake failure between steps 4 and 6, but for a hot reset (R216). -/
def Mod.shelfLinkDown (m : Mod) (n : Nat) : Mod :=
  let st := m.base.slotState n
  if (m.prk.slot n).paused then m.returnSweep n
  else if st = 5 || st = 6 then m.wakeFailure n
  else m.returnSweep n

/-- The management cores poll the shelf's ready register (R94): a 4 B read through its port, repeated every 100 ms. -/
def Mod.pollShelf (m : Mod) (n : Nat) : Mod :=
  if m.base.slotState n ≠ 5 then m
  else
    let m := { m with base := m.base.arm (.readyPoll n) (100 * ms) }
    match m.base.slotPort n with
    | none => m
    | some p =>
      let addr := m.base.word64 (Reg.PRK_SHELF_READY_ADDR n)
      match m.freeTag p with
      | none => m
      | some t =>
        if (m.tagOf (.poll n)).isSome then m
        else
          let x : Access := { space := 2, sel := p, addr := addr, len := 4, rd := true, secure := true, ident := 20 }
          let (b, d) := m.base.guard 20 x
          let m := { m with base := b }
          if d.isSome then m
          else
            let tlp : Tlp := tlpSized { kind := .memRead, addr := addr, len := 4, tag := t, rid := m.base.ownId p }
            let f : Frame := { src := 72, srcXp := 40, dstXp := m.base.tileOf p, dstSub := p, vc := 1, bytes := tlpBytes tlp,
                               tlp := tlp, tc := 7, guard := some (20, m.base.epoch 20) }
            (m.takeTag p t 4 (.poll n)).inject f

/-- The poll's read completes (R94): ready when the masked value matches; a failed read counts as not ready. -/
def Mod.pollDone (m : Mod) (n : Nat) (c : Cpl) : Mod :=
  let known := (m.tagOf (.poll n)).isSome
  let m := m.endTag (.poll n) c.status
  let v := BitVec.ofNat 32 (fieldAt c.data 0 4)
  if known && m.base.slotState n = 5 && c.status == CplStatus.ok && decide (4 ≤ c.data.length) &&
     v &&& m.base.word (Reg.PRK_SHELF_READY_MASK n) == m.base.word (Reg.PRK_SHELF_READY_VAL n) then m.shelfReady n
  else m

/-- The power request ends (R94 step 7); a shelf whose power is off already goes on to step 8. -/
def Mod.pwrreqOff (m : Mod) (n : Nat) : Mod :=
  if m.base.slotState n ≠ 7 then m
  else
    let m := { m with prk := m.prk.setSlot { (m.prk.slot n) with pwrreq := false } }
    if (m.prk.slot n).pg then
      { m with base := m.base.arm (.pgOff n) (m.base.rd Reg.PRK_SIDE_TIME F.PRK_SIDE_TIME_pg_off_ms * ms) }
    else m.powerOff n

/-- SHELF_PG_n is still asserted at the step 8 limit (R96): FAILED, the charge kept. -/
def Mod.pgStuck (m : Mod) (n : Nat) : Mod :=
  if m.base.slotState n ≠ 7 || !(m.prk.slot n).pg then m
  else
    let b := (m.base.setSlotState n 9).raise (slotEv n 2 1)
    let m := { m with base := b, dirty := m.dirty ++ (m.base.slotPort n).toList,
                      prk := m.prk.setSlot { (m.prk.slot n) with failing := false } }
    (m.prk.live n).foldl (fun m e => m.finishIdx e.idx 0x21) m

/-- min_off_s has passed (R94 step 9, R95): ASLEEP, or WAITING again at once if eligible, a failed wake keeping its former
since. -/
def Mod.minOffDone (m : Mod) (n : Nat) : Mod :=
  if m.base.slotState n ≠ 8 then m
  else
    let keep := (m.prk.slot n).keepSince
    let m := { m with base := m.base.setSlotState n 0, prk := { m.prk with planDue := true } }
    match keep with
    | some t => if m.eligible n then m.toWaiting n t else { m with prk := m.prk.setSlot { (m.prk.slot n) with keepSince := none } }
    | none => m

/-- The idle hold runs out (R92): the shelf stops unless an entry is live, a hod job is in flight, or it is pinned. -/
def Mod.idleDone (m : Mod) (n : Nat) : Mod :=
  let job := match m.base.slotPort n with
    | some p => m.jobsTo p
    | none => false
  if m.base.slotState n ≠ 6 || !(m.prk.live n).isEmpty || job || m.base.isSet (Reg.PRK_SHELF_CTL n) F.PRK_SHELF_CTL_pin then m
  else m.stopShelf n

/-- A write of PRK_SHELF_CTL (R91, R95): pin, wake_now and clear_fail. -/
def Mod.shelfCtl (m : Mod) (n v : Nat) : Mod :=
  let a := Reg.PRK_SHELF_CTL n
  let was := m.base.isSet a F.PRK_SHELF_CTL_pin
  let b := m.base.wr a F.PRK_SHELF_CTL_pin (v % 2)
  let hold := b.rd (Reg.PRK_SHELF_TIME n) F.PRK_SHELF_TIME_idle_hold_s * sec
  let b := if bitOf v 0 then b.disarm (.idleHold n)
    else if was && b.slotState n == 6 && !(m.prk.slot n).sweeping then b.arm (.idleHold n) hold else b
  let s := m.prk.slot n
  let s := if was && !bitOf v 0 then { s with idleFrom := b.now } else s
  let s := if bitOf v 1 && !(m.prk.live n).isEmpty then { s with wakeNow := true } else s
  let b := if bitOf v 2 && b.slotState n == 9 && !m.pl.parkHeld.contains (n % 4) then (b.setSlotState n 0).wr (Reg.PRK_SHELF_STATE n) F.PRK_SHELF_STATE_fails 0
    else b
  let dirty := if bitOf v 2 then m.dirty ++ (m.base.slotPort n).toList else m.dirty
  { m with base := b, dirty := dirty, prk := { (m.prk.setSlot s) with planDue := true } }

/-- A frame crosses a shelf port, in either direction: its idle hold starts over (R92). -/
def Mod.portFrame (m : Mod) (p : Nat) : Mod :=
  { m with base := m.base.restartIdleHold (some p) }

end Sys2Proof.Machine
end

