-- ==== Sys2Proof/Machine/Guard.lean ====
section
/-! DEFINITION. Guard rules and commits (R144-R149, R152) and the routing of descriptors (R25): MOVE, PARK_WRITE,
PARK_READ, FENCE, NOP and GUARD_COMMIT. -/

namespace Sys2Proof.Machine

/-! ### Commits (R148) -/

/-- The words of a rule. -/
def ruleWords (g r : Nat) : List Nat :=
  [Reg.GRD_RULE_BASE g r, Reg.GRD_RULE_BASE g r + 4, Reg.GRD_RULE_LIMIT g r, Reg.GRD_RULE_LIMIT g r + 4,
   Reg.GRD_RULE_ATTR g r, Reg.GRD_RULE_MATCH g r, Reg.GRD_RULE_MATCH g r + 4]

/-- Is the active rule locked (R145)? -/
def Base.ruleLocked (b : Base) (g r : Nat) : Bool := bitOf (b.ruleAttr g r) 31

/-- Does any staged word of the guard differ from its active word (R147)? The bad bit of a rule is no staged field. -/
def Base.stale (b : Base) (g : Nat) : Bool :=
  (List.range 64).any (fun r => (ruleWords g r).any (fun a =>
    b.act.get0 a != (if a = Reg.GRD_RULE_ATTR g r then b.word a &&& ~~~(BitVec.ofNat 32 (2 ^ 17)) else b.word a)))

/-- The staged set becomes the active set, except locked rules (R148 step 2). -/
def Base.activate (b : Base) (g : Nat) (force : Bool) : Base :=
  (List.range 64).foldl (fun b r =>
    if b.ruleLocked g r && !force then b
    else (ruleWords g r).foldl (fun b a =>
      let w := if a = Reg.GRD_RULE_ATTR g r then b.word a &&& ~~~(BitVec.ofNat 32 (2 ^ 17)) else b.word a
      if b.act.get0 a = w then b else { b with act := b.act.set a w }) b) b

/-- The active set is checked for bad rules (R144). -/
def Base.checkBad (b : Base) (g : Nat) : Base :=
  let bad := (List.range 64).any (fun r => b.ruleBad g r)
  let b := b.flag (Reg.GRD_STATUS g) F.GRD_STATUS_bad_rule bad
  if bad then b.raise (guardEv g 2 0 0) else b

/-- One masked guard switches (R148 step 2): its set, its epoch, the parity flag cleared (R152). -/
def Base.switchGuard (b : Base) (g : Nat) : Base :=
  let a := Reg.GRD_STATUS g
  let b := (b.activate g false).checkBad g
  let b := (b.wr a F.GRD_STATUS_epoch (b.rd a F.GRD_STATUS_epoch + 1)).wr a F.GRD_STATUS_parity 0
  (b.bump (Reg.GRD_CNT g 6)).disarm (.guardRecommit g)

/-- The guards of a mask. -/
def maskGuards (mask : Nat) : List Nat := (List.range 41).filter (fun g => bitOf mask g)

/-- The paths of masked host-ingress guards close and drain their lines, and lose their reservations with cause 4
(R148 step 3, R137). -/
def Mod.closePaths (m : Mod) (mask : Nat) : Mod :=
  ((List.range 8).filter (fun p => bitOf mask (24 + p))).foldl (fun m p =>
    (m.drainPath p).loseRsv (fun r => m.base.slicePart r.slice == p) 4) m

/-- A commit starts (R148 steps 1 to 3). -/
def Mod.startCommit (m : Mod) (mask : Nat) (desc : Option (Nat × Nat)) : Mod :=
  let b := (m.base.wr Reg.GRD_COMMIT F.GRD_COMMIT_done 0).arm .guardCommit (2 * us)
  let b := (maskGuards mask).foldl Base.switchGuard { b with commit := some { mask := mask, desc := desc } }
  ({ m with base := b } : Mod).closePaths mask

/-- A write of 1 to GRD_COMMIT.go (R148, R149): refused while a commit runs. -/
def Mod.commitGo (m : Mod) : Mod :=
  let mask := m.base.word64 Reg.GRD_COMMIT_MASK % 2 ^ 41
  if m.base.isSet Reg.GRD_COMMIT F.GRD_COMMIT_done then m.startCommit mask none
  else
    let b := m.base.wr Reg.GRD_COMMIT F.GRD_COMMIT_refused 1
    { m with base := (maskGuards mask).foldl (fun b g => b.raise (guardEv g 4 0 0)) b }

/-- Is an access that a masked guard let go under an older epoch still in flight (R149): a frame that has not been admitted? Every other
access is performed, or has its answer, in the command of its check. -/
def Mod.oldEpoch (m : Mod) (mask : Nat) : Bool :=
  m.sw.waiting.any (fun f => match f.guard with
    | some (g, e) => bitOf mask g && e != m.base.epoch g
    | none => false)

/-- A commit ends (R148 step 4): with no access of an old epoch in flight done reads 1, its descriptor completes, and a waiting
GUARD_COMMIT starts (R149). -/
def Mod.commitDone (m : Mod) : Mod :=
  match m.base.commit with
  | none => m
  | some c =>
    if m.oldEpoch c.mask then { m with base := m.base.armIfIdle .guardCommit 0 }
    else
    let b := (m.base.wr Reg.GRD_COMMIT F.GRD_COMMIT_done 1).disarm .guardCommit
    let m := { m with base := { b with commit := none } }
    let m := match c.desc with
      | some (_, id) => (m.complete id 0x00).fences
      | none => m
    match m.base.commitWait with
    | [] => m
    | (g, id, mask) :: rest =>
      ({ m with base := { m.base with commitWait := rest } } : Mod).startCommit mask (some (g, id))

/-- A parity error in an active rule (R152): the guard denies everything; the management cores commit its staged set within
1 ms (R308). -/
def Base.guardParity (b : Base) (g : Nat) : Base :=
  ((b.wr (Reg.GRD_STATUS g) F.GRD_STATUS_parity 1).raise (guardEv g 3 1 0)).arm (.guardRecommit g) ms

/-- The repairs of R308 that are due: each commits its guard's staged set, with what a commit does to a host-ingress path (R148). -/
def Mod.dueRecommits (m : Mod) : Mod :=
  (m.base.timers.filter (fun t => decide (t.due ≤ m.base.now))).foldl (fun m t =>
    match t.key with
    | .guardRecommit g => ({ m with base := m.base.switchGuard g } : Mod).closePaths (2 ^ g)
    | _ => m) m

/-- A staged write to a rule word (R145, R147): ignored, counted and raised when the rule is locked. -/
def Base.stageRule (b : Base) (g r : Nat) (words : List (Nat × W32)) : Base :=
  if b.ruleLocked g r then (b.bump (Reg.GRD_CNT g 5)).raise (guardEv g 1 0 0)
  else words.foldl (fun b w => b.setWord w.1 w.2) b

/-! ### Routing of descriptors (R25) -/

/-- The host-space ranges of a descriptor: address, bytes and whether it is written; the lists of a MOVE are checked by
its hod (DEDUCED, log entry 11). -/
def Desc.hostRanges (d : Desc) : List (Nat × Nat × Bool) :=
  match d.opcode with
  | 0x01 =>
    let sp := d.field 0x28 ⟨0, 32⟩
    let one := fun (space sg : Fld) (off : Nat) (wr : Bool) =>
      if bits sp space = 0 && bits sp sg = 0 then [(fieldAt d.raw off 8, d.length, wr)] else []
    one F.HOD_CH_SH_SPACE_src_space F.HOD_CH_SH_SPACE_src_sg 0x10 false ++
      one F.HOD_CH_SH_SPACE_dst_space F.HOD_CH_SH_SPACE_dst_sg 0x18 true
  | 0x02 => [(d.hostAddr, d.length, false)]
  | 0x03 => [(d.hostAddr, d.length, true)]
  | _ => []

/-- The queue engine's guard checks a descriptor (R25): the first denial, if any. -/
def Mod.routeGuard (m : Mod) (d : Desc) : Mod × Option Denial :=
  let p := m.base.slicePart d.slice
  d.hostRanges.foldl (fun (acc : Mod × Option Denial) x =>
    match acc with
    | (m, some e) => (m, some e)
    | (m, none) =>
      let (b, e) := m.base.guard (24 + p) (m.base.qeAccess d.slice x.1 x.2.1 (some (m.base.descPasid d)) x.2.2)
      ({ m with base := b }, e)) (m, none)

/-- The JOB word of a descriptor's hod job (R115, R163): its class, meter, retries and pulse target. -/
def Mod.jobWord (m : Mod) (d : Desc) (tgt : Nat) : Nat :=
  let mt := m.base.descMeter d
  d.tc + 2 ^ 3 * b2n mt.isSome + 2 ^ 4 * (mt.getD 0 % 4096) + 2 ^ 16 * d.retries + 2 ^ 20 * tgt

/-- The channel of a queue pair (R183): SLC_CHAN[q mod chan_count]. -/
def Base.qpChannel (b : Base) (s g : Nat) : Nat × Nat :=
  let q := g - b.qpBase s
  let n := max 1 (b.rd (Reg.SLC_RES s) F.SLC_RES_chan_count)
  let ch := b.rd (Reg.SLC_CHAN s (q % n)) F.SLC_CHAN_channel
  (ch / 64, ch % 64)

/-- A descriptor becomes a hod job (R25, R104). -/
def Mod.makeJob (m : Mod) (d : Desc) (src dst count space tgt : Nat) : Mod :=
  let (h, c) := m.base.qpChannel d.slice d.gqp
  let m := { m with qe := m.qe.setDesc { d with phase := .running } }
  let pas := m.base.descPasid d
  m.addJob { h := h, c := c, desc := d.id, slice := d.slice, src := src, dst := dst, count := count, space := space,
             pasid := pas + 2 ^ 20, job := m.jobWord d tgt,
             tag := d.slice + 2 ^ 10 * d.gqp + 2 ^ 22 * d.cid }

/-- A MOVE (R25, R163): TARGET_GONE when a target is a shelf that was not awake at its fetch, else a hod job. -/
def Mod.routeMove (m : Mod) (d : Desc) : Mod :=
  match m.routeGuard d with
  | (m, some e) => (m.completeDenied d.id (24 + m.base.slicePart d.slice) e).fences
  | (m, none) =>
    if !d.awake then (m.complete d.id 0x21).fences
    else m.makeJob d (fieldAt d.raw 0x10 8) (fieldAt d.raw 0x18 8) d.length (d.field 0x28 ⟨0, 32⟩) 0

/-- The port of a hod job that names the shelf of a park descriptor: its slot's port here, or the virtual port that another member's shelf is
lent to (R31; log entry 43). -/
def Mod.parkPort (m : Mod) (d : Desc) : Option Nat :=
  if m.base.elsewhere d then (m.base.lentSlot (m.base.slicePart d.slice) d.path d.shelf).map (fun v => v % 32)
  else m.base.slotPort d.shelf

/-- A PARK_WRITE or PARK_READ (R25, R26): a hod job when its shelf, at its fetch, was awake with no live entries, else admission; one for
another member's shelf is then parked there (R32). -/
def Mod.routePark (m : Mod) (d : Desc) : Mod :=
  match m.routeGuard d with
  | (m, some e) => (m.completeDenied d.id (24 + m.base.slicePart d.slice) e).fences
  | (m, none) =>
    match m.parkPort d with
    | some p =>
      if d.awake && !d.live then
        if d.opcode = 2 then m.makeJob d d.hostAddr d.shelfAddr d.length (2 ^ 4 * 1 + 2 ^ 16 * p) 1
        else m.makeJob d d.shelfAddr d.hostAddr d.length (1 + 2 ^ 8 * p) 1
      else m.letIn d
    | none => m.letIn d

/-- A GUARD_COMMIT (R148, R149): it starts a commit, or waits for the one that runs. -/
def Mod.routeCommit (m : Mod) (d : Desc) : Mod :=
  let mask := d.field 0x10 ⟨0, 41⟩
  let m := { m with qe := m.qe.setDesc { d with phase := .waiting } }
  if m.base.isSet Reg.GRD_COMMIT F.GRD_COMMIT_done then m.startCommit mask (some (d.gqp, d.id))
  else { m with base := { m.base with commitWait := m.base.commitWait ++ [(d.gqp, d.id, mask)] } }

/-- The descriptor at the front of pair `g`, if its opcode is `op`. -/
def Mod.frontOp (m : Mod) (g op : Nat) : Option Desc := (m.frontDesc g).filter (fun d => d.opcode == op)

/-- A write of SLC_FENCE with go = 1 (R134): covers the slice's descriptors that have not reached the wait level; ignored,
with an event, while done = 0. -/
def Mod.fenceGo (m : Mod) (who : Who) (s v : Nat) : Mod :=
  let a := Reg.SLC_FENCE s
  if !m.base.isSet a F.SLC_FENCE_done then
    if bitOf v 0 then { m with base := m.base.misuse who s } else m
  else
    let final := bitOf v 1
    if !bitOf v 0 then m
    else
      let cov := (m.qe.descs.filter (fun d => d.slice == s && (final || d.first.isNone))).map Desc.id
      let m := { m with base := m.base.wr a F.SLC_FENCE_done 0 }
      ({ m with qe := { m.qe with fences := m.qe.fences ++
          [{ desc := none, slice := s, gqp := none, covered := cov, final := final }] } } : Mod).fences

end Sys2Proof.Machine
end

