-- ==== Sys2Proof/Machine/Slices.lean ====
section
/-! DEFINITION. Slices (R182-R198): resources and pools, SLICE_CTL and its nine operations, quiesce, fault and freeze,
the blob of SAVE and RESTORE, THAW and SCRUB. -/

namespace Sys2Proof.Machine

/-! ### Resources and pools (R183) -/

/-- The live slices. -/
def Base.liveSlices (b : Base) : List Nat := (List.range 1024).filter b.sliceLive

/-- The lowest start of a free run of `n` in a pool of `total`, beside the used runs. -/
def lowestRun (used : List (Nat × Nat)) (total n : Nat) : Option Nat :=
  let starts := 0 :: used.map (fun x => x.1 + x.2)
  let ok := fun (s : Nat) => decide (s + n ≤ total) &&
    used.all (fun x => x.2 == 0 || decide (s + n ≤ x.1) || decide (x.1 + x.2 ≤ s))
  (starts.filter ok).foldl (fun (best : Option Nat) s => match best with
    | none => some s
    | some t => some (min s t)) none

/-- Queue-pair runs and meter runs that live slices hold. -/
def Base.qpRuns (b : Base) : List (Nat × Nat) := b.liveSlices.map (fun s => (b.qpBase s, b.qpCount s))
def Base.meterRuns (b : Base) : List (Nat × Nat) :=
  b.liveSlices.map (fun s => (b.rd (Reg.SLC_BASE s) F.SLC_BASE_meter_base, b.rd (Reg.SLC_RES s) F.SLC_RES_meter_count))

/-- The channels that a slice holds (64 * hod + channel). -/
def Base.sliceChans (b : Base) (s : Nat) : List Nat :=
  ((List.range 64).filter (fun i => b.isSet (Reg.SLC_CHAN s i) F.SLC_CHAN_valid)).map
    (fun i => b.rd (Reg.SLC_CHAN s i) F.SLC_CHAN_channel)

/-- The free queue-mode channels. -/
def Base.freeChans (b : Base) : List Nat :=
  let held := b.liveSlices.flatMap b.sliceChans
  (List.range 1024).filter (fun k => !b.direct (k / 64) (k % 64) && !held.contains k)

/-- `n` channels from the free ones, one per hod in turn from hod `h` on (R183); the next turn with them. -/
def pickChans : Nat → Nat → List Nat → List Nat × Nat
  | 0, h, _ => ([], h)
  | n + 1, h, free =>
    match (List.range 16).findSome? (fun i => free.find? (fun k => k / 64 == (h + i) % 16)) with
    | none => ([], h)
    | some k =>
      let (l, h') := pickChans n ((k / 64 + 1) % 16) (free.filter (fun x => x != k))
      (k :: l, h')

/-- The quota given to live slices, and the pool's total (R183). -/
def Base.quotaGiven (b : Base) : Nat :=
  b.liveSlices.foldl (fun n s => n + b.rd (Reg.SLC_QUOTA s) F.SLC_QUOTA_quota_gib) 0
def Base.quotaTotal (b : Base) : Nat := b.rd Reg.PRK_CAPACITY F.PRK_CAPACITY_granules / 262144

/-- Does a vector range overlap one of another live slice of the partition (R183)? -/
def Base.vecOverlap (b : Base) (s p lo n : Nat) : Bool :=
  n != 0 && b.liveSlices.any (fun t => t != s && b.slicePart t == p &&
    (let a := b.rd (Reg.SLC_NAMES t) F.SLC_NAMES_vec_base
     let k := b.rd (Reg.SLC_NAMES t) F.SLC_NAMES_vec_count
     k != 0 && decide (lo < a + k) && decide (a < lo + n)))

/-- Does another live slice of the partition hold the PASID? -/
def Base.dupPasid (b : Base) (s p pasid : Nat) : Bool :=
  b.liveSlices.any (fun t => t != s && b.slicePart t == p && b.slicePasid t == pasid)

/-! ### The slice page -/

/-- Is a page offset one of the manager's registers, kept over RESET (R185)? -/
def pageKept (off : Nat) : Bool :=
  (decide (0xD00 ≤ off) && decide (off < 0xE40)) || (decide (0xEC0 ≤ off) && decide (off < 0xED0))

/-- Each queue pair shows its global number. -/
def Base.showGlobals (b : Base) (s : Nat) : Base :=
  (List.range (b.qpCount s)).foldl (fun b q =>
    b.wr (Reg.SLC_QP_STATUS s q) F.SLC_QP_STATUS_global (b.qpBase s + q)) b

/-- Is a page offset one of the ring and doorbell registers of R159? -/
def pageRings (off : Nat) : Bool :=
  decide (off < 0x204) || (decide (0x400 ≤ off) && decide (off < 0xC10))

/-- The registers of a slice page that a test picks out return to their reset values. -/
def Base.resetOffsets (b : Base) (s : Nat) (pick : Nat → Bool) : Base :=
  let page := 0x2400000 + s * 0x1000
  { b with regs := b.regs.filter (fun x => !(decide (page ≤ x.1) && decide (x.1 < page + 0x1000) && pick (x.1 - page))) }

/-- The ring registers of a slice, and what the engine keeps of its rings, return to reset (R180). -/
def Mod.resetRings (m : Mod) (s : Nat) : Mod :=
  let lo := m.base.qpBase s
  let hi := lo + m.base.qpCount s
  let b := m.base.resetOffsets s pageRings
  let b := { b with eqs := b.eqs.filter (fun e => e.slice != s),
                    pend := b.pend.filter (fun x => match x.src with
                      | .qp g => !(decide (lo ≤ g) && decide (g < hi))
                      | .eq t => t != s
                      | .vc _ _ => true) }
  let b := b.disarmAll (fun k => match k with
    | .irqTime g => decide (lo ≤ g) && decide (g < hi)
    | _ => false)
  let qe := (List.range (hi - lo)).foldl (fun (x : Queues) q => x.noLost (lo + q)) m.qe
  { m with base := b.showGlobals s,
           qe := { qe with qps := qe.qps.filter (fun r => !(decide (lo ≤ r.gqp) && decide (r.gqp < hi))),
                             recorded := m.qe.recorded.filter (fun x => x.1 != s) } }

/-- Every slice-page register of the slice returns to its reset value but for the manager's (R185 RESET, R182). -/
def Mod.resetPage (m : Mod) (s : Nat) : Mod :=
  let m := m.resetRings s
  let b := (m.base.resetOffsets s (fun off => !pageKept off && !pageRings off)).disarm (.reservation s)
  { m with base := { b with pend := b.pend.filter (fun x => match x.src with
                              | .vc t _ => t != s
                              | _ => true) },
           qe := { m.qe with fences := m.qe.fences.filter (fun f => !(f.desc.isNone && f.slice == s)) },
           ord := { m.ord with rsvs := m.ord.rsvs.map (fun r => if r.slice == s then { r with latch := 0#32 } else r) } }

/-- Put a slice's state code. -/
def Base.setSliceState (b : Base) (s st : Nat) : Base := b.wr (Reg.SLC_STATE s) F.SLC_STATE_state st

/-! ### SLICE_CTL (R185-R187) -/

/-- The fields of a SLICE_CTL body (R185). -/
def Desc.ctlOp (d : Desc) : Nat := d.field 0x10 ⟨0, 4⟩
def Desc.ctlSlice (d : Desc) : Nat := d.field 0x10 ⟨4, 10⟩
def Desc.ctlPart (d : Desc) : Nat := d.field 0x10 ⟨14, 3⟩
def Desc.ctlPasid (d : Desc) : Nat := d.field 0x14 ⟨0, 20⟩
def Desc.ctlQp (d : Desc) : Nat := d.field 0x18 ⟨0, 7⟩
def Desc.ctlChan (d : Desc) : Nat := d.field 0x18 ⟨7, 7⟩
def Desc.ctlMeter (d : Desc) : Nat := d.field 0x18 ⟨14, 7⟩
def Desc.ctlVec (d : Desc) : Nat := d.field 0x1C ⟨0, 11⟩
def Desc.ctlVecs (d : Desc) : Nat := d.field 0x1C ⟨11, 9⟩
def Desc.ctlQuota (d : Desc) : Nat := d.field 0x20 ⟨0, 12⟩
def Desc.ctlBlob (d : Desc) : Nat := fieldAt d.raw 0x28 8

/-- Is a reserved bit set, those of the flags and the common header among them, or a field the operation does not use (R185, R187)? -/
def Desc.ctlStray (d : Desc) : Bool :=
  let create := d.ctlOp == 0
  let bind := create || d.ctlOp == 6
  let blob := d.ctlOp == 5 || d.ctlOp == 6
  d.headerReserved || d.field 0 ⟨8, 8⟩ != 0 ||
  d.field 0x10 ⟨17, 15⟩ != 0 || d.field 0x14 ⟨20, 12⟩ != 0 || d.field 0x18 ⟨21, 11⟩ != 0 || d.field 0x1C ⟨20, 12⟩ != 0 ||
  d.field 0x20 ⟨12, 20⟩ != 0 || !d.zero 0x24 4 || !d.zero 0x30 16 ||
  (!bind && (d.ctlPart != 0 || d.ctlPasid != 0 || d.ctlVec != 0)) ||
  (!create && (d.field 0x18 ⟨0, 21⟩ != 0 || d.ctlVecs != 0 || d.ctlQuota != 0)) ||
  (!blob && d.ctlBlob != 0)

/-- Is a field out of the range that R185 gives it (R187 BAD_FIELD)? -/
def Base.ctlRange (b : Base) (d : Desc) : Bool :=
  let create := d.ctlOp == 0
  let bind := create || d.ctlOp == 6
  (create && (d.ctlQp == 0 || decide (64 < d.ctlQp) || d.ctlChan == 0 || decide (64 < d.ctlChan) ||
    decide (64 < d.ctlMeter) || decide (256 < d.ctlVecs) || decide (2048 < d.ctlVec + d.ctlVecs))) ||
  (bind && !b.partitions.contains d.ctlPart) ||
  ((d.ctlOp == 5 || d.ctlOp == 6) && d.ctlBlob % 64 != 0) || decide (8 < d.ctlOp)

/-- The states an operation accepts (R185). -/
def ctlAccepts (op st : Nat) : Bool :=
  match op with
  | 0 | 6 => st == 0
  | 1 => st == 1 || st == 5 || st == 3 || st == 6
  | 2 => st == 3 || st == 6
  | 3 => st == 3 || st == 6 || st == 5
  | 4 => st == 1
  | 5 | 7 => st == 5
  | 8 => st == 7
  | _ => false

/-- A CREATE's resources, or the reason it lacks them (R183, R187): queue pairs, channels, meters, park, in this order. -/
def Mod.resources (m : Mod) (s p pasid vec nvec nq nc nm quota : Nat) : Except Nat (Nat × List Nat × Nat × Nat) :=
  let b := m.base
  if b.vecOverlap s p vec nvec then .error 8
  else if b.dupPasid s p pasid then .error 9
  else
    match lowestRun b.qpRuns 4096 nq with
    | none => .error 4
    | some q =>
      let free := b.freeChans
      if free.length < nc then .error 5
      else
        let (chans, turn) := pickChans nc m.slc.turn free
        match (if nm = 0 then some 0 else lowestRun b.meterRuns 4096 nm) with
        | none => .error 6
        | some mb => if b.quotaTotal < b.quotaGiven + quota then .error 7 else .ok (q, chans, mb, turn)

/-- The reason a SLICE_CTL is refused before any blob access (R187), if it is. -/
def Mod.ctlReason (m : Mod) (d : Desc) : Option Nat :=
  let st := m.base.sliceState d.ctlSlice
  if d.ctlSlice = 0 then some 3
  else if (d.ctlOp = 0 || d.ctlOp = 6) && st = 7 then some 0xC
  else if d.ctlOp ≤ 8 && !ctlAccepts d.ctlOp st then some 2
  else if d.ctlStray || m.base.ctlRange d then some 1
  else none

/-- The status a reason code gives (R187). -/
def reasonStatus (r : Nat) : Nat :=
  if r = 0 then 0x00 else if 4 ≤ r && r ≤ 7 then 0x27 else 0x28

/-- A SLICE_CTL is done: SLC_CTL_LAST, its completion, and an advisory event when it was refused (R187). -/
def Mod.ctlDone (m : Mod) (d : Desc) (reason status bytes discarded : Nat) (detail : Nat := 0) : Mod :=
  let w := d.ctlOp + 2 ^ 4 * d.ctlSlice + 2 ^ 14 * reason + 2 ^ 18 * (discarded % 4096)
  let b := m.base.setWord Reg.SLC_CTL_LAST (BitVec.ofNat 32 w)
  let b := if reason = 0 then b else b.raise { group := 17, bit := 3, scope := .slice d.ctlSlice, detail := w }
  (({ m with base := b } : Mod).postStage d.id
    { cid := 0, opcode := 0, status := status, final := true, bytes := bytes, detail := detail }).fences

/-- Is a SLICE_CTL still running (R186)? -/
def Mod.ctlBusy (m : Mod) : Bool :=
  m.slc.blob.isSome || m.slc.scrub.isSome || m.slc.runs.any (fun r => r.desc.isSome)

/-- The oldest SLICE_CTL that waits, over all queue pairs of slice 0 (R186), unless an older FENCE holds it or an older descriptor of
its pair has yet to be routed (R165). -/
def Mod.ctlFront (m : Mod) : Option Desc :=
  if m.ctlBusy then none
  else
    match m.qe.descs.find? (fun d => d.opcode == 0x10 && d.phase == .queued && !d.bad) with
    | none => none
    | some d =>
      if m.qe.descs.any (fun f => f.opcode == 4 && decide (f.id < d.id) && f.slice == d.slice &&
          (f.gqp == d.gqp || f.field 0 ⟨8, 1⟩ == 1)) then none
      else if m.qe.descs.any (fun e => e.gqp == d.gqp && decide (e.id < d.id) && e.phase == .queued && e.opcode != 4 &&
          e.opcode != 0x10) then none
      else some d

/-- SLICE_CTLs of an undefined op at the front complete with MALFORMED, reason by R187. -/
def Mod.dropUndefined : Nat → Mod → Mod
  | 0, m => m
  | n + 1, m =>
    match m.ctlFront with
    | some d =>
      if 8 < d.ctlOp then
        let r := (m.ctlReason d).getD 1
        Mod.dropUndefined n (m.ctlDone d r (reasonStatus r) 0 0)
      else m
    | none => m

/-- The front SLICE_CTL, if it is of operation `op` and passes the checks of R187; a refused one completes. -/
def Mod.ctlTake (m : Mod) (op : Nat) : Mod × Option Desc :=
  let m := Mod.dropUndefined m.qe.descs.length m
  match m.ctlFront with
  | none => (m, none)
  | some d =>
    if d.ctlOp ≠ op then (m, none)
    else
      match m.ctlReason d with
      | some r => (m.ctlDone d r (reasonStatus r) 0 0, none)
      | none => (m, some d)

/-! ### Building and removing a slice (R185, R189) -/

/-- A slot is built: bound, with its resources, its channels listed and its generation raised (R183, R188). -/
def Mod.build (m : Mod) (s st p pasid name vec nvec nq nm quota : Nat) (r : Nat × List Nat × Nat × Nat) : Mod :=
  let (q, chans, mb, turn) := r
  let g := m.base.sliceGen s + 1
  let b := m.base.setWord (Reg.SLC_STATE s) (BitVec.ofNat 32 (st + 2 ^ 16 * (g % 65536)))
  let b := b.setWord (Reg.SLC_BIND s) (BitVec.ofNat 32 (pasid + 2 ^ 20 * p))
  let b := b.setWord (Reg.SLC_RES s) (BitVec.ofNat 32 (nq + 2 ^ 7 * chans.length + 2 ^ 14 * nm))
  let b := b.setWord (Reg.SLC_BASE s) (BitVec.ofNat 32 (q + 2 ^ 12 * mb))
  let b := b.setWord (Reg.SLC_NAMES s) (BitVec.ofNat 32 (name + 2 ^ 12 * vec + 2 ^ 23 * nvec))
  let b := b.setWord (Reg.SLC_QUOTA s) (BitVec.ofNat 32 quota)
  let b := (List.range 64).foldl (fun b i =>
    b.setWord (Reg.SLC_CHAN s i) (match chans[i]? with
      | some k => BitVec.ofNat 32 (k + 2 ^ 10)
      | none => 0#32)) b
  let b := chans.foldl (fun b k => b.wr (Reg.HOD_CH_MODE (k / 64) (k % 64)) F.HOD_CH_MODE_slice s) b
  { m with base := b.showGlobals s, slc := { m.slc with turn := turn },
           qe := { m.qe with saved := m.qe.saved.filter (fun x => x != s) } }

/-- CREATE (R185). -/
def Mod.ctlCreate (m : Mod) : Mod :=
  match m.ctlTake 0 with
  | (m, none) => m
  | (m, some d) =>
    let s := d.ctlSlice
    match m.resources s d.ctlPart d.ctlPasid d.ctlVec d.ctlVecs d.ctlQp d.ctlChan d.ctlMeter d.ctlQuota with
    | .error r => m.ctlDone d r (reasonStatus r) 0 0
    | .ok r =>
      let m := (m.build s 1 d.ctlPart d.ctlPasid r.2.2.1 d.ctlVec d.ctlVecs d.ctlQp d.ctlMeter d.ctlQuota r).resetPage s
      m.ctlDone d 0 0x00 0 0

/-- RESET (R185). -/
def Mod.ctlReset (m : Mod) : Mod :=
  match m.ctlTake 2 with
  | (m, none) => m
  | (m, some d) =>
    let s := d.ctlSlice
    let m := (m.loseRsv (fun r => r.slice == s) 4).resetPage s
    let b := ((m.base.setSliceState s 1).wr (Reg.SLC_STATE s) F.SLC_STATE_lost 0).wr (Reg.SLC_STATE s) F.SLC_STATE_stale_blob 0
    ({ m with base := b } : Mod).ctlDone d 0 0x00 0 0

/-- The slice's meters are disabled (R185 REMOVE). -/
def Base.dropMeters (b : Base) (s : Nat) : Base :=
  let lo := b.rd (Reg.SLC_BASE s) F.SLC_BASE_meter_base
  (List.range (b.rd (Reg.SLC_RES s) F.SLC_RES_meter_count)).foldl (fun b i =>
    b.wr (Reg.SCH_METER_CIR (lo + i)) F.SCH_METER_CIR_enable 0) b

/-- A slot gives everything back and keeps its generation (R185, R189). -/
def Mod.empty (m : Mod) (s st : Nat) : Mod :=
  let m := (m.loseRsv (fun r => r.slice == s) 4).resetPage s
  let g := m.base.sliceGen s
  let b := m.base.dropMeters s
  let b := (b.sliceChans s).foldl (fun b k => b.wr (Reg.HOD_CH_MODE (k / 64) (k % 64)) F.HOD_CH_MODE_slice 0) b
  let page := 0x2400000 + s * 0x1000
  let b := { b with regs := b.regs.filter (fun x => !(decide (page ≤ x.1) && decide (x.1 < page + 0x1000))) }
  { m with base := b.setWord (Reg.SLC_STATE s) (BitVec.ofNat 32 (st + 2 ^ 16 * g)),
           qe := { m.qe with saved := m.qe.saved.filter (fun x => x != s) },
           ord := { m.ord with rsvs := m.ord.rsvs.filter (fun r => r.slice != s) } }

/-- REMOVE (R185, R189). -/
def Mod.ctlRemove (m : Mod) : Mod :=
  match m.ctlTake 3 with
  | (m, none) => m
  | (m, some d) =>
    (m.empty d.ctlSlice (if m.base.sliceGen d.ctlSlice = 0xFFFF then 7 else 0)).ctlDone d 0 0x00 0 0

/-! ### Coming to rest (R190, R192, R193) -/

/-- The run of a slice that comes to rest. -/
def Slices.run (x : Slices) (s : Nat) : Option SliceRun := x.runs.find? (fun r => r.slice == s)

/-- Replace a run. -/
def Slices.setRun (x : Slices) (r : SliceRun) : Slices := { x with runs := x.runs.map (fun y => if y.slice == r.slice then r else y) }

/-- Steps 1 of R190 and R193: fetching stops; fetch turns in flight are discarded, or rewound for a freeze. -/
def Mod.stopFetch (m : Mod) (s : Nat) (rewind : Bool) : Mod :=
  (m.qe.turns.filter (fun t => t.slice == s)).foldl (fun m t =>
    if rewind then m.rewindTurn t
    else
      let total := t.reads.foldl (fun n r => n + r.count) 0
      let m := { m with qe := { m.qe with turns := m.qe.turns.filter (fun x => x != t) } }
      (m.unreserve t.gqp (2 * total)).refreshBusy t.gqp) m

/-- What is held for a slice is discarded: entries, with the descriptors that had nothing more to post, events and messages. -/
def Mod.dropHeld (m : Mod) (s : Nat) : Mod :=
  { m with base := { m.base with held := m.base.held.filter (fun x => m.base.heldSlice x != s) },
           qe := { m.qe with heldCpls := m.qe.heldCpls.filter (fun h => h.slice != s),
                             descs := m.qe.descs.filter (fun d => !(d.slice == s && d.phase == .done)) } }

/-- Items held for a slice: completion entries, events and messages, and completions of direct-mode jobs that wait for a slot (R190). -/
def Mod.heldCount (m : Mod) (s : Nat) : Nat :=
  (m.base.held.filter (fun x => m.base.heldSlice x == s)).length + (m.qe.heldCpls.filter (fun h => h.slice == s)).length

/-- Step 2 of R190: the slice's channels are aborted, its jobs and descriptors that have not begun complete with ABORTED,
and its waiting admissions and GUARD_COMMITs too (R149). A SLICE_CTL that runs goes on to its own end, which its limit bounds. -/
def Mod.abortWork (m : Mod) (s : Nat) : Mod :=
  let jobs := m.hod.jobs.filter (fun j => j.slice == s)
  let m := { m with hod := { m.hod with jobs := m.hod.jobs.filter (fun j => j.slice != s) } }
  let m := jobs.foldl (fun m j => (m.complete j.desc 0x25).fences) m
  let m := (m.base.sliceChans s).foldl (fun m k => m.abort (k / 64) (k % 64) false) m
  let m := (m.hod.runs.filter (fun r => r.slice == s)).foldl (fun m r => m.abort r.h r.c false) m
  let m := m.abortWaits s
  let waits := if s = 0 then m.base.commitWait else []
  let m := if s = 0 then { m with base := { m.base with commitWait := [] } } else m
  let m := waits.foldl (fun m x => (m.complete x.2.1 0x25).fences) m
  let idle := m.qe.descs.filter (fun d => d.slice == s && d.phase == .queued && d.opcode != 4)
  let m := idle.foldl (fun m d => (m.complete d.id 0x25).fences) m
  -- a FENCE that has not been taken up covers only what has now completed
  (m.qe.descs.filter (fun d => d.slice == s && d.phase == .queued && d.opcode == 4)).foldl (fun m d => m.beginFence d.gqp) m

/-- Step 3 of R190: entries not in SWEEP are handled at once; those in SWEEP have 2 ms (R101). -/
def Mod.holdEntries (m : Mod) (s : Nat) : Mod :=
  let m := m.quiesceEntries s false
  if m.prk.entries.any (fun e => e.slice == s && e.state == 6) then
    { m with base := m.base.arm (.sweepHold s) (2 * ms) }
  else m

/-- Step 4 of R190: the slice's merge lines drain, or at a fault are discarded (R130, R192). -/
def Mod.restLines (m : Mod) (s : Nat) (discard : Bool) : Mod :=
  if discard then m.discardSliceLines s else m.drainSlice s

/-- A quiesce, fault or partition reset of a live slice starts (R190, R192, R180). -/
def Mod.bringToRest (m : Mod) (s kind : Nat) (desc : Option Nat) : Mod :=
  let m := { m with base := (m.base.setSliceState s 2).wr (Reg.SLC_STATE s) F.SLC_STATE_lost 0 }
  let m := { m with slc := { m.slc with runs := m.slc.runs.filter (fun (r : SliceRun) => r.slice != s) ++
    [({ slice := s, kind := kind, desc := desc, handled := true } : SliceRun)] } }
  let m := (m.stopFetch s false).abortWork s
  let m := m.loseRsv (fun r => r.slice == s) 4
  let m := (m.restLines s (kind == 2)).holdEntries s
  { m with base := (m.base.disarm (.freezeDeadline s)).armIfIdle (.quiesceLimit s) (100 * ms) }

/-- QUIESCE (R185, R190): a FROZEN slice drops its recorded doorbells, drains its lines, loses its reservation (R130, R137) and is QUIESCED
at once. -/
def Mod.ctlQuiesce (m : Mod) : Mod :=
  match m.ctlTake 1 with
  | (m, none) => m
  | (m, some d) =>
    let s := d.ctlSlice
    match m.base.sliceState s with
    | 5 =>
      let m := { m with base := m.base.setSliceState s 3,
                        qe := { m.qe with recorded := m.qe.recorded.filter (fun x => x.1 != s) } }
      ((m.loseRsv (fun r => r.slice == s) 4).restLines s false).ctlDone d 0 0x00 0 0
    | 1 => ({ m with qe := m.qe.setDesc { d with phase := .waiting } } : Mod).bringToRest s 0 (some d.id)
    | _ => m.ctlDone d 0 0x00 0 0

/-- FREEZE (R193): fetching stops with rewound heads, merge lines drain, the reservation is lost, fetched work runs on. -/
def Mod.ctlFreeze (m : Mod) : Mod :=
  match m.ctlTake 4 with
  | (m, none) => m
  | (m, some d) =>
    let s := d.ctlSlice
    let m := { m with base := (m.base.setSliceState s 4).wr (Reg.SLC_STATE s) F.SLC_STATE_lost 0,
                      qe := m.qe.setDesc { d with phase := .waiting } }
    let m := { m with slc := { m.slc with runs := m.slc.runs ++ [({ slice := s, kind := 1, desc := some d.id } : SliceRun)] } }
    let m := ((m.stopFetch s true).loseRsv (fun r => r.slice == s) 4).restLines s false
    { m with base := (m.base.arm (.freezeDeadline s) (98 * ms)).arm (.quiesceLimit s) (100 * ms) }

/-- Fetched work of a slice that is still on the hods or being ingested (R193). -/
def Mod.workRuns (m : Mod) (s : Nat) : Bool :=
  m.hod.runs.any (fun r => r.slice == s) || m.hod.jobs.any (fun j => j.slice == s) ||
  (m.base.sliceChans s).any (fun k => m.hod.latched (k / 64) (k % 64)) ||
  m.qe.descs.any (fun d => d.slice == s && d.phase == .queued) ||
  m.prk.waits.any (fun w => match m.qe.desc w.desc with
    | some d => d.slice == s
    | none => false) ||
  m.prk.entries.any (fun e => e.slice == s && e.kept.isNone && (e.state == 1 || e.awaitPeer))

/-- Is nothing of the slice left in flight, but the SLICE_CTL that asked (R190)? -/
def Mod.atRest (m : Mod) (r : SliceRun) : Bool :=
  !m.workRuns r.slice &&
  !m.prk.entries.any (fun e => e.slice == r.slice && e.kept.isNone) &&
  !m.qe.descs.any (fun d => d.slice == r.slice && some d.id != r.desc) && m.heldCount r.slice == 0 &&
  !m.ord.lines.any (fun l => l.slice == some r.slice)

/-- The slice is at rest: QUIESCED, FROZEN, FAULTED, or, for slice 0 and a partition reset, with its registers reset
(R182, R180). -/
def Mod.rest (m : Mod) (r : SliceRun) : Mod :=
  let s := r.slice
  let b := m.base.disarmAll (fun k => match k with
    | .sweepHold t | .freezeDeadline t | .quiesceLimit t => t == s
    | _ => false)
  let b := (List.range (b.qpCount s)).foldl (fun b q => b.wr (Reg.SLC_QP_STATUS s q) F.SLC_QP_STATUS_busy 0) b
  let b := if r.discarded = 0 then b
    else (b.wr (Reg.SLC_STATE s) F.SLC_STATE_lost 1).raise
      { group := 17, bit := 1, scope := .slice s, detail := r.discarded }
  let m := { m with base := b, slc := { m.slc with runs := m.slc.runs.filter (fun x => x.slice != s) } }
  let m :=
    if r.kind = 1 then { m with base := m.base.setSliceState s 5 }
    else if s = 0 then
      let m := m.resetPage 0
      let b := (m.base.setSliceState 0 1).wr (Reg.SLC_STATE 0) F.SLC_STATE_lost 0
      { m with base := b.wr (Reg.SLC_STATE 0) F.SLC_STATE_stale_blob 0 }
    else if r.kind = 3 then
      let m := m.resetRings s
      { m with base := m.base.setSliceState s 3 }
    else { m with base := m.base.setSliceState s (if r.kind = 2 then 6 else 3) }
  match r.desc.bind m.qe.desc with
  | some d => m.ctlDone d 0 0x00 0 r.discarded
  | none =>
    if r.discarded = 0 then m
    else { m with base := m.base.wr Reg.SLC_CTL_LAST F.SLC_CTL_LAST_discarded r.discarded }

/-- A slice that comes to rest has nothing left in flight (R190, R193): a freeze first handles its live park entries. -/
def Mod.sliceAtRest (m : Mod) (s : Nat) : Mod :=
  match m.slc.run s with
  | none => m
  | some r =>
    let m := if r.kind = 3 then m.dropHeld s else m
    let (m, r) :=
      if r.kind = 1 && !r.handled && !m.workRuns s then
        let r := { r with handled := true }
        (({ m with slc := m.slc.setRun r } : Mod).holdEntries s, r)
      else (m, r)
    if m.atRest r then m.rest r else m

/-- The limit of R190 step 6: what is still unwritten is discarded and counted, and the slice is at rest. -/
def Mod.restLimit (m : Mod) (s : Nat) : Mod :=
  match m.slc.run s with
  | none => m
  | some r =>
    let m := (m.abortWork s).quiesceEntries s true
    let n := m.heldCount s
    let m := m.dropHeld s
    let m := { m with qe := { m.qe with descs := m.qe.descs.filter (fun d => !(d.slice == s && some d.id != r.desc)) } }
    (m.restLines s (r.kind == 2)).rest { r with discarded := r.discarded + n }

/-- 98 ms after FREEZE (R193): fetched work still running is treated as under a quiesce. -/
def Mod.freezeLate (m : Mod) (s : Nat) : Mod :=
  match m.slc.run s with
  | none => m
  | some r =>
    if r.kind ≠ 1 then m
    else (({ m with slc := m.slc.setRun { r with handled := true } } : Mod).abortWork s).holdEntries s

/-- The 2 ms of R101 have passed: sweep entries of the slice stop at their next frame boundary. -/
def Mod.sweepHoldDone (m : Mod) (s : Nat) : Mod :=
  if (m.slc.run s).isSome then m.quiesceEntries s true else m

/-- A slice meets a fault (R192): contained event; a slice on its way to rest goes on as a fault; one at rest is FAULTED, its lines
discarded and its reservation lost (R130, R137), and a FROZEN one discards its held queue state. -/
def Mod.fault (m : Mod) (s : Nat) : Mod :=
  let st := m.base.sliceState s
  if st = 0 || st = 7 || st = 6 then m
  else
    let m := { m with base := m.base.raise { group := 17, bit := 0, sev := 1, scope := .slice s } }
    if st = 5 || st = 3 then
      let m := (m.loseRsv (fun r => r.slice == s) 4).discardSliceLines s
      let m := if st = 5 then m.resetRings s else m
      { m with base := m.base.setSliceState s 6 }
    else m.bringToRest s 2 ((m.slc.run s).bind SliceRun.desc)

/-! ### SAVE (R194, R195) -/

/-- A register image of `n` bytes. -/
def Base.image (b : Base) (a n : Nat) : List Byte :=
  (List.range (n / 4)).flatMap (fun i => leBytes 4 (b.word (a + 4 * i)).toNat)

/-- A value recorded for a slice's doorbell register. -/
def Queues.recordedAt (x : Queues) (s r : Nat) : Option Nat :=
  (x.recorded.find? (fun y => y.1 == s && y.2.1 == r)).map (fun y => y.2.2)

/-- One queue-pair record of the blob (R194). -/
def Mod.blobPair (m : Mod) (s q : Nat) : List Byte :=
  let g := m.base.qpBase s + q
  let r := m.qe.qp g
  let head := m.base.rd (Reg.SLC_QP_PTR s q) F.SLC_QP_PTR_sq_head
  let st := m.base.qpState s q + 2 ^ 2 * m.base.rd (Reg.SLC_QP_STATUS s q) F.SLC_QP_STATUS_cause + 2 ^ 5 * b2n r.phase +
    2 ^ 6 * b2n (m.base.pend.any (fun x => x.src == .qp g)) + 2 ^ 8 * (r.unsignalled % 256)
  m.base.image (Reg.SLC_QP_SQ_BASE s q) 8 ++ m.base.image (Reg.SLC_QP_CQ_BASE s q) 8 ++
  m.base.image (Reg.SLC_QP_CFG s q) 4 ++ m.base.image (Reg.SLC_QP_IRQ s q) 4 ++
  leBytes 4 (head + 2 ^ 16 * ((m.qe.recordedAt s q).getD r.tail % 65536)) ++
  leBytes 4 (r.cqHead + 2 ^ 16 * m.base.rd (Reg.SLC_QP_PTR s q) F.SLC_QP_PTR_cq_tail) ++
  leBytes 2 st ++ leBytes 30 0

/-- The blob with its crc field as given (R194). -/
def Mod.blobWith (m : Mod) (s crc : Nat) : List Byte :=
  let b := m.base
  let nq := b.qpCount s
  let nm := b.rd (Reg.SLC_RES s) F.SLC_RES_meter_count
  let mb := b.rd (Reg.SLC_BASE s) F.SLC_BASE_meter_base
  let e := b.eq s
  leBytes 4 0x5A4D5342 ++ leBytes 4 (1 + 2 ^ 8 * nq + 2 ^ 16 * b.rd (Reg.SLC_RES s) F.SLC_RES_chan_count + 2 ^ 24 * nm) ++
  leBytes 4 (0x100 + 32 * nm + 64 * nq) ++
  leBytes 4 (b.rd (Reg.SLC_NAMES s) F.SLC_NAMES_vec_base + 2 ^ 11 * b.rd (Reg.SLC_NAMES s) F.SLC_NAMES_vec_count) ++
  leBytes 4 (b.rd (Reg.SLC_QUOTA s) F.SLC_QUOTA_quota_gib + 2 ^ 12 * b.rd (Reg.SLC_NAMES s) F.SLC_NAMES_meter_name) ++
  leBytes 4 (b.sliceGen s + 2 ^ 16 * s) ++ leBytes 8 (b.word64 Reg.GLB_SERIAL) ++ leBytes 8 b.ns ++ leBytes 20 0 ++
  leBytes 4 crc ++
  b.image (Reg.SLC_EQ_BASE s) 8 ++ b.image (Reg.SLC_EQ_CFG s) 4 ++
  leBytes 4 (e.head + 2 ^ 16 * b.rd (Reg.SLC_EQ_STATUS s) F.SLC_EQ_STATUS_tail) ++
  leBytes 4 (b2n e.phase + 2 * b.rd (Reg.SLC_EQ_STATUS s) F.SLC_EQ_STATUS_overflow) ++ leBytes 12 0 ++
  (List.range 8).flatMap (fun v => b.image (Reg.SLC_VC_CNT s v) 16) ++ leBytes 32 0 ++
  (List.range nm).flatMap (fun i =>
    b.image (Reg.SCH_METER_CIR (mb + i)) 4 ++ b.image (Reg.SCH_METER_PIR (mb + i)) 4 ++
    b.image (Reg.SCH_METER_CBS (mb + i)) 4 ++ b.image (Reg.SCH_METER_PBS (mb + i)) 4 ++ leBytes 16 0) ++
  (List.range nq).flatMap (fun q => m.blobPair s q)

/-- The blob of a slice (R194). -/
def Mod.blob (m : Mod) (s : Nat) : List Byte := m.blobWith s (crc32 (m.blobWith s 0))

/-- The manager's access for a blob, under the descriptor's PASID (R194, R196). -/
def Mod.blobAccess (m : Mod) (d : Desc) (addr len : Nat) (wr : Bool) : Access :=
  m.base.qeAccess 0 addr len (some (m.base.descPasid d)) wr

/-- SAVE (R194, R195): the blob is written, or the SAVE ends at once when Bus Master Enable is clear or the guard denies. -/
def Mod.ctlSave (m : Mod) : Mod :=
  match m.ctlTake 5 with
  | (m, none) => m
  | (m, some d) =>
    let p := m.base.slicePart 0
    if !m.base.bme p then m.ctlDone d 0xB 0x25 0 0
    else
      let data := m.blob d.ctlSlice
      let (b, e) := m.base.guard (24 + p) (m.blobAccess d d.ctlBlob data.length true)
      let m := { m with base := b }
      match e with
      | some e => m.ctlDone d 0xB 0x20 0 0 (denialWord (24 + p) e)
      | none =>
        { m with base := m.base.emit (.hostWrite p d.ctlBlob (some (m.base.descPasid d)) data),
                 qe := m.qe.setDesc { d with phase := .waiting },
                 slc := { m.slc with blob := some { desc := d.id, slice := d.ctlSlice, save := true, addr := d.ctlBlob,
                                                    data := data } } }

/-- The blob write of a SAVE ends (R195). -/
def Mod.blobWritten (m : Mod) (st : CplStatus) : Mod :=
  match m.slc.blob with
  | none => m
  | some x =>
    if !x.save then m
    else
      let m := { m with slc := { m.slc with blob := none } }
      match m.qe.desc x.desc with
      | none => m
      | some d =>
        if st == CplStatus.ok then
          let m := { m with base := m.base.wr (Reg.SLC_STATE x.slice) F.SLC_STATE_stale_blob 0,
                            qe := { m.qe with saved := x.slice :: m.qe.saved.filter (fun s => s != x.slice) } }
          m.ctlDone d 0 0x00 x.data.length 0
        else m.ctlDone d 0xB (cplToStatus st) 0 0

/-! ### RESTORE (R196) -/

/-- A blob read of `len` bytes at an offset is issued: guarded, with a tag of the manager's upstream port. -/
def Mod.blobRead (m : Mod) (d : Desc) (x : BlobRun) (len : Nat) : Mod :=
  let p := m.base.slicePart 0
  let addr := x.addr + x.data.length
  let (b, e) := m.base.guard (24 + p) (m.blobAccess d addr len false)
  let m := { m with base := b }
  let port := (m.base.upstreamPort p).getD 0
  match e with
  | some e => ({ m with slc := { m.slc with blob := none } } : Mod).ctlDone d 0xB 0x20 0 0 (denialWord (24 + p) e)
  | none =>
    match m.freeTag port with
    | none => ({ m with slc := { m.slc with blob := none } } : Mod).ctlDone d 0xB 0x21 0 0
    | some t =>
      let m := { m with slc := { m.slc with blob := some x } }
      ({ m with base := m.base.emit (.hostRead p addr (some (m.base.descPasid d)) len x.data.length) } : Mod).takeTag port t len .blob

/-- RESTORE begins with the blob's first 0x40 B (R196), once the read can have a tag (R210). -/
def Mod.ctlRestore (m : Mod) : Mod :=
  match m.ctlTake 6 with
  | (m, none) => m
  | (m, some d) =>
    if !m.base.bme (m.base.slicePart 0) then m.ctlDone d 0xB 0x25 0 0
    else if !m.tagsFree ((m.base.upstreamPort (m.base.slicePart 0)).getD 0) 1 then m
    else
      let m := { m with qe := m.qe.setDesc { d with phase := .waiting } }
      m.blobRead d { desc := d.id, slice := d.ctlSlice, save := false, addr := d.ctlBlob } 0x40

/-- Counts and fields of a blob's header. -/
def blobQp (bs : List Byte) : Nat := fieldAt bs 5 1
def blobChan (bs : List Byte) : Nat := fieldAt bs 6 1
def blobMeter (bs : List Byte) : Nat := fieldAt bs 7 1
def blobVecBase (bs : List Byte) : Nat := bits (fieldAt bs 0xC 4) ⟨0, 11⟩
def blobVecs (bs : List Byte) : Nat := bits (fieldAt bs 0xC 4) ⟨11, 9⟩
def blobQuota (bs : List Byte) : Nat := bits (fieldAt bs 0x10 4) ⟨0, 12⟩
def blobName (bs : List Byte) : Nat := bits (fieldAt bs 0x10 4) ⟨12, 12⟩
def blobLen (bs : List Byte) : Nat := fieldAt bs 8 4

/-- The header checks of R196. -/
def blobHeaderOk (bs : List Byte) : Bool :=
  fieldAt bs 0 4 == 0x5A4D5342 && fieldAt bs 4 1 == 1 &&
  blobLen bs == 0x100 + 32 * blobMeter bs + 64 * blobQp bs && decide (blobLen bs ≤ 16384) &&
  decide (1 ≤ blobQp bs) && decide (blobQp bs ≤ 64) && decide (1 ≤ blobChan bs) && decide (blobChan bs ≤ 64) &&
  decide (blobMeter bs ≤ 64) && decide (blobVecs bs ≤ 256)

/-- The crc check of R196: over the whole blob with the field taken as 0. -/
def blobCrcOk (bs : List Byte) : Bool :=
  crc32 (bs.take 0x3C ++ leBytes 4 0 ++ bs.drop 0x40) == fieldAt bs 0x3C 4

/-- Put a register image of whole words. -/
def Base.loadImage (b : Base) (a : Nat) (bs : List Byte) : Base :=
  (List.range (bs.length / 4)).foldl (fun b i => b.setWord (a + 4 * i) (BitVec.ofNat 32 (fieldAt bs (4 * i) 4))) b

/-- A vector field rebased to the new range (R196). -/
def rebase (w lo src dst : Nat) : Nat := putBits w ⟨lo, 11⟩ (dst + 2 ^ 11 + bits w ⟨lo, 11⟩ - src)

/-- One queue-pair record is loaded (R196). -/
def Mod.loadPair (m : Mod) (s q src dst : Nat) (r : List Byte) : Mod :=
  let st := fieldAt r 0x20 2
  let g := m.base.qpBase s + q
  let b := (m.base.loadImage (Reg.SLC_QP_SQ_BASE s q) (r.take 8)).loadImage (Reg.SLC_QP_CQ_BASE s q) ((r.drop 8).take 8)
  let b := b.setWord (Reg.SLC_QP_CFG s q) (BitVec.ofNat 32 (fieldAt r 0x10 4))
  let b := b.setWord (Reg.SLC_QP_IRQ s q) (BitVec.ofNat 32 (rebase (fieldAt r 0x14 4) 0 src dst))
  let b := b.setWord (Reg.SLC_QP_PTR s q) (BitVec.ofNat 32 (fieldAt r 0x18 2 + 2 ^ 16 * fieldAt r 0x1E 2))
  let b := b.setWord (Reg.SLC_QP_STATUS s q) (BitVec.ofNat 32 (st % 4 + 2 ^ 3 * (st / 4 % 8) + 2 ^ 6 * g))
  let b := if bitOf st 6 then
      { b with pend := b.pend ++ [⟨b.slicePart s, b.rd (Reg.SLC_QP_IRQ s q) F.SLC_QP_IRQ_vector, .qp g⟩] } else b
  { m with base := b,
           qe := { (m.qe.setQp { gqp := g, tail := fieldAt r 0x1A 2, cqHead := fieldAt r 0x1C 2, phase := bitOf st 5,
                                 unsignalled := st / 256 }) with
                   recorded := (m.qe.recorded.filter (fun x => !(x.1 == s && x.2.1 == q))) ++ [(s, q, fieldAt r 0x1A 2)] } }

/-- The slice is built from a checked blob and is FROZEN (R196). -/
def Mod.restoreBuild (m : Mod) (d : Desc) (bs : List Byte) : Mod :=
  let s := d.ctlSlice
  if 2048 < d.ctlVec + blobVecs bs then m.ctlDone d 1 0x28 0 0
  else
    match m.resources s d.ctlPart d.ctlPasid d.ctlVec (blobVecs bs) (blobQp bs) (blobChan bs) (blobMeter bs) (blobQuota bs) with
    | .error r => m.ctlDone d r (reasonStatus r) 0 0
    | .ok r =>
      let m := (m.build s 5 d.ctlPart d.ctlPasid (blobName bs) d.ctlVec (blobVecs bs) (blobQp bs) (blobMeter bs)
        (blobQuota bs) r).resetPage s
      let src := blobVecBase bs
      let eqc := rebase (fieldAt bs 0x48 4) 6 src d.ctlVec
      let b := (m.base.loadImage (Reg.SLC_EQ_BASE s) ((bs.drop 0x40).take 8)).setWord (Reg.SLC_EQ_CFG s) (BitVec.ofNat 32 eqc)
      let b := b.setWord (Reg.SLC_EQ_STATUS s) (BitVec.ofNat 32
        (fieldAt bs 0x4E 2 + 2 ^ 16 * (eqc % 2) + 2 ^ 17 * b2n (bitOf (fieldAt bs 0x50 4) 1)))
      let b := b.setEq { slice := s, head := fieldAt bs 0x4C 2, phase := bitOf (fieldAt bs 0x50 4) 0,
                         lost := bitOf (fieldAt bs 0x50 4) 1 }
      let b := (List.range 8).foldl (fun b v =>
        let rec_ := (bs.drop (0x60 + 16 * v)).take 16
        let b := b.loadImage (Reg.SLC_VC_CNT s v) rec_
        b.setWord (Reg.SLC_VC_SEL s v) (BitVec.ofNat 32 (rebase (fieldAt rec_ 8 4) 13 src d.ctlVec))) b
      let mb := b.rd (Reg.SLC_BASE s) F.SLC_BASE_meter_base
      let b := (List.range (blobMeter bs)).foldl (fun b i =>
        let r := bs.drop (0x100 + 32 * i)
        let w := fun (off : Nat) => BitVec.ofNat 32 (fieldAt r off 4)
        (((b.setWord (Reg.SCH_METER_CIR (mb + i)) (w 0)).setWord (Reg.SCH_METER_PIR (mb + i)) (w 4)).setWord
          (Reg.SCH_METER_CBS (mb + i)) (w 8)).setWord (Reg.SCH_METER_PBS (mb + i)) (w 12)) b
      let m := (List.range (blobQp bs)).foldl (fun m q =>
        m.loadPair s q src d.ctlVec (bs.drop (0x100 + 32 * blobMeter bs + 64 * q))) { m with base := b }
      m.ctlDone d 0 0x00 0 0

/-- A blob read ends (R196): the header is checked before the rest is read, the whole before anything is built. -/
def Mod.blobReadDone (m : Mod) (c : Cpl) : Mod :=
  match m.slc.blob with
  | none => m
  | some x =>
    if x.save then m
    else
      match m.gather .blob c with
      | (m, none) => m
      | (m, some (len, c)) =>
        let m := m.endTag .blob c.status
        let m := { m with slc := { m.slc with blob := none } }
        match m.qe.desc x.desc with
        | none => m
        | some d =>
          if c.status != CplStatus.ok || decide (c.data.length < len) then
            m.ctlDone d 0xB (if c.status == CplStatus.ok then 0x21 else cplToStatus c.status) 0 0
          else
            let data := x.data ++ c.data.take len
            if !blobHeaderOk data then m.ctlDone d 0xA 0x28 0 0
            else if data.length < blobLen data then
              m.blobRead d { x with data := data } (blobLen data - data.length)
            else if !blobCrcOk data then m.ctlDone d 0xA 0x28 0 0
            else m.restoreBuild d data

/-! ### The host read of an image update (R334) -/

/-- An update whose file cannot be read ends with result 1. -/
def Mod.imgFail (m : Mod) : Mod :=
  let a := Reg.CLK_IMG_CTL
  { m with base := (m.base.wr a F.CLK_IMG_CTL_done 1).wr a F.CLK_IMG_CTL_result 1, pl := { m.pl with img := none } }

/-- The management cores read the next part of the file, at most 4 KiB, with Bus Master Enable set (R211), through guard 20 and with a tag
of the manager's upstream port (R210); one that finds no tag free waits. -/
def Mod.imgPump (m : Mod) : Mod :=
  match m.pl.img with
  | none => m
  | some x =>
    if x.smbus || decide (1024 * x.len ≤ x.got) || (m.tagOf .image).isSome then m
    else
      let p := m.base.manager
      let pas := some (m.base.slicePasid 0)
      let addr := m.base.word64 Reg.CLK_IMG_ADDR / 4096 * 4096 + x.got
      let len := min 4096 (1024 * x.len - x.got)
      match m.base.upstreamPort p, m.base.bme p with
      | some port, true =>
        match m.freeTag port with
        | none => m
        | some t =>
          let (b, d) := m.base.guard 20
            { space := 1, sel := p, addr := addr, len := len, rd := true, secure := true, pasid := pas, ident := 20 }
          if d.isSome then ({ m with base := b } : Mod).imgFail
          else ({ m with base := b.emit (.hostRead p addr pas len x.got) } : Mod).takeTag port t len .image
      | _, _ => m.imgFail

/-- A read of the file ends. -/
def Mod.imgReadDone (m : Mod) (c : Cpl) : Mod :=
  match m.gather .image c with
  | (m, none) => m
  | (m, some (len, c)) =>
    let m := m.endTag .image c.status
    match m.pl.img with
    | none => m
    | some x =>
      if c.status != CplStatus.ok || decide (c.data.length < len) then m.imgFail
      else ({ m with pl := { m.pl with img := some { x with got := x.got + len } } } : Mod).imgPump

/-! ### THAW (R197) -/

/-- A recorded doorbell is acted on at THAW (R197). -/
def Mod.thawDoorbell (m : Mod) (s r v : Nat) : Mod :=
  if r < 64 then
    let g := m.base.qpBase s + r
    if m.base.qpState s r = 1 && v = (m.qe.qp g).tail then m else m.sqAct .smbus s r v
  else if r < 128 then m.cqAct .smbus s (r - 64) v
  else m.eqAct s v

/-- THAW (R197): ACTIVE, recorded doorbells act, rings with something to signal send their message, meters start full. -/
def Mod.ctlThaw (m : Mod) : Mod :=
  match m.ctlTake 7 with
  | (m, none) => m
  | (m, some d) =>
    let s := d.ctlSlice
    let rec_ := m.qe.recorded.filter (fun x => x.1 == s)
    let m := { m with base := m.base.setSliceState s 1,
                      qe := { m.qe with recorded := m.qe.recorded.filter (fun x => x.1 != s) } }
    let m := rec_.foldl (fun m x => m.thawDoorbell s x.2.1 x.2.2) m
    let m := (List.range (m.base.qpCount s)).foldl (fun m q =>
      let g := m.base.qpBase s + q
      let held := m.base.pend.any (fun x => x.src == .qp g)
      if decide (0 < (m.qe.qp g).unsignalled) || held then
        (({ m with base := m.base.dropPending (.qp g) } : Mod).ringMessage s q g)
      else m) m
    let lo := m.base.rd (Reg.SLC_BASE s) F.SLC_BASE_meter_base
    let m := (List.range (m.base.rd (Reg.SLC_RES s) F.SLC_RES_meter_count)).foldl (fun m i => m.meterChanged (lo + i) false) m
    m.ctlDone d 0 0x00 0 0

/-! ### SCRUB (R189) -/

/-- SCRUB (R189): every object tagged with the slot is discarded, the page zeroed; it completes within 10 ms. -/
def Mod.ctlScrub (m : Mod) : Mod :=
  match m.ctlTake 8 with
  | (m, none) => m
  | (m, some d) =>
    let s := d.ctlSlice
    let es := m.prk.entries.filter (fun e => e.slice == s)
    let runs := m.hod.runs.filter (fun r => r.slice == s)
    let ds := m.qe.descs.filter (fun x => x.slice == s)
    let n := es.length + runs.length + m.heldCount s + ds.length
    let m := (runs.foldl (fun m r => m.abort r.h r.c true) m).dropHeld s
    let m := { m with prk := { m.prk with entries := m.prk.entries.filter (fun e => e.slice != s) },
                      qe := { m.qe with descs := m.qe.descs.filter (fun x => x.slice != s) } }
    let m := if n = 0 then m else { m with base := m.base.raise { group := 17, bit := 2, scope := .slice s, detail := n } }
    let m := m.empty s 7
    { m with slc := { m.slc with scrub := some (d.id, s) }, qe := m.qe.setDesc { d with phase := .waiting },
             base := m.base.arm (.scrub s) (10 * ms) }

/-- The scrub walk ends (R189): stored generation 0, EMPTY, and SCRUB completes. -/
def Mod.scrubDone (m : Mod) (s : Nat) : Mod :=
  match m.slc.scrub with
  | none => m
  | some (id, t) =>
    if t ≠ s then m
    else
      let m := { m with slc := { m.slc with scrub := none },
                        base := (m.base.disarm (.scrub s)).setWord (Reg.SLC_STATE s) 0#32 }
      match m.qe.desc id with
      | some d => m.ctlDone d 0 0x00 0 0
      | none => m

end Sys2Proof.Machine
end

