-- ==== Sys2Proof/Machine/Ports.lean ====
section
/-! DEFINITION. The PCI Express ports (R199-R223) and the resets of a partition (R179, R180, R212): links, credits, virtual
link state, containment, Bus Master Enable, function resets, completion timeouts and late completions, link power. -/

namespace Sys2Proof.Machine

/-! ### Errors that the PCI Express specification defines (R220, R296) -/

/-- The configuration function of a port (R201). -/
def Base.portFn (b : Base) (p : Nat) : Nat := if b.portRole p == 1 then 8 + b.portPart p else 24 + p

/-- An error of R296 on a port: AER on its function and the port's event with cause 2. -/
def Base.portErr (b : Base) (p bit sev : Nat) (hdr : List Nat) : Base :=
  (b.aerError (b.portFn p) bit hdr).raise (b.portEv p 2 sev)

/-! ### The nesting of timeouts (R307) -/

/-- The times of the FAB and BND registers as they act: values below a field's least act as that least. -/
def Base.replayNs (b : Base) (k : Nat) : Nat := max 500 (b.rd (Reg.FAB_CFG k) F.FAB_CFG_replay_ns)
def Base.replayMax (b : Base) (k : Nat) : Nat := max 1 (b.rd (Reg.FAB_CFG k) F.FAB_CFG_replay_max)
def Base.trainNs (b : Base) (k : Nat) : Nat := max 1 (b.rd (Reg.FAB_TIME k) F.FAB_TIME_train_ms) * ms
def Base.resendNs (b : Base) : Nat := max 1 (b.rd Reg.BND_TIME F.BND_TIME_resend_us) * us
def Base.hbNs (b : Base) : Nat := max 1 (b.rd Reg.BND_TIME F.BND_TIME_hb_ms) * ms
def Base.collectNs (b : Base) : Nat := max 1 (b.rd Reg.BND_TIME F.BND_TIME_collect_ms) * ms

/-- Do the lines of R307 hold, for a Camtex port, a downstream port, a partition? -/
def Base.line4 (b : Base) (k : Nat) : Bool :=
  let r := b.replayNs k * b.replayMax k
  let t := b.resendNs
  decide (r < t) && decide (t < ms)
def Base.hostTimeout (b : Base) (p : Nat) : Nat := cplTimeoutNs (b.cfg p 0x98 % 16)
def Base.line5Port (b : Base) (p : Nat) : Bool := decide (ms < cplTimeoutNs (b.rd (Reg.PRT_CPL_TO p) F.PRT_CPL_TO_value))
def Base.line5Host (b : Base) (p : Nat) : Bool := decide (ms < b.hostTimeout p)
def Base.line6 (b : Base) (k p : Nat) : Bool :=
  decide (8500 * us + b.trainNs k < b.hostTimeout p)
def Base.line7 (b : Base) : Bool :=
  decide (5 * b.hbNs + 2 * b.collectNs ≤ 60 * ms)

/-- EVT_NEST shows which of the lines 4 to 7 are broken now (R307). -/
def Base.showNest (b : Base) : Base :=
  let ks := List.range 8
  let b := b.flag Reg.EVT_NEST F.EVT_NEST_line4 (!ks.all b.line4)
  let ports := (List.range 64).filter (fun p => b.portRole p == 2)
  let b := b.flag Reg.EVT_NEST F.EVT_NEST_line5 (!(ports.all b.line5Port && b.partitions.all b.line5Host))
  let b := b.flag Reg.EVT_NEST F.EVT_NEST_line6 (!b.partitions.all (fun p => ks.all (fun k => b.line6 k p)))
  b.flag Reg.EVT_NEST F.EVT_NEST_line7 (!b.line7)

/-- A write of a field that R307 names is done: `ok` says whether its own lines hold; if not, event 0:7. -/
def Base.nestWrite (b : Base) (ok : Bool) : Base :=
  let b := b.showNest
  if ok then b else b.raise { group := 0, bit := 7 }

/-! ### Virtual link state and its messages (R214, R289) -/

/-- A virtual port shows presence and link (R214): a change sets the matching changed bit of Slot Status, and sends the
port's MSI when the host has enabled it. -/
def Base.virtualLink (b : Base) (fn part : Nat) (present link quiet : Bool) : Base :=
  let w := b.cfg fn 0x88
  let l := b.cfg fn 0x80
  let dp := bitOf w 22 != present
  let dl := bitOf l 29 != link
  let w := putBits w ⟨22, 1⟩ (b2n present)
  let w := if quiet then w else (w ||| (2 ^ 19 * b2n dp)) ||| (2 ^ 24 * b2n dl)
  let b := (b.setCfg fn 0x88 w).setCfg fn 0x80 (putBits l ⟨29, 1⟩ (b2n link))
  let tell := bitOf w 5 && ((dp && bitOf w 3) || (dl && bitOf w 12))
  if !quiet && tell then b.portMsi fn part else b

/-- Presence, containment and FAILED of a downstream port's slot. -/
def Base.portSlotState (b : Base) (p : Nat) : Bool × Bool × Bool :=
  let n := b.rd (Reg.PRT_CFG p) F.PRT_CFG_slot
  (b.isSet (Reg.PRT_SLOT p) F.PRT_SLOT_present, b.contained p, decide (n < 56) && b.slotState n == 9)

/-- The virtual link state of a downstream port follows its slot (R214); a lent port's borrower is told instead (R289). -/
def Mod.refreshPort (m : Mod) (quiet : Bool) (p : Nat) : Mod :=
  if m.base.portRole p != 2 then m
  else
    let (pres, cont, fail) := m.base.portSlotState p
    let m := { m with base := m.base.virtualLink (24 + p) (m.base.portPart p) pres (pres && !cont && !fail) quiet }
    if m.base.isSet (Reg.BND_PORT_LEND p) F.BND_PORT_LEND_valid && !quiet then
      m.toBond { dstPath := m.base.rd (Reg.BND_PORT_LEND p) F.BND_PORT_LEND_borrower_path, stype := .msg, origin := p,
                 data := leBytes 4 (3 + 2 ^ 8 * p) ++ leBytes 4 (b2n pres + 2 * b2n cont + 4 * b2n fail) }
    else m

/-- Every port whose slot changed in this command shows it. -/
def Mod.refreshPorts (m : Mod) : Mod :=
  m.dirty.eraseDups.foldl (fun m p => m.refreshPort false p) { m with dirty := [] }

/-! ### Links (R207, R214, R296) -/

/-- The scale that carries a credit count of at most 127 or 2,047 per unit, and the count rounded down to it (R207). -/
def scaleCredit (v unit : Nat) : Nat × Nat :=
  if v ≤ unit then (1, v) else if v ≤ 4 * unit then (2, v / 4 * 4) else (3, min v (16 * unit) / 16 * 16)

/-- What a link without scaled flow control carries (R207): at most one unit, under scale code 0. -/
def plainCredit (v unit : Nat) : Nat × Nat := (0, min v unit)

/-- The initial advertisement of a port for a virtual channel (R207), on a link with or without scaled flow control; it asks for admission
of the cells that it reserves as every release of credits does (R51). -/
def Mod.advertise (m : Mod) (p v : Nat) (scaled : Bool) : Mod :=
  let g := tget m.sw.gmin (3 * p + v)
  let h := if v = 1 then g / 2 else g / 4
  let scale := if scaled then scaleCredit else plainCredit
  let (hs, h') := scale h 127
  let (ds, d') := scale (16 * (g - h)) 2047
  let w := h' % 4096 + 2 ^ 12 * (d' % 65536) + 2 ^ 28 * hs + 2 ^ 30 * ds
  ({ m with base := m.base.setWord (Reg.PRT_FC_ADV p v) (BitVec.ofNat 32 w),
            sw := m.sw.setCredit { port := p, vc := v, hdrPend := h', dataPend := d', first := true } } : Mod).releaseCredit p v

/-- The idle count of an upstream link starts over (R221). -/
def Base.restartL1 (b : Base) (p : Nat) : Base :=
  if b.portRole p == 1 && b.linkUp p then
    let b := if b.rd (Reg.PRT_STATUS p) F.PRT_STATUS_pm < 4 then b.wr (Reg.PRT_STATUS p) F.PRT_STATUS_pm 0 else b
    b.arm (.l1Idle p) (max 1 (b.rd (Reg.PRT_PM p) F.PRT_PM_l1_idle_us) * us)
  else b

/-- The lanes of a port run at a rate, as SER_STATUS codes it, 0 idle; logical lane i is its i-th lane (R241). -/
def Base.setLanes (b : Base) (p rate : Nat) : Base :=
  ((List.range 256).filter (fun l => b.rd (Reg.SER_STATUS l) F.SER_STATUS_port == p)).foldl (fun b l =>
    (b.wr (Reg.SER_STATUS l) F.SER_STATUS_rate rate).wr (Reg.SER_STATUS l) F.SER_STATUS_port_lane
      ((l - b.firstLane p) % 16)) b

/-- A PCI Express link comes up (R214, R219): status, credits, the function's Link Status and Data Link Feature Status, and the shelf's slot.
A link at 64 GT/s runs in FLIT mode (R200). -/
def Mod.portUp (m : Mod) (p : Nat) (l : LinkUp) : Mod :=
  let width := min l.width 16
  let rate := min l.rate 5
  let flit := l.flit || rate == 5
  let role := m.base.portRole p
  if role = 0 || 3 < role then m
  else
    let a := Reg.PRT_STATUS p
    let was := m.base.linkUp p
    let b := (((m.base.wr a F.PRT_STATUS_link_up 1).wr a F.PRT_STATUS_width width).wr a F.PRT_STATUS_rate rate).wr a
      F.PRT_STATUS_flit (b2n flit)
    let b := (b.wr a F.PRT_STATUS_pm 0).setLanes p (rate + 1)
    let m : Mod := if was then { m with base := b } else ({ m with base := b } : Mod).trained p l
    let b := m.base
    let fn := b.portFn p
    let b := if role = 3 then b
      else (b.setCfg fn 0x80 (putBits (putBits (b.cfg fn 0x80) ⟨16, 4⟩ (rate + 1)) ⟨20, 6⟩ width)).setCfg fn 0x18C
        (2 ^ 31 + b2n l.scaled)
    let b := { b with released := b.released.filter (fun q => q != p) }
    let b := if was then b else b.raise (b.portEv p 3 0)
    let m : Mod := { m with base := b.restartL1 p }
    let m : Mod := if was then m else (List.range 3).foldl (fun m v => m.advertise p v l.scaled) m
    let n := m.base.rd (Reg.PRT_CFG p) F.PRT_CFG_slot
    if role = 2 && decide (n < 56) then m.shelfLinkUp n else m

/-- A slot's link comes up, as the shelf's own row says it (R94): its port too, if it was not up and `may` train. -/
def Mod.slotLinkUp (m : Mod) (n : Nat) (l : LinkUp) (may : Nat → Bool) : Mod :=
  match m.base.slotPort n with
  | none => m.shelfLinkUp n
  | some p => if m.base.linkUp p then m.shelfLinkUp n else if may p then m.portUp p l else m

/-- The port itself is down: status, the event, and the credits that its partner held (R51). -/
def Mod.linkGone (m : Mod) (p : Nat) : Mod :=
  let a := Reg.PRT_STATUS p
  let b := (((m.base.wr a F.PRT_STATUS_link_up 0).wr a F.PRT_STATUS_pm 4).disarm (.l1Idle p)).setLanes p 0
  ({ m with base := b.raise (b.portEv p 3 0),
            sw := { m.sw with credits := m.sw.credits.filter (fun c => c.port != p), idleAt := tset m.sw.idleAt p b.now } } : Mod).dropCopies p false

/-! ### Bus Master Enable (R179, R211) -/

/-- The tags of a port that are in use. -/
def Mod.tagsOut (m : Mod) (port : Nat) : List TagUse := m.tags.filter (fun t => t.port == port && t.owner.isSome)

/-- The reads of `old` that have been given up since are logged under a reason if they still arrive (R211, R212). -/
def Mod.giveReason (m : Mod) (old : List TagUse) (reason : Nat) : Mod :=
  { m with tags := m.tags.map (fun t =>
      if t.owner.isNone && old.any (fun o => o.port == t.port && o.tag == t.tag) then { t with reason := reason } else t) }

/-- Does a run still need requests to host memory of partition p (R179)? -/
def Mod.needsHost (r : HodRun) (p : Nat) : Bool :=
  r.part == some p &&
  (r.dst.space == 0 ||
   (r.src.space == 0 && (decide (r.asked < r.count) || r.reads.any (fun x => !x.dest && x.data.isNone) || !r.failed.isEmpty)))

/-- Park work of partition p that still needs host requests ends with ABORTED (R179). -/
def Mod.abortHostPark (m : Mod) (p : Nat) : Mod :=
  (m.prk.entries.filter (fun e => e.part == p &&
    (e.state == 1 || (e.state == 6 && (e.read || (e.refetch && decide (e.sent + e.buf.length < e.length))))))).foldl
    (fun m e => m.finishIdx e.idx 0x25) m

/-- A blob read of the manager's that is out ends with ABORTED (R179, R196). -/
def Mod.abortBlob (m : Mod) (p : Nat) : Mod :=
  match m.slc.blob with
  | none => m
  | some x =>
    if x.save || m.base.slicePart 0 != p then m
    else
      let m := { (m.quarantine .blob 1) with slc := { m.slc with blob := none } }
      match m.qe.desc x.desc with
      | some d => m.ctlDone d 0xB 0x25 0 0
      | none => m

/-- The host read of an image update ends when partition p, the manager, stops it with Bus Master Enable or a reset (R211, R212). -/
def Mod.abortImage (m : Mod) (p : Nat) : Mod :=
  match m.pl.img with
  | none => m
  | some x => if x.smbus || m.base.manager != p || decide (1024 * x.len ≤ x.got) then m else m.imgFail

/-- Bus Master Enable of partition p's control endpoint is cleared (R179, R211): fetch turns are taken back, work that
needs the host ends with ABORTED, and reads that are out are given up with reason 0b01. -/
def Mod.bmeClear (m : Mod) (p : Nat) : Mod :=
  let b := m.base.setCfg p 0x04 (putBits (m.base.cfg p 0x04) ⟨2, 1⟩ 0)
  let m := { m with base := b }
  let old := match m.base.upstreamPort p with
    | some q => m.tagsOut q
    | none => []
  let m := (m.qe.turns.filter (fun t => t.part == p)).foldl (fun m t =>
    (t.reads.foldl (fun m r => m.quarantine (.fetch p r.id) 1) m).rewindTurn t) m
  let m := (m.hod.runs.filter (fun r => Mod.needsHost r p)).foldl (fun m r => m.abortRun r) m
  let m := (m.abortHostPark p).abortBlob p
  let m := if m.base.manager == p then (m.abortImage p).quarantine .image 1 else m
  m.giveReason old 1

/-- Bus Master Enable is set (R179): held entries and messages go out in order. -/
def Mod.bmeSet (m : Mod) (p : Nat) : Mod :=
  let b := m.base.setCfg p 0x04 (putBits (m.base.cfg p 0x04) ⟨2, 1⟩ 1)
  let (go, stay) := b.held.partition (fun x => b.heldPart x == p)
  go.foldl Mod.release { m with base := { b with held := stay } }

/-! ### Resets of a partition (R180, R212, R216) -/

/-- A function's configuration space returns to reset, but for the sticky words of AER (PCI Express) and, on a port, what Link Status and
Slot Status show of the link and the slot (R214). -/
def Base.resetCfg (b : Base) (fn : Nat) : Base :=
  let link := b.cfg fn 0x80
  let feature := b.cfg fn 0x18C
  let here := bitOf (b.cfg fn 0x88) 22
  let b := { b with cfgs := b.cfgs.filter (fun x =>
      !(x.1 / 4096 == fn) || (decide (0x100 ≤ x.1 % 4096) && decide (x.1 % 4096 < 0x130))) }
  if fn < 8 || (16 ≤ fn && fn < 24) then b
  else
    let b := (b.setCfg fn 0x80 (b.cfg fn 0x80 % 2 ^ 16 + link / 2 ^ 16 % 2 ^ 14 * 2 ^ 16)).setCfg fn 0x18C feature
    if fn < 16 then b else b.setCfg fn 0x88 (putBits (b.cfg fn 0x88) ⟨22, 1⟩ (b2n here))

/-- BAR4 of partition p returns to its reset state (R180). -/
def Base.resetBar4 (b : Base) (p : Nat) : Base :=
  { b with msix := b.msix.filter (fun x => x.1 / 65536 != p), pend := b.pend.filter (fun x => x.part != p) }

/-- Does work still wait for a read? A fetch whose turn is gone, and a blob read whose SLICE_CTL is gone, have none. -/
def Mod.awaited (m : Mod) (t : TagUse) : Bool :=
  match t.owner with
  | none => false
  | some (.fetch p id) => m.qe.turns.any (fun x => x.part == p && x.reads.any (fun r => r.id == id))
  | some .blob => m.slc.blob.isSome
  | some .image => m.pl.img.isSome
  | some _ => true

/-- The work of these reads has ended; the reset waits for the reads themselves (R212). -/
def Mod.awaitDrained (m : Mod) (old : List TagUse) (timers : List Timer) : Mod :=
  old.foldl (fun m o =>
    match m.tags.find? (fun t => t.port == o.port && t.tag == o.tag && !m.awaited t) with
    | none => m
    | some t =>
      if o.seen then
        ({ m with tags := m.tags.filter (fun x => x != t), base := (m.base.disarm (.quarantine o.port o.tag)).disarm (.cplTimeout o.port o.tag) }
          : Mod).showTags o.port
      else
      let due := ((timers.find? (fun x => x.key == .cplTimeout o.port o.tag)).map Timer.due).getD m.base.now
      let b := (m.base.disarm (.quarantine o.port o.tag)).arm (.cplTimeout o.port o.tag) (due - m.base.now)
      ({ m with tags := m.tags.map (fun x => if x == t then { t with owner := some .drained } else x),
                base := b } : Mod).showTags o.port) m

/-- A slice meets a reset of its partition (R180, R192): brought to rest, or its rings reset where it is at rest; its lines drain and its
reservation is lost (R130, R137). -/
def Mod.resetSlice (m : Mod) (s : Nat) : Mod :=
  let st := m.base.sliceState s
  let m := (m.loseRsv (fun r => r.slice == s) 4).restLines s false
  if st = 3 || st = 6 then m.resetRings s
  else if st = 5 then
    let m := m.resetRings s
    { m with base := m.base.setSliceState s 3 }
  else m.bringToRest s 3 ((m.slc.run s).bind SliceRun.desc)

/-- A Function Level Reset of partition p's control endpoint (R180, R212). -/
def Mod.flr (m : Mod) (p : Nat) : Mod :=
  let up := m.base.upstreamPort p
  let old := match up with
    | some q => m.tagsOut q
    | none => []
  let timers := m.base.timers
  let limit := m.base.hostTimeout p
  let m := { m with base := (m.base.resetCfg p).resetBar4 p }
  let m := (m.base.liveSlices.filter (fun s => m.base.slicePart s == p)).foldl (fun m s => m.resetSlice s) m
  let m := m.abortImage p
  let m := (m.base.liveSlices.filter (fun s => m.base.slicePart s == p)).foldl Mod.dropHeld m
  let m := { m with base := { m.base with held := m.base.held.filter (fun x => m.base.heldPart x != p) } }
  let m := m.awaitDrained old timers
  let b := m.base.showNest
  if old.isEmpty then { m with base := b } else { m with base := b.arm (.resetDrain p) (min limit (90 * ms)) }


/-- A hot reset or link-down of partition p's upstream port (R130, R180, R216): its merge lines drain, the endpoint is
reset, and the partition's virtual functions, those of borrowed shelves too, return to reset. -/
def Mod.upstreamReset (m : Mod) (p : Nat) : Mod :=
  let m := (m.drainPath p).flr p
  let ports := (List.range 64).filter (fun q => m.base.portRole q == 2 && m.base.portPart q == p)
  let b := (m.base.resetCfg (8 + p)).resetCfg (16 + p)
  let b := ports.foldl (fun b q => b.resetCfg (24 + q)) b
  let b := (List.range 32).foldl (fun b d => b.resetCfg (88 + 32 * p + d)) b
  ports.foldl (fun m q => m.refreshPort true q) { m with base := b }

/-- A PCI Express link goes down (R95, R180, R296). -/
def Mod.portDown (m : Mod) (p : Nat) : Mod :=
  let role := m.base.portRole p
  if role = 0 || 3 < role || !m.base.linkUp p then m
  else
    let m := m.linkGone p
    if role = 1 then
      ({ m with base := m.base.raise (m.base.portEv p 2 1) } : Mod).upstreamReset (m.base.portPart p)
    else if role = 2 then
      let n := m.base.rd (Reg.PRT_CFG p) F.PRT_CFG_slot
      let st := m.base.slotState n
      let hot := (m.prk.slot n).paused
      let m := if decide (n < 56) && (st == 5 || st == 6) && !hot then { m with base := m.base.portErr p 5 1 [] } else m
      let m := if n < 56 then m.shelfLinkDown n else m
      let m := m.hodPortGone p
      { m with sw := { m.sw with forwarded := m.sw.forwarded.filter (fun x => x.1 != p) } }
    else m

/-- A shelf link leaves L0 and L1, as the shelf's own row says it (R95): its port goes down with it. -/
def Mod.slotLinkDown (m : Mod) (n : Nat) : Mod :=
  match m.base.slotPort n with
  | none => m.shelfLinkDown n
  | some p => if m.base.linkUp p then m.portDown p else m.shelfLinkDown n

/-! ### Containment, presence and hot reset (R215-R219) -/

/-- A host-enabled DPC trigger (R217): only a downstream port whose Trigger Enable is not 0 is contained by it. -/
def Mod.dpcTrigger (m : Mod) (p reason ext : Nat) : Mod :=
  if m.base.portRole p != 2 || !m.base.dpcOn p || m.base.contained p then m
  else ({ m with base := m.base.dpcStatus p reason ext } : Mod).containPort p 0

/-- The host clears DPC Trigger Status (R219). -/
def Mod.dpcClear (m : Mod) (p : Nat) : Mod :=
  let w := m.base.cfg (24 + p) 0x2A8
  if m.base.portRole p != 2 || !bitOf w 0 then m
  else ({ m with base := m.base.setCfg (24 + p) 0x2A8 (w - 1) } : Mod).releasePort p

/-- A write of PRT_CTL (R217, R219). -/
def Mod.portCtl (m : Mod) (who : Who) (p v : Nat) : Mod :=
  if m.base.portRole p != 2 then m
  else if bitOf v 0 && bitOf v 1 then { m with base := m.base.misuse who 0 }
  else if bitOf v 0 then m.containPort p 3
  else if bitOf v 1 then m.releasePort p
  else m

/-- A write of PRT_SLOT (R215): changed is cleared by 1; a change of present removes the shelf or ends containment. -/
def Mod.slotWrite (m : Mod) (p v : Nat) : Mod :=
  if m.base.portRole p != 2 then m
  else
    let a := Reg.PRT_SLOT p
    let b := if bitOf v 1 then m.base.wr a F.PRT_SLOT_changed 0 else m.base
    let old := b.isSet a F.PRT_SLOT_present
    if bitOf v 0 == old then { m with base := b }
    else
      let b := (b.wr a F.PRT_SLOT_present (b2n (bitOf v 0))).wr a F.PRT_SLOT_changed 1
      let n := b.rd (Reg.PRT_CFG p) F.PRT_CFG_slot
      if old then
        let b := b.bump (Reg.PRT_CNT p 5)
        let m := { m with base := b, dirty := m.dirty ++ [p] }
        if n < 56 then m.surpriseRemoval n else m.containPort p 2
      else
        let m := ({ m with base := b, dirty := m.dirty ++ [p] } : Mod).releasePort p
        { m with prk := { m.prk with planDue := true } }

/-- Secondary Bus Reset is set or cleared on a shelf's virtual port (R216): a hot reset while the link is up, under which
the sweep pauses until the link has retrained. -/
def Mod.busReset (m : Mod) (p : Nat) (set : Bool) : Mod :=
  if m.base.portRole p != 2 then m
  else
    let b := m.base.setCfg (24 + p) 0x3C (putBits (m.base.cfg (24 + p) 0x3C) ⟨22, 1⟩ (b2n set))
    let m := { m with base := b }
    if !m.base.linkUp p then m
    else
      let n := m.base.rd (Reg.PRT_CFG p) F.PRT_CFG_slot
      let m := { m with base := m.base.emit (.hotReset p set) }
      if set && decide (n < 56) && m.base.slotState n == 6 then
        (({ m with prk := m.prk.setSlot { (m.prk.slot n) with paused := true } } : Mod)).returnSweep n
      else m

/-- A write of a port's MC_Receive bit for group g of its partition (R206). -/
def Mod.mcReceive (m : Mod) (p g : Nat) (v : Bool) : Mod :=
  let a := Reg.PRT_MC p
  if m.base.rd a F.PRT_MC_mc_count ≤ g then m
  else
    let fn := m.base.portFn p
    let c := 0x280 + 4 * (g / 32)
    let b := m.base.setCfg fn c (putBits (m.base.cfg fn c) ⟨g % 32, 1⟩ (b2n v))
    let k := m.base.rd a F.PRT_MC_mc_base + g
    { m with base := b.setWord64 (Reg.XBR_MC_VEC k) (putBits (b.word64 (Reg.XBR_MC_VEC k)) ⟨p, 1⟩ (b2n v)) }

/-! ### Link power (R221, R222) -/

/-- Is a shelf port of the partition in L1, down or asleep (R221)? -/
def Base.shelfQuiet (b : Base) (q : Nat) : Bool :=
  let pm := b.rd (Reg.PRT_STATUS q) F.PRT_STATUS_pm
  !b.linkUp q || (decide (1 ≤ pm) && decide (pm ≤ 4)) || b.slotState (b.rd (Reg.PRT_CFG q) F.PRT_CFG_slot) == 0

/-- May upstream port p enter L1 (R221)? The idle time has passed. -/
def Mod.mayL1 (m : Mod) (p : Nat) : Bool :=
  let part := m.base.portPart p
  m.base.portRole p == 1 && m.base.linkUp p && m.base.rd (Reg.PRT_STATUS p) F.PRT_STATUS_pm == 0 &&
  bitOf (m.base.cfg (8 + part) 0x80) 1 && (m.tagsOut p).isEmpty &&
  !m.base.held.any (fun x => m.base.heldPart x == part) &&
  !m.qe.heldCpls.any (fun h => m.base.slicePart h.slice == part) &&
  ((List.range 64).filter (fun q => m.base.portRole q == 2 && m.base.portPart q == part)).all m.base.shelfQuiet

/-- The idle time of R221 has passed: L1, and below it L1.2 or L1.1 where the port offers and the host has enabled it
(R222); with a condition missing the count starts over. -/
def Mod.l1Expiry (m : Mod) (p : Nat) : Mod :=
  if !m.mayL1 p then { m with base := m.base.restartL1 p }
  else
    let c := m.base.cfg (8 + m.base.portPart p) 0x260
    let pm := if !m.base.isSet (Reg.PRT_CFG p) F.PRT_CFG_l1ss then 1 else if bitOf c 2 then 3 else if bitOf c 3 then 2 else 1
    let b := (m.base.wr (Reg.PRT_STATUS p) F.PRT_STATUS_pm pm).bump (Reg.PRT_CNT p 7)
    { m with base := b.emit (.l1Entry p), sw := { m.sw with idleAt := tset m.sw.idleAt p b.now } }

/-- Does the module pull HOST_CLKREQ_k# low (R222)? On a backplane upstream port that runs or trains, outside L1.1 and L1.2; that the
clock is asked for at all other times outside M2 is the model's choice (DESIGN CHOICE, log entry 45). -/
def Mod.wantsClock (m : Mod) (k : Nat) : Bool :=
  match m.base.upstreamPort k with
  | none => false
  | some p =>
    let pm := m.base.rd (Reg.PRT_STATUS p) F.PRT_STATUS_pm
    let stage := m.base.rd Reg.CLK_STATUS F.CLK_STATUS_stage
    m.pl.dieOn && decide (m.base.tileOf p < 24) && decide (4 ≤ stage) && decide (stage ≤ 6) && m.pl.m2 != 2 && pm != 2 && pm != 3

/-- The clock request signals follow the state of the links. -/
def Mod.showClkReq (m : Mod) : Mod :=
  let now := (List.range 8).filter m.wantsClock
  let b := (List.range 8).foldl (fun b k =>
    if now.contains k == m.pl.clkReq.contains k then b else b.emit (.clkReq k (now.contains k))) m.base
  { m with base := b, pl := { m.pl with clkReq := now } }

/-- HOST_PERST_k# deasserts (R332): partition k's upstream port starts to train. -/
def Mod.perstUp (m : Mod) (k : Nat) : Mod :=
  match m.base.upstreamPort k with
  | none => m
  | some p =>
    if m.base.linkUp p || m.base.rd Reg.CLK_STATUS F.CLK_STATUS_stage < 4 then m
    else { m with base := m.base.trainPort p }

/-- HOST_PERST_k# asserts (R223): a link-down reset of partition k's upstream port. -/
def Mod.perstDown (m : Mod) (k : Nat) : Mod :=
  match m.base.upstreamPort k with
  | none => m
  | some p => if m.base.linkUp p then m.portDown p
              else ({ m with base := m.base.wr (Reg.PRT_STATUS p) F.PRT_STATUS_pm 4 } : Mod).upstreamReset k

/-! ### Reads that end without their completion, and late completions (R208-R213) -/

/-- The owner of a read takes its end. -/
def Mod.ownerDone (m : Mod) (o : TagOwner) (c : Cpl) : Mod :=
  match o with
  | .fetch p id => m.fetchDone p id c
  | .hod h id =>
    match m.hod.run h with
    | some r => if r.flushing && r.reads.any (fun x => x.flush && x.id == id) then m.flushDone h c.status
                else m.hodReadDone h id c
    | none => m
  | .ingest e off => m.ingestDone e off c
  | .sweepRead e off => m.sweepData e off c o
  | .refetch e off => m.sweepData e off c o
  | .sweepFlush e => m.sweepFlushDone e c.status
  | .blob => m.blobReadDone c
  | .image => m.imgReadDone c
  | .poll n => m.pollDone n c
  | .drained => m

/-- The drain of R212 ends: the reads that remain are given up with reason 0b10, and work that still waited for one ends. -/
def Mod.drainEnd (m : Mod) (p : Nat) : Mod :=
  match m.base.upstreamPort p with
  | none => m
  | some q =>
    let old := m.tagsOut q
    (old.foldl (fun m t =>
      match t.owner with
      | some .drained => m.quarantineTag t 2
      | some o =>
        let m := m.ownerDone o ⟨.timeout, []⟩
        if m.tags.contains t then m.quarantineTag t 2 else m
      | none => m) m).giveReason old 2

/-- The function that issued the reads of a port reports an error of R220: the endpoint for host memory, the shelf's
virtual port for a shelf. -/
def Base.readErr (b : Base) (port bit : Nat) (hdr : List Nat) : Base :=
  if b.portRole port == 1 then b.hostErr (b.portPart port) bit 0 hdr else b.portErr port bit 0 hdr

/-- A read times out (R208, R210, R220): reported and counted, its tag quarantined, and its owner told. -/
def Mod.readTimedOut (m : Mod) (port tag : Nat) : Mod :=
  match m.tags.find? (fun t => t.port == port && t.tag == tag && t.owner.isSome) with
  | none => m
  | some t =>
    let b := ((m.base.bump (Reg.PRT_CNT port 6)).occ 0x203 port none 1).readErr port 14 []
    let m := { m with base := b }
    match t.owner with
    | none => m
    | some o =>
      let m := m.ownerDone o ⟨.timeout, []⟩
      if m.tags.contains t then m.quarantineTag t 0 else m

/-- A quarantined tag returns to use (R210). -/
def Mod.tagBack (m : Mod) (port tag : Nat) : Mod :=
  { m with tags := m.tags.filter (fun t => !(t.port == port && t.tag == tag && t.owner.isNone)) }

/-- A late completion is counted, logged if it is the first, and reported unless it follows a Bus Master Enable clear
(R211-R213). -/
def Base.logLate (b : Base) (port tag reason : Nat) (hdr : List W32) : Base :=
  let b := b.bump (Reg.PRT_CNT port 0)
  let a := Reg.PRT_LATE_INFO port
  let b := if b.isSet a F.PRT_LATE_INFO_valid then b
    else
      let b := (List.range 4).foldl (fun b i => b.setWord (Reg.PRT_LATE_LOG port i) (hdr.getD i 0#32)) b
      b.setWord a (BitVec.ofNat 32 (reason + 4 * (tag % 1024) + 2 ^ 31))
  if reason = 1 then b else b.readErr port 16 (hdr.map BitVec.toNat)

/-- A completion that no work waits for arrives (R210, R213): a quarantined tag returns to use; one that a reset waits
for just ends. -/
def Mod.lateCpl (m : Mod) (port tag : Nat) (hdr : List W32) : Mod :=
  match m.tags.find? (fun t => t.port == port && t.tag == tag) with
  | none => { m with base := m.base.logLate port tag 3 hdr }
  | some t =>
    match t.owner with
    | none =>
      let m := ({ m with base := m.base.disarm (.quarantine port tag) } : Mod).tagBack port tag
      { m with base := m.base.logLate port tag t.reason hdr }
    | some .drained =>
      ({ m with tags := m.tags.filter (fun x => x != t), base := m.base.disarm (.cplTimeout port tag) } : Mod).showTags port
    | some _ => m

/-- The frame record of a TLP that enters at a port (R39, R62). -/
def Base.ingressFrame (b : Base) (p q : Nat) (t : Tlp) : Frame :=
  let tc := bits (b.word (Reg.SCH_IN_TCMAP p)).toNat ⟨3 * (t.tc % 8), 3⟩
  let a := Reg.SCH_IN_METER p
  let meter := if t.kind != TlpKind.cpl && b.isSet a F.SCH_IN_METER_enable then some (b.rd a F.SCH_IN_METER_meter) else none
  { src := p, srcXp := b.tileOf p, srcSub := p, dstXp := b.tileOf q, dstSub := q, vc := tlpVc t, bytes := tlpBytes t, tlp := t,
    tc := tc, meter := meter, poison := t.ep }

/-- The crossbar port, and the hod in its group, of the unit that a read of the module's own belongs to; a queue engine has none: it is part
of the control endpoint (R23, R102). -/
def Mod.unitOf (m : Mod) (o : TagOwner) : Option (Nat × Nat) :=
  let engine := fun (i : Nat) => (m.prk.entry i).map (fun e => (32 + engineOf e.shelf, 0))
  match o with
  | .hod h _ => some (36 + h / 4, h % 4)
  | .ingest i _ | .sweepRead i _ | .refetch i _ | .sweepFlush i => engine i
  | .poll _ | .image => some (40, 0)
  | .fetch _ _ | .blob | .drained => none

/-- A hod's read gives up the reservation of the cells that a completion of it now fills (R113). -/
def Mod.hodCells (m : Mod) (o : TagOwner) (n : Nat) : Mod :=
  match o with
  | .hod h id =>
    match m.hod.run h with
    | none => m
    | some r =>
      match r.reads.find? (fun x => x.id == id) with
      | none => m
      | some x =>
        let (m, x) := m.fillCells x n
        { m with hod := m.hod.setRun { r with reads := r.reads.map (fun y => if y.id == id then x else y) } }
  | _ => m

/-- A completion of a read of the module's own has come in as frame `f` (R37, R40, R210, R213): it crosses the core to the unit that waits for
it; a queue engine takes it at once; a poisoned one is reported (R156, R220); one that no read waits for is late. `gone` marks one that a port made as it went. -/
def Mod.ownCompletion (m : Mod) (port : Nat) (f : Frame) (gone : Bool) : Mod :=
  let t := f.tlp
  let hdr := (m.base.header port t).map (BitVec.ofNat 32)
  match m.tags.find? (fun x => x.port == port && x.tag == t.tag) with
  | some u =>
    match u.owner with
    | none => (m.takeIn f).lateCpl port t.tag hdr
    | some o =>
      if o == .drained then (m.takeIn f).lateCpl port t.tag hdr
      else if u.seen then { (m.takeIn f) with base := (m.takeIn f).base.logLate port t.tag 3 hdr }
      else
        let st : CplStatus := if gone then .portGone else if t.status = 0 then (if t.ep then .poisoned else .ok)
          else if t.status = 4 then .ca else .ur
        let n := u.seenBytes + t.data.length
        let u' := { u with seenBytes := n, seen := st != CplStatus.ok || t.data.isEmpty || decide (u.len ≤ n) }
        let m := { m with tags := m.tags.map (fun x => if x == u then u' else x),
                          base := if st == CplStatus.poisoned then m.base.readErr port 12 (m.base.header port t) else m.base }
        match m.unitOf o with
        | none => (m.takeIn f).ownerDone o ⟨st, t.data⟩
        | some (xp, sub) => (m.hodCells o n).admitIngress { f with dstXp := xp, dstSub := sub, own := some (o, st) }
  | none => (m.takeIn f).lateCpl port t.tag hdr

/-- A write of PRT_CPL_TO (R208, R307). -/
def Mod.cplToWrite (m : Mod) (p v : Nat) : Mod :=
  let b := m.base.wr (Reg.PRT_CPL_TO p) F.PRT_CPL_TO_value v
  { m with base := b.nestWrite (b.portRole p != 2 || b.line5Port p) }

end Sys2Proof.Machine
end

