-- ==== Sys2Proof/Machine/Stream.lean ====
section
/-! DEFINITION. Camtex ports as the bond logic sees them, segments and their bytes (R271), routes (R270), and the outbound
streams: pinning, the hold buffer, re-pins, failure and SYNC (R272, R273, R275-R278). -/

namespace Sys2Proof.Machine

/-! ### Camtex ports -/

/-- The port of Camtex port k: role Camtex on tile T(24 + k). -/
def Base.camPort (b : Base) (k : Nat) : Option Nat :=
  (List.range 64).find? (fun p => b.portRole p == 4 && b.tileOf p == 24 + k)

/-- The state of Camtex port k as FAB_STATUS codes it. -/
def Base.camState (b : Base) (k : Nat) : Nat := b.rd (Reg.FAB_STATUS k) F.FAB_STATUS_state
def Base.setCamState (b : Base) (k st : Nat) : Base := b.wr (Reg.FAB_STATUS k) F.FAB_STATUS_state st

/-- Is Camtex port k ACTIVE? -/
def Base.camActive (b : Base) (k : Nat) : Bool := b.camState k == 6

/-- What a Camtex port keeps beside its registers. -/
def Mod.cam (m : Mod) (k : Nat) : CamPort :=
  (m.cams.find? (fun c => c.k == k)).getD { k := k, lanes := (List.range 8).map (fun i => { lane := i }) }
def Mod.setCam (m : Mod) (c : CamPort) : Mod := { m with cams := m.cams.filter (fun x => x.k != c.k) ++ [c] }

/-- An event of Camtex port k (group 11, bit 4k + i). -/
def camEv (k i sev : Nat) : Ev := { group := 11, bit := 4 * k + i, cause := i, sev := sev }

/-! ### Routes (R270) -/

/-- The ports that R270 yields for a destination, in ascending order: the ACTIVE ports of the entry's primary mask, or of its
alternate mask when there is none. -/
def Base.routePorts (b : Base) (d : Nat) : List Nat :=
  match diffLevel d b.path with
  | none => []
  | some l =>
    let a := Reg.BND_ROUTE (8 * (l - 1) + pathDigit d l)
    let on := fun (mask : Nat) => (List.range 8).filter (fun k => bitOf mask k && b.camActive k)
    let pri := on (b.rd a F.BND_ROUTE_primary)
    if pri.isEmpty then on (b.rd a F.BND_ROUTE_alternate) else pri

/-- The index of BND_MEMBER that stands for a module (R281), if it is another one. -/
def Base.memberIndex (b : Base) (d : Nat) : Option Nat := (diffLevel d b.path).map (fun l => 8 * (l - 1) + pathDigit d l)

/-- The recorded state of a module (R281). -/
def Base.memberState (b : Base) (d : Nat) : Nat :=
  match b.memberIndex d with
  | some i => b.rd (Reg.BND_MEMBER i) F.BND_MEMBER_state
  | none => 1

/-! ### Handing segments to ports -/

/-- A segment is handed to Camtex port k, to be sent in a flit. -/
def Mod.pushTx (m : Mod) (k : Nat) (s : Segment) : Mod :=
  let c := m.cam k
  { (m.setCam { c with tx := c.tx ++ [s] }) with base := m.base.emit (.segment k s) }

/-- A segment that is neither held nor resent goes to a module by R270, as its origin (CACK, SYNC, KEY): always on the response
channel. -/
def Mod.sendLoose (m : Mod) (s : Segment) : Mod :=
  let ports := m.base.routePorts s.dstPath
  let s := { s with srcPath := m.base.path, vc := 2, tc := 7 }
  match ports with
  | [] => m
  | _ => m.pushTx (ports.getD ((s.dstPath + clsBit s.cls) % ports.length) 0) s

/-! ### Outbound streams -/

/-- The outbound stream to a module in a class. -/
def Bond.out (x : Bond) (path : Nat) (cls : SegClass) : Option OutStream := x.outs.find? (fun o => o.path == path && o.cls == cls)
def Bond.setOut (x : Bond) (o : OutStream) : Bond :=
  { x with outs := x.outs.filter (fun y => !(y.path == o.path && y.cls == o.cls)) ++ [o] }
def Mod.setOut (m : Mod) (o : OutStream) : Mod := { m with bnd := m.bnd.setOut o }

/-- Hold-buffer slots in use (R273). -/
def Mod.holdUsed (m : Mod) : Nat := m.bnd.outs.foldl (fun n o => n + o.held.length) 0

/-- Segments of a stream are taken back from every port's queue. -/
def Mod.untx (m : Mod) (path : Nat) (cls : SegClass) (p : Segment → Bool) : Mod :=
  { m with cams := m.cams.map (fun c => { c with tx := c.tx.filter (fun s =>
      !(Sequenced s.stype && s.srcPath == m.base.path && s.dstPath == path && s.cls == cls && p s)) }) }

/-- The timers of a stream follow what it holds (R276, R277): none while the destination is recorded asleep. -/
def Mod.streamTimers (m : Mod) (o : OutStream) : Mod :=
  let kr := TimerKey.resend o.path o.cls
  let ks := TimerKey.stream o.path o.cls
  if o.held.isEmpty || m.base.memberState o.path == 2 || o.state == 4 then
    { m with base := (m.base.disarm kr).disarm ks }
  else
    let b := m.base.armIfIdle kr m.base.resendNs
    match o.held.head?.bind HeldSeg.sentAt with
    | none => { m with base := b.disarm ks }
    | some t => { m with base := b.arm ks (t + ms - b.now) }

/-- The next sequence that a stream will send (R278): of its oldest held segment that has not been sent yet, else of its next one. -/
def OutStream.syncSeq (o : OutStream) : Nat := ((o.held.find? (fun h => h.sentAt.isNone)).map (fun h => h.seg.cseq)).getD o.next

/-- A SYNC goes out for a stream, naming the next sequence it will send (R278). -/
def Mod.sendSync (m : Mod) (o : OutStream) : Mod :=
  m.sendLoose { cseq := o.syncSeq, stype := .sync, cls := o.cls, dstPath := o.path }

/-- A stream starts (R278): from bits [41:10] of the time-stamp where it never ran; SYNC when a route leads to it. -/
def Mod.openStream (m : Mod) (path : Nat) (cls : SegClass) : Mod :=
  match m.bnd.out path cls with
  | some _ => m
  | none =>
    let o : OutStream := { path := path, cls := cls, next := m.base.ts }
    if m.base.memberState path == 2 then m.setOut { o with state := 3 }
    else if (m.base.routePorts path).isEmpty then m.setOut o
    else (m.setOut { o with state := 1 }).sendSync o

/-- A stream is to be restarted (R278): SYNC and wait; a failed one keeps failing frames until its CACK. -/
def Mod.restartStream (m : Mod) (path : Nat) (cls : SegClass) : Mod :=
  match m.bnd.out path cls with
  | none => m.openStream path cls
  | some o =>
    if (m.base.routePorts path).isEmpty then m
    else (m.setOut { o with state := if o.state = 4 then 4 else 1 }).sendSync o

/-- A frame is cut into segments of 240 B, which take the stream's next sequences, are held, and go to the pinned port. -/
def Mod.sendFrame (m : Mod) (o : OutStream) (k : Nat) (x : BondMsg) : Mod :=
  let n := max 1 (cdiv x.data.length 240)
  let segs := (List.range n).map (fun i =>
    ({ cseq := (o.next + i) % 2 ^ 32, stype := x.stype, cls := x.cls, sof := i == 0, eof := i + 1 == n, dstPort := x.dstPort,
       origin := x.origin, data := (x.data.drop (240 * i)).take 240, vc := if x.cls == .response then 2 else x.vc, tc := x.tc,
       world := x.world, ks := x.ks, poison := x.poison, dstPath := x.dstPath, srcPath := m.base.path } : Segment))
  let o := { o with next := (o.next + n) % 2 ^ 32, port := some k, held := o.held ++ segs.map (fun s => { seg := s, msg := x }) }
  let m := segs.foldl (fun m s => m.pushTx k s) (m.setOut o)
  let m := { m with base := m.base.mark Reg.BND_HOLD_HWM F.BND_HOLD_HWM_mark m.holdUsed }
  m.streamTimers o

/-- The port a stream sends on: the one it is pinned to, or the one R270 picks when it is first pinned; none until it has re-pinned. -/
def Mod.pinOf (m : Mod) (o : OutStream) : Option Nat :=
  let ports := m.base.routePorts o.path
  match o.port with
  | some k => if ports.contains k then some k else none
  | none => if ports.isEmpty || o.old.isSome then none else ports[(o.path + clsBit o.cls) % ports.length]?

/-- Is there room in the hold buffer for a frame's segments (R273)? -/
def Mod.holdRoom (m : Mod) (x : BondMsg) : Bool := decide (m.holdUsed + max 1 (cdiv x.data.length 240) ≤ Config.holdSlots)

/-- The cells that a credited frame of a port holds until it has gone on (R50, R51). -/
def BondMsg.cells (x : BondMsg) : Nat := cellsOf x.data.length

/-- A frame of a port leaves the bond logic: the cells that it held are free. -/
def Mod.freeMsg (m : Mod) (x : BondMsg) : Mod :=
  if x.credited then (m.uncharge x.origin (if x.cls == .response then 2 else x.vc) x.cells).afterRelease else m

/-- The module's own read that a hod's request to another member carries: by its tag, the requester ID of the port whose tags it took,
and the hod's group. -/
def Mod.readAway (m : Mod) (x : BondMsg) (t : Tlp) : Option TagOwner :=
  (m.tags.find? (fun u => u.tag == t.tag && m.base.ownId u.port == t.rid && (match u.owner with
    | some (.hod h _) => 68 + h / 4 == x.origin
    | _ => false))).bind TagUse.owner

/-- A failed stream disposes of a frame (R277): a host's non-posted request completes successfully, with all ones; a read of an engine's
own ends as port gone; anything else is discarded and counted, and the copy that it was part of is not made. -/
def Mod.disposeMsg (m : Mod) (x : BondMsg) : Mod :=
  match x.copy with
  | some i => ({ m with base := m.base.bump (Reg.BND_CNT 10) } : Mod).peerNo i
  | none =>
    if x.vc = 1 && x.cls == .request then
      let t := (tlpOf x.data).getD { kind := .memRead }
      let f : Frame := { src := x.origin, srcXp := m.base.xpOf x.origin, dstXp := 0, vc := 1, bytes := max 1 x.data.length, tlp := t }
      let gone := (m.readAway x t).toList.map (fun o => (o, (⟨.portGone, []⟩ : Cpl)))
      { m with base := m.base.emit (.synthCpl x.origin f (decide (x.origin < 64))), ended := m.ended ++ gone }
    else { m with base := m.base.bump (Reg.BND_CNT 10) }

/-- A stream fails (R277): counted, a contained event, and every held and waiting frame is disposed of. -/
def Mod.failStream (m : Mod) (o : OutStream) : Mod :=
  let gone := (o.held.filter (fun h => h.seg.eof)).map HeldSeg.msg ++ o.queue
  let b := (m.base.bump (Reg.BND_CNT 9)).raise { group := 12, bit := 0, sev := 1, detail := o.path + 4096 * clsBit o.cls }
  let m := ({ m with base := b } : Mod).untx o.path o.cls (fun _ => true)
  let o := { o with state := 4, held := [], queue := [] }
  let m := (m.setOut o).streamTimers o
  let m := gone.foldl Mod.disposeMsg m
  if (m.base.routePorts o.path).isEmpty then m else m.sendSync o

/-- The next port after `old`, in ascending order with wrap (R276). -/
def nextPort (ports : List Nat) (old : Option Nat) : Option Nat :=
  match old with
  | none => ports.head?
  | some k => match ports.find? (fun p => decide (k < p)) with
    | some p => some p
    | none => ports.head?

/-- A stream re-pins (R276): the next port, and every held segment again from the oldest; with no route it waits for one. -/
def Mod.repin (m : Mod) (o : OutStream) : Mod :=
  let m := m.untx o.path o.cls (fun _ => true)
  let old := o.port.or o.old
  match nextPort (m.base.routePorts o.path) old with
  | none => m.setOut { o with port := none, old := old }
  | some k =>
    let o := { o with port := some k, old := none }
    let b := (m.base.bump (Reg.BND_CNT 8)).disarm (.resend o.path o.cls)
    let m := o.held.foldl (fun m h => m.pushTx k h.seg) (({ m with base := b } : Mod).setOut o)
    m.streamTimers o

/-- Streams whose port the route no longer yields re-pin (R276), as do those that lost theirs with no other to take. -/
def Mod.repinLost (m : Mod) : Mod :=
  m.bnd.outs.foldl (fun m o =>
    match o.port with
    | none => if o.old.isNone || (m.base.routePorts o.path).isEmpty then m else m.repin o
    | some k => if (m.base.routePorts o.path).contains k then m else m.repin o) m

/-- A destination has become reachable: its stream of a class starts with a SYNC, or restarts unless it is up or waits for a sleeper (R278). -/
def Mod.reachStream (m : Mod) (path : Nat) (cls : SegClass) : Mod :=
  match m.bnd.out path cls with
  | none => m.openStream path cls
  | some o => if o.state = 0 || o.state = 1 || o.state = 4 then m.restartStream path cls else m

/-- Of the modules that this one knows of, those that have become reachable are sent a SYNC on both streams (R278). -/
def Mod.reachNew (m : Mod) (known : List Nat) : Mod :=
  let now := known.filter (fun p => !(m.base.routePorts p).isEmpty)
  let fresh := now.filter (fun p => !m.bnd.reach.contains p)
  let m := { m with bnd := { m.bnd with reach := now } }
  fresh.foldl (fun m p => (m.reachStream p .request).reachStream p .response) m

/-- The frames that the bond logic holds for a stream go out, once it is up and has room (R54, R276). -/
def Mod.drainQueue (m : Mod) (path : Nat) (cls : SegClass) : Nat → Mod
  | 0 => m
  | n + 1 =>
    match m.bnd.out path cls with
    | none => m
    | some o =>
      match o.queue with
      | [] => m
      | x :: rest =>
        if o.state = 4 then Mod.drainQueue ((m.setOut { o with queue := rest }).disposeMsg x) path cls n
        else if o.state ≠ 2 || !m.holdRoom x then m
        else match m.pinOf o with
          | none => m
          | some k => Mod.drainQueue (m.sendFrame { o with queue := rest } k x) path cls n

/-- A frame reaches the bond logic from a Camtex port's queue (R54, R271): sent when its stream is up with room, else held. -/
def Mod.bondTake (m : Mod) (x : BondMsg) : Mod :=
  let m := m.openStream x.dstPath x.cls
  match m.bnd.out x.dstPath x.cls with
  | none => m
  | some o => Mod.drainQueue (m.setOut { o with queue := o.queue ++ [x] }) x.dstPath x.cls (o.queue.length + 1)

/-- Every stream's waiting frames go out as far as they can. -/
def Mod.drainQueues (m : Mod) : Mod :=
  m.bnd.outs.foldl (fun m o => Mod.drainQueue m o.path o.cls (o.queue.length + 1)) m

/-- A CACK is applied (R275): it frees the held segments up to `a`, or is ignored and counted. -/
def Mod.applyCack (m : Mod) (o : OutStream) (a : Nat) : Mod :=
  let base := (o.next + 2 ^ 32 - o.held.length - 1) % 2 ^ 32
  let sent := (o.held.filter (fun h => h.sentAt.isSome)).length
  let d := (a + 2 ^ 32 - base) % 2 ^ 32
  if sent < d then { m with base := m.base.bump (Reg.BND_CNT 15) }
  else if d = 0 then m
  else
    let freed := o.held.take d
    let o := { o with held := o.held.drop d }
    let m := (m.setOut o).untx o.path o.cls (fun s => freed.any (fun h => h.seg.cseq == s.cseq))
    let m := { m with base := m.base.disarm (.resend o.path o.cls) }
    let m := m.streamTimers o
    freed.foldl (fun m h =>
      match h.msg.copy with
      | some i => if h.seg.eof then m.peerAck i else m
      | none => m) m

/-- A CACK arrives for an outbound stream (R275, R278): the one that answers its SYNC brings it up. -/
def Mod.cackIn (m : Mod) (path : Nat) (cls : SegClass) (a : Nat) : Mod :=
  match m.bnd.out path cls with
  | none => { m with base := m.base.bump (Reg.BND_CNT 15) }
  | some o =>
    let m :=
      if (o.state = 1 || o.state = 4) && a == (o.syncSeq + 2 ^ 32 - 1) % 2 ^ 32 then
        let o := { o with state := 2 }
        (m.setOut o).applyCack o a
      else if o.state = 2 || o.state = 3 then m.applyCack o a
      else { m with base := m.base.bump (Reg.BND_CNT 15) }
    Mod.drainQueue m path cls (o.queue.length + 1)

/-! ### From the core to a Camtex port -/

/-- The TLP in a frame for another member, or what stands for a message. -/
def BondMsg.tlp (x : BondMsg) : Tlp :=
  let other : Tlp := { kind := if x.cls == .response then .cpl else if x.vc = 1 then .memRead else .memWrite }
  if x.dstPort ≠ 63 && x.stype == .data then (tlpOf x.data).getD other else other

/-- What an engine or a port hands over enters the core as a frame for its stream's port (R271), an engine's asking for its cells (R52), a
port's with those that its credit reserved (R51); with no route it waits; a failed stream disposes of it (R277). -/
def Mod.bondEnter (m : Mod) (x : BondMsg) : Mod :=
  let m := m.openStream x.dstPath x.cls
  match m.bnd.out x.dstPath x.cls with
  | none => m
  | some o =>
    if o.state = 4 then (m.freeMsg x).disposeMsg x
    else
      match (m.pinOf o).bind (fun k => (m.base.camPort k).map (fun p => (k, p))) with
      | none => { m with bnd := { m.bnd with wait := m.bnd.wait ++ [x] } }
      | some (k, p) =>
        let m := m.setOut { o with port := some k }
        let vc := if x.cls == .response then 2 else x.vc
        let f : Frame := { src := x.origin, srcXp := m.base.xpOf x.origin, dstXp := 24 + k, dstSub := p, vc := vc,
                           bytes := max 1 x.data.length, tlp := x.tlp, tc := x.tc, meter := x.meter, park := x.park, poison := x.poison,
                           bond := some x }
        if x.credited then (m.uncharge x.origin vc x.cells).store f else m.inject f

/-- The meter of a frame that came in on a Camtex port (R62). -/
def Base.camMeter (b : Base) (p vc : Nat) : Option Nat :=
  let a := Reg.SCH_IN_METER p
  if vc != 2 && b.isSet a F.SCH_IN_METER_enable then some (b.rd a F.SCH_IN_METER_meter) else none

/-- A transit frame goes to a Camtex port's queue, or, where no route leads on, is dropped: its origin holds it (R270). -/
def Mod.transitOn (m : Mod) (src : Nat) (s : Segment) : Mod :=
  let ports := m.base.routePorts s.dstPath
  match ports[((s.dstPath ^^^ s.srcPath) + clsBit s.cls) % max 1 ports.length]? with
  | none => m
  | some k =>
    match m.base.camPort k with
    | none => m
    | some p => m.admitIngress { src := src, srcXp := m.base.xpOf src, dstXp := 24 + k, dstSub := p, vc := s.vc, bytes := 256,
                                 tlp := { kind := .memWrite }, tc := s.tc, meter := m.base.camMeter src s.vc, cam := true,
                                 poison := s.poison, transit := some s }

/-- A frame of a Camtex port's queue reaches the bond logic, marked where the core has found it poisoned (R41). A frame that is for no
member is disposed of. -/
def Mod.camTake (m : Mod) (k : Nat) (f : Frame) : Mod :=
  match f.transit, f.bond with
  | some s, _ =>
    let s := { s with poison := s.poison || f.poison }
    if m.base.camActive k then m.pushTx k s else m.transitOn f.src s
  | none, some x => m.bondTake { x with poison := x.poison || f.poison, credited := false }
  | none, none => { m with base := m.base.bump (Reg.PRT_CNT f.dstSub 2) }

/-- Can the bond logic take a queued frame now: a transit segment, or a frame whose stream is up and has room, or has failed? -/
def Mod.camReady (m : Mod) (f : Frame) : Bool :=
  match f.bond with
  | none => true
  | some x =>
    match m.bnd.out x.dstPath x.cls with
    | none => true
    | some o => (o.state == 2 && m.holdRoom x && o.queue.isEmpty) || o.state == 4

/-- Does the link partner of Camtex port k have credit for a frame (R64, R257): a flit credit of its VC for every segment, beyond those
that segments on their way to the link will spend? -/
def Mod.camCredit (m : Mod) (k : Nat) (f : Frame) : Bool :=
  let c := m.cam k
  let resp := f.vc == 2
  let free := if resp then (c.clRsp + 4096 - c.ccRsp) % 4096 else (c.clReq + 4096 - c.ccReq) % 4096
  let due := (c.tx.filter (fun s => (s.vc == 2) == resp)).length
  let need := match f.bond with
    | some x => max 1 (cdiv x.data.length 240)
    | none => 1
  decide (free ≤ 2047) && decide (due + need ≤ free)

/-- A Camtex egress port serves its queues (R64, R65, R273): of the head frames that its partner has credit for and the bond logic can take,
the one that the scheduler picks goes to the bond logic, and its cells are given back. -/
def Mod.sendCam (m : Mod) (k p : Nat) : Mod :=
  match m.pick p (fun f => m.base.camActive k && m.camCredit k f && m.camReady f) with
  | (m, none) => m
  | (m, some (q, f)) =>
    let m := (m.accountSend p q f).tap f p true
    (({ m with sw := m.sw.dequeue p f.id } : Mod).camTake k f).dropRef f.id

/-- A Camtex port that has failed hands its queued frames to the bond logic in their order (R54). -/
def Mod.camFlush (m : Mod) (k : Nat) : Mod :=
  match m.base.camPort k with
  | none => m
  | some p =>
    (m.sw.egress.filter (fun e => e.port == p)).foldl (fun m e =>
      match m.sw.frame e.frame with
      | none => m
      | some f => (({ m with sw := m.sw.dequeue p f.id } : Mod).camTake k f).dropRef f.id) m

/-- Frames that have crossed to a Camtex port that is not ACTIVE go to the bond logic as those that were queued at its failure (R54). -/
def Mod.camFlushAll (m : Mod) : Mod :=
  (List.range 8).foldl (fun m k => if m.base.camActive k then m else m.camFlush k) m

/-- A Camtex port enters link reset (R276): what was handed to it is gone, its queued frames come back, and the streams pinned
to it re-pin. Segments in transit are steered again. -/
def Mod.camLost (m : Mod) (k : Nat) : Mod :=
  let c := m.cam k
  let m := m.setCam { c with tx := [], held := [], replay := none, running := false }
  let a := (m.base.camPort k).getD 0
  let m := (c.tx.filter (fun s => s.srcPath != m.base.path)).foldl (fun m s => m.transitOn a s) m
  let m := m.bnd.outs.foldl (fun m o =>
    if o.port == some k then m.repin o else m) m
  m.camFlush k

end Sys2Proof.Machine
end

