-- ==== Sys2Proof/Machine/Camtex.lean ====
section
/-! DEFINITION. The Camtex link below its flits (R247-R250, R262-R268, R284): link reset, training, tuning, lane maps,
alignment markers, test mode and tile PLLs. -/

namespace Sys2Proof.Machine

/-! ### Lanes of a Camtex port -/

/-- The lane number of physical lane i of Camtex port k (R224). -/
def camLaneNo (k i : Nat) : Nat := 8 * (24 + k) + i

/-- What a Camtex port keeps of a lane. -/
def CamPort.lane (c : CamPort) (i : Nat) : CamLane := (c.lanes.find? (fun l => l.lane == i)).getD { lane := i }
def CamPort.setLane (c : CamPort) (l : CamLane) : CamPort :=
  { c with lanes := c.lanes.map (fun x => if x.lane == l.lane then l else x) }
def Mod.setLane (m : Mod) (k : Nat) (l : CamLane) : Mod := m.setCam ((m.cam k).setLane l)

/-- Is a lane used in training: neither disabled nor excluded (R264, R265)? -/
def Base.laneUsed (b : Base) (k i : Nat) : Bool :=
  !b.isSet (Reg.SER_LANE_CFG (camLaneNo k i)) F.SER_LANE_CFG_disable &&
  !bitOf (b.rd (Reg.FAB_EXCL k) F.FAB_EXCL_lanes) i

/-- The lanes that a training takes: read as it starts, since a change of either register acts only through a link reset (R265). -/
def Base.usedLanes (b : Base) (k : Nat) : Nat := (List.range 8).foldl (fun n i => if b.laneUsed k i then n + 2 ^ i else n) 0

/-- May Camtex port k train: it is enabled, its tile is not in test and its PLL is locked (R227, R242)? -/
def Base.camMay (b : Base) (k : Nat) : Bool :=
  b.isSet (Reg.FAB_CFG k) F.FAB_CFG_enable && !b.inTest (24 + k) && b.camTile (24 + k) &&
  b.isSet (Reg.SER_TILE_STATUS (24 + k)) F.SER_TILE_STATUS_pll_lock

/-! ### The coded stream (R229, R248) -/

/-- Codewords that a lane has filled leave it, through the pair as the sled wires it (R229, R241). -/
def Base.sendWords (b : Base) (k : Nat) (lane : Nat) (msgs : List Nat) : Base :=
  let no := camLaneNo k lane
  msgs.foldl (fun b w => b.emit (.line no (invertLevels (b.isSet (Reg.SER_LANE_CFG no) F.SER_LANE_CFG_tx_inv) (codewordLevels w)))) b

/-- A physical lane sends: its AM, or a block of the port's stream. -/
def Mod.laneSend (m : Mod) (k i : Nat) (send : LaneCode → LaneCode × List Nat) : Mod :=
  let l := (m.cam k).lane i
  let (c, out) := send l.code
  ({ m with base := m.base.sendWords k i out } : Mod).setLane k { l with code := c }

/-- The physical lane of a logical one. -/
def CamPort.physical (c : CamPort) (n : Nat) : Nat := ((c.lanes.find? (fun l => l.logical == n)).map CamLane.lane).getD 0

/-- Blocks join the port's stream, data or control, each on the next logical lane (R248). -/
def Mod.streamBlocks (m : Mod) (k : Nat) (control : Bool) (payloads : List Nat) : Mod :=
  payloads.foldl (fun m p =>
    let c := m.cam k
    let i := c.physical c.txLane
    (m.setCam { c with txLane := if c.txLane + 1 < c.width then c.txLane + 1 else 0 }).laneSend k i (fun x => x.send i control p)) m

/-! ### Link reset (R262, R264 steps 1 and 2) -/

/-- The LR reason that a cause sends. -/
def lrReason (cause : Nat) : Byte := if cause = 12 then 2#8 else if 9 ≤ cause then 1#8 else 0#8

/-- Every timer of the port's training and replay stops. -/
def Base.camQuiet (b : Base) (k : Nat) : Base :=
  b.disarmAll (fun t => match t with
    | .replay x | .resetHold x | .tune x | .train x | .backoff x | .wakePattern x => x == k
    | .tuneSettle x _ => x == k
    | _ => false)

/-- The lanes return to their start coefficients unless overridden, at the rate that takes effect now (R235, R264). -/
def Base.startLanes (b : Base) (k : Nat) : Base :=
  let fast := b.isSet (Reg.SER_TILE_CFG (24 + k)) F.SER_TILE_CFG_camtex_85
  let b := b.flag (Reg.FAB_STATUS k) F.FAB_STATUS_rate85 fast
  (List.range 8).foldl (fun b i =>
    let l := camLaneNo k i
    let b := (((b.wr (Reg.SER_STATUS l) F.SER_STATUS_frame 0).wr (Reg.SER_STATUS l) F.SER_STATUS_pol_det 0).wr
      (Reg.SER_STATUS l) F.SER_STATUS_adapt_done 0).eyeStale l
    if b.isSet (Reg.SER_TX_COEF l) F.SER_TX_COEF_override then b
    else
      let a := Reg.SER_TX_START l
      let pre := b.rd a (if fast then F.SER_TX_START_pre85 else F.SER_TX_START_pre64)
      let post := b.rd a (if fast then F.SER_TX_START_post85 else F.SER_TX_START_post64)
      if coefOk pre post then b.setCoef l pre post else b.setCoef l 0 0) b

/-- The port is down, its lanes idle. -/
def Mod.camDown (m : Mod) (k : Nat) : Mod :=
  let b := (m.base.camQuiet k).setCamState k 0
  let b := (b.wr (Reg.FAB_STATUS k) F.FAB_STATUS_width 0).wr (Reg.FAB_STATUS k) F.FAB_STATUS_active 0
  { m with base := (List.range 8).foldl (fun b i => (b.wr (Reg.SER_STATUS (camLaneNo k i)) F.SER_STATUS_rate 0).wr
      (Reg.SER_STATUS (camLaneNo k i)) F.SER_STATUS_sig_det 0) b }

/-- Training starts at step 1 (R264): state RESET, LR blocks for reset_us; a port that may not train is down. -/
def Mod.camTrain (m : Mod) (k : Nat) (reason : Byte) : Mod :=
  if !m.base.camMay k then m.camDown k
  else
    let b := (((m.base.camQuiet k).setCamState k 1).startLanes k).bump (Reg.FAB_CNT k 7)
    let b := (b.wr (Reg.FAB_STATUS k) F.FAB_STATUS_width 0).wr (Reg.FAB_STATUS k) F.FAB_STATUS_active 0
    let b := b.arm (.resetHold k) (max 1 (b.rd (Reg.FAB_TIME k) F.FAB_TIME_reset_us) * us)
    let c := m.cam k
    let c : CamPort := { c with lanes := c.lanes.map (fun l => { lane := l.lane }), tuneDone := false, lead := false, go := false,
                                running := false, resetAt := b.now, waking := 0, sleeping := false,
                                used := b.usedLanes k }
    ({ m with base := b.emit (.lr k reason) } : Mod).setCam c

/-- The port's flits are gone and its credits with them (R262). -/
def Mod.camDrop (m : Mod) (k : Nat) : Mod :=
  let m := m.camLost k
  let p := (m.base.camPort k).getD 64
  { m with sw := { m.sw with credits := m.sw.credits.filter (fun c => c.port != p) } }

/-- The cause of a link reset is recorded and its event raised: contained for a failure, else advisory (R262). -/
def Base.camCause (b : Base) (k cause : Nat) : Base :=
  let b := b.wr (Reg.FAB_STATUS k) F.FAB_STATUS_last_fail cause
  if cause ≤ 8 then (b.bump (Reg.FAB_CNT k 6)).raise (camEv k 0 1) else b.raise (camEv k 1 0)

/-- 16 LR blocks go out in the coded stream of a port that was ACTIVE (R264 step 1), while its transmitter still runs: not when the tile
PLL lost lock. -/
def Mod.lrStream (m : Mod) (k : Nat) (reason : Byte) : Mod :=
  if m.base.camActive k && m.base.isSet (Reg.SER_TILE_STATUS (24 + k)) F.SER_TILE_STATUS_pll_lock then
    m.streamBlocks k true (List.replicate 16 (0x33 + 2 ^ 8 * reason.toNat))
  else m

/-- A Camtex port enters link reset (R262). -/
def Mod.linkReset (m : Mod) (k cause : Nat) : Mod :=
  let m := m.lrStream k (lrReason cause)
  let m := { m with base := (m.base.setCamState k 1).camCause k cause }
  (m.camDrop k).camTrain k (lrReason cause)

/-- Training ends with TRAIN_TIMEOUT or NARROW (R262, R264): the port waits in WAIT; while its partner sleeps the retries raise
nothing (R268). -/
def Mod.trainFail (m : Mod) (k cause : Nat) : Mod :=
  let asleep := (m.cam k).partnerAsleep && cause == 1
  let b := (m.base.camQuiet k).setCamState k 2
  let b := b.bump (Reg.FAB_CNT k 8)
  let b := if asleep then b else b.camCause k cause
  let b := b.arm (.backoff k) (b.rd (Reg.FAB_TIME k) F.FAB_TIME_backoff_ms * ms)
  let m := ({ m with base := b } : Mod).camDrop k
  m.setCam { (m.cam k) with running := false }

/-- A write of FAB_CTL.reset (R262). -/
def Mod.fabReset (m : Mod) (k v : Nat) : Mod := if bitOf v 0 && m.base.camMay k then m.linkReset k 9 else m

/-- A write of FAB_CFG: enable = 0 holds the port down and stops its tile's PLL (R324), enable from 0 to 1 starts it; the nesting check of
R307. -/
def Mod.fabCfgWrite (m : Mod) (k v : Nat) : Mod :=
  let was := m.base.isSet (Reg.FAB_CFG k) F.FAB_CFG_enable
  let m := { m with base := (m.base.setWord (Reg.FAB_CFG k) (BitVec.ofNat 32 v)).nestWrite
                      ((m.base.setWord (Reg.FAB_CFG k) (BitVec.ofNat 32 v)).line4 k) }
  if was && !bitOf v 0 then
    let m := ((m.camDown k).camDrop k).camDown k
    { m with base := m.base.wr (Reg.SER_TILE_STATUS (24 + k)) F.SER_TILE_STATUS_pll_lock 0 }
  else if !was && bitOf v 0 then m.camTrain k 0#8
  else m

/-- The port goes on to step 3 of R264: state LOCK, with tune_ms and train_ms running. -/
def Mod.toLock (m : Mod) (k : Nat) : Mod :=
  let b := (m.base.setCamState k 3).arm (.tune k) (12 * ms)
  ({ m with base := b.arm (.train k) (b.trainNs k) } : Mod).setCam { (m.cam k) with waking := 0 }

/-- reset_us is over (R264 step 3, R268): LOCK, or down for a module that sleeps; a port that wakes a sleeper waits on. -/
def Mod.resetHoldEnd (m : Mod) (k : Nat) : Mod :=
  let c := m.cam k
  if m.base.camState k ≠ 1 then m
  else if c.sleeping then m.camDown k
  else if c.waking ≠ 0 then m
  else m.toLock k

/-- backoff_ms in WAIT is over (R264). -/
def Mod.backoffEnd (m : Mod) (k : Nat) : Mod :=
  if m.base.camState k = 2 then m.camTrain k (lrReason (m.base.rd (Reg.FAB_STATUS k) F.FAB_STATUS_last_fail)) else m

/-- An LR block arrives (R262, R267). -/
def Mod.lrIn (m : Mod) (k : Nat) (reason : Nat) : Mod :=
  let st := m.base.camState k
  let c := m.cam k
  if st = 6 then
    if reason = 2 then (m.setCam { c with partnerAsleep := true }).linkReset k 11
    else if reason ≤ 1 then m.linkReset k 8
    else m
  else if 3 ≤ st && st ≤ 5 then
    if m.base.now ≤ c.resetAt + max 1 (m.base.rd (Reg.FAB_TIME k) F.FAB_TIME_reset_us) * us then m
    else if reason = 2 then (m.setCam { c with partnerAsleep := true }).linkReset k 11
    else (m.camDrop k).camTrain k 0#8
  else m

/-- This module enters M2 (R268): LR blocks with reason sleep, then the lanes go idle. -/
def Mod.camSleep (m : Mod) (k : Nat) : Mod :=
  if !m.base.camActive k then (if m.base.camState k = 0 then m else m.camDown k)
  else
    let m := m.lrStream k 2#8
    let m := ({ m with base := (m.base.setCamState k 1).camCause k 12 } : Mod).camDrop k
    let b := (m.base.camQuiet k).arm (.resetHold k) (max 1 (m.base.rd (Reg.FAB_TIME k) F.FAB_TIME_reset_us) * us)
    ({ m with base := b.emit (.lr k 2#8) } : Mod).setCam { (m.cam k) with running := false, sleeping := true }

/-! ### Waking a sleeper (R284) -/

/-- A neighbour sends the wake pattern: its retries break off. -/
def Mod.wakeSend (m : Mod) (k : Nat) : Mod :=
  if !m.base.camMay k || m.base.camActive k then m
  else
    let b := ((m.base.camQuiet k).setCamState k 1).arm (.wakePattern k) (6 * ms)
    ({ m with base := b.emit (.wakePattern k) } : Mod).setCam { (m.cam k) with waking := 1, running := false }

/-- The pattern is over: RESET with LR blocks until the sleeper shows signal. -/
def Mod.wakeSent (m : Mod) (k : Nat) : Mod :=
  if (m.cam k).waking ≠ 1 then m
  else ({ m with base := m.base.emit (.lr k 0#8) } : Mod).setCam { (m.cam k) with waking := 2 }

/-- The sleeper's lanes show signal: training goes on from step 3, unless the port may not train. -/
def Mod.sleeperSeen (m : Mod) (k : Nat) : Mod :=
  let c := m.cam k
  if c.waking ≠ 2 || !m.base.camMay k then m
  else
    let c : CamPort := { c with lanes := c.lanes.map (fun l => { lane := l.lane }), tuneDone := false, lead := false, go := false,
                                used := m.base.usedLanes k }
    (({ m with base := m.base.startLanes k } : Mod).setCam c).toLock k

/-! ### Training records (R263) -/

/-- A field of a training record. -/
def recField (r : List Byte) (off : Nat) (f : Fld) : Nat := bits (fieldAt r off 8) f

/-- Is a record whole: 24 bytes whose CRC-16 checks? -/
def recordOk (r : List Byte) : Bool := r.length == 24 && crc16 (r.take 22) == fieldAt r 22 2

/-- The path a module compares by: 0xFFF when it is in no bond (R263, R269). -/
def Base.keyPath (b : Base) : Nat := if b.rd Reg.BND_CFG F.BND_CFG_depth = 0 then 0xFFF else b.path
def recPath (r : List Byte) : Nat := if recField r 0xA ⟨12, 1⟩ = 1 then recField r 0xA ⟨0, 12⟩ else 0xFFF

/-- The least width a port accepts (R265). -/
def Base.minWidth (b : Base) (k : Nat) : Nat := min 8 (max 1 (b.rd (Reg.FAB_CFG k) F.FAB_CFG_min_width))

/-- The lanes of this training whose records can be read. -/
def CamPort.locked (c : CamPort) : List CamLane := c.lanes.filter (fun l => !l.record.isEmpty)

/-- Does the port's cabling look reversed: more locked lanes show it than straight (R265)? -/
def CamPort.looksReversed (c : CamPort) : Bool :=
  let n := fun (p : CamLane → Bool) => (c.locked.filter p).length
  decide (n (fun l => recField l.record 0 ⟨4, 4⟩ == l.lane) < n (fun l => recField l.record 0 ⟨4, 4⟩ == 7 - l.lane))

/-- The partner lane that faces lane i. -/
def facing (rev : Bool) (i : Nat) : Nat := if rev then 7 - i else i

/-- The lanes that are good at this end: good under R239, used, readable, and fitting the orientation (R264, R265). -/
def Mod.goodMask (m : Mod) (k : Nat) : Nat :=
  let c := m.cam k
  let rev := c.looksReversed
  let g := m.base.rd (Reg.SER_TILE_STATUS (24 + k)) F.SER_TILE_STATUS_good_mask
  (List.range 8).foldl (fun n i =>
    let l := c.lane i
    if bitOf g i && bitOf c.used i && !l.record.isEmpty && recField l.record 0 ⟨4, 4⟩ == facing rev i then n + 2 ^ i else n) 0

/-- The record that a lane sends now (R263); a follower that says go sends the map it copied (R264 step 6). -/
def Mod.recordOut (m : Mod) (k i : Nat) : List Byte :=
  let c := m.cam k
  let l := c.lane i
  let t := l.tuner
  let pre := if t.tap = 1 then t.req else 0
  let post := if t.tap = 0 then t.req else 0
  let body := leBytes 2 (m.base.camState k % 16 + 2 ^ 4 * i) ++ leBytes 8 (m.base.word64 Reg.GLB_SERIAL) ++
    leBytes 2 (m.base.path % 4096 + 2 ^ 12 * b2n (m.base.rd Reg.BND_CFG F.BND_CFG_depth != 0) +
      2 ^ 13 * (m.base.minWidth k - 1)) ++
    leBytes 1 (m.goodMask k) ++ leBytes 1 (pre + 4 * post + 16 * l.preSts + 64 * l.postSts) ++
    leBytes 1 ((if c.lead || c.go then l.logical else 15) + 16 * b2n c.tuneDone + 32 * b2n c.lead + 64 * b2n c.go +
      128 * b2n ((c.lead || c.go) && c.reversed)) ++
    List.replicate 7 0#8
  body ++ leBytes 2 (crc16 body)

/-- Every lane in training whose record has changed sends the new one. -/
def Mod.sendRecords (m : Mod) (k : Nat) : Mod :=
  let st := m.base.camState k
  if st < 3 || 5 < st then m
  else (List.range 8).foldl (fun m i =>
    if !bitOf (m.cam k).used i then m
    else
      let r := m.recordOut k i
      let l := (m.cam k).lane i
      if l.sent == r then m
      else ({ m with base := m.base.emit (.record k i
        (tsBlocks (m.base.isSet (Reg.SER_LANE_CFG (camLaneNo k i)) F.SER_LANE_CFG_tx_inv) r)) } : Mod).setLane k { l with sent := r }) m

/-! ### Tuning (R266) -/

/-- A lane's tuner asks its partner for a step: 1 increase, 2 decrease. -/
def Tuner.ask (t : Tuner) (dec : Bool) (phase : Nat) : Tuner := { t with req := if dec then 2 else 1, sts := 0, phase := phase }

/-- A direction of R266 ends: the other one unless the tap has moved, then the next tap, then nothing. -/
def Tuner.next (t : Tuner) : Tuner :=
  if !t.dec && !t.moved then ({ t with dec := true } : Tuner).ask true 1
  else if t.tap = 0 then ({ t with tap := 1, dec := false, moved := false } : Tuner).ask false 1
  else { t with phase := 5, req := 0 }

/-- The settle is over and the quick index is in (R266). -/
def Tuner.settled (t : Tuner) (qi : Nat) : Tuner :=
  match t.phase with
  | 0 => ({ t with best := qi } : Tuner).ask false 1
  | 2 => if t.sts = 2 || t.sts = 3 then t.next
         else if t.best < qi then ({ t with best := qi, moved := true } : Tuner).ask t.dec 1
         else t.ask (!t.dec) 3
  | 4 => t.next
  | _ => t

/-- The partner answers a request: hold, and settle (R266). -/
def Tuner.answered (t : Tuner) (sts : Nat) : Tuner :=
  if sts = 0 then t
  else if t.phase = 1 then { t with req := 0, sts := sts, phase := 2 }
  else if t.phase = 3 then { t with req := 0, sts := sts, phase := 4 }
  else t

/-- A partner's request for one tap of this end's transmitter: the answer, and the coefficients after it (R234, R263). -/
def answerTap (override : Bool) (req sts pre post : Nat) (isPre : Bool) : Nat × Nat × Nat :=
  if req = 0 || req = 3 then (0, pre, post)
  else if sts ≠ 0 then (sts, pre, post)
  else if override then (3, pre, post)
  else
    let v := if isPre then pre else post
    if req = 2 && v = 0 then (2, pre, post)
    else
      let v := if req = 1 then v + 1 else v - 1
      let pre' := if isPre then v else pre
      let post' := if isPre then post else v
      if coefOk pre' post' then (1, pre', post') else (2, pre, post)

/-- The requests in a record are answered on the lane it came in on (R263). -/
def Mod.answerRecord (m : Mod) (k i : Nat) (r : List Byte) : Mod :=
  let no := camLaneNo k i
  let a := Reg.SER_TX_COEF no
  let l := (m.cam k).lane i
  let ovr := m.base.isSet a F.SER_TX_COEF_override
  let pre := m.base.rd a F.SER_TX_COEF_pre
  let post := m.base.rd a F.SER_TX_COEF_post
  let (s1, pre, post) := answerTap ovr (recField r 0xD ⟨0, 2⟩) l.preSts pre post true
  let (s2, pre, post) := answerTap ovr (recField r 0xD ⟨2, 2⟩) l.postSts pre post false
  let m := m.setLane k { l with preSts := s1, postSts := s2 }
  if ovr then m else { m with base := m.base.setCoef no pre post }

/-- This end's tuner of a lane takes the partner's answer. -/
def Mod.tunerAnswer (m : Mod) (k i : Nat) (r : List Byte) : Mod :=
  let l := (m.cam k).lane i
  let t := l.tuner.answered (recField r 0xD (if l.tuner.tap = 1 then ⟨4, 2⟩ else ⟨6, 2⟩))
  let m := m.setLane k { l with tuner := t }
  if t.phase = l.tuner.phase then m else { m with base := m.base.arm (.tuneSettle k i) (100 * us) }

/-- Tuning has finished when every locked lane has (R266). -/
def Mod.showTuned (m : Mod) (k : Nat) : Mod :=
  let c := m.cam k
  m.setCam { c with tuneDone := !c.locked.isEmpty && c.locked.all (fun l => l.tuner.phase == 5) }

/-! ### LOCK, TUNE, CONFIG (R264, R265) -/

/-- Adaptation is over on every used lane that has signal, and a record can be read: TUNE (R264 step 4). -/
def Mod.lockDone (m : Mod) (k : Nat) : Mod :=
  let lanes := (List.range 8).filter (fun i => bitOf (m.cam k).used i &&
    m.base.isSet (Reg.SER_STATUS (camLaneNo k i)) F.SER_STATUS_sig_det)
  if m.base.camState k ≠ 3 || (m.cam k).locked.isEmpty ||
      !lanes.all (fun i => m.base.isSet (Reg.SER_STATUS (camLaneNo k i)) F.SER_STATUS_adapt_done) then m
  else
    let c := m.cam k
    let b := c.locked.foldl (fun b l => b.arm (.tuneSettle k l.lane) (100 * us)) (m.base.setCamState k 4)
    ({ m with base := b } : Mod).setCam { c with lanes := c.lanes.map (fun l => { l with tuner := {} }) }

/-- Do both ends send tune_done (R264 step 5)? -/
def Mod.bothTuned (m : Mod) (k : Nat) : Bool :=
  let c := m.cam k
  c.tuneDone && c.locked.any (fun l => recField l.record 0xE ⟨4, 1⟩ == 1)

/-- CONFIG begins (R264 step 5): the end with the lower path and serial leads. -/
def Mod.toConfig (m : Mod) (k : Nat) : Mod :=
  let st := m.base.camState k
  if st ≠ 3 && st ≠ 4 then m
  else
    let c := m.cam k
    let b := (m.base.disarm (.tune k)).disarmAll (fun t => match t with
      | .tuneSettle x _ => x == k
      | _ => false)
    let sp := b.word64 (Reg.FAB_PARTNER k)
    let i := Reg.FAB_PARTNER_INFO k
    let pp := if b.isSet i F.FAB_PARTNER_INFO_path_valid then b.rd i F.FAB_PARTNER_INFO_path else 0xFFF
    let me := b.keyPath
    let lead := decide (me < pp) || (me == pp && decide (b.word64 Reg.GLB_SERIAL < sp))
    ({ m with base := (b.setCamState k 5).flag (Reg.FAB_STATUS k) F.FAB_STATUS_leader lead } : Mod).setCam
      { c with lead := lead, reversed := c.looksReversed }

/-- The usable lane pairs at the leader, ascending (R265). -/
def Mod.usable (m : Mod) (k : Nat) : List Nat :=
  let c := m.cam k
  let mine := m.goodMask k
  (List.range 8).filter (fun i => bitOf mine i &&
    bitOf (recField (c.lane i).record 0xC ⟨0, 8⟩) (facing c.reversed i))

/-- The least width of both ends. -/
def Mod.leastWidth (m : Mod) (k : Nat) : Nat :=
  (m.cam k).locked.foldl (fun w l => max w (recField l.record 0xA ⟨13, 3⟩ + 1)) (m.base.minWidth k)

/-- Is every locked lane's record from CONFIG, with the partner's good mask? -/
def CamPort.bothConfig (c : CamPort) : Bool := !c.locked.isEmpty && c.locked.all (fun l => recField l.record 0 ⟨0, 4⟩ == 5)

/-- The width is below either end's least, which both ends see from both masks (R265): NARROW. -/
def Mod.narrowCheck (m : Mod) (k : Nat) : Mod :=
  if m.base.camState k ≠ 5 || (m.cam k).go || !(m.cam k).bothConfig || m.leastWidth k ≤ (m.usable k).length then m
  else m.trainFail k 2

/-- The leader's map is made once every locked lane's record is from CONFIG (R264 step 6). -/
def Mod.makeMap (m : Mod) (k : Nat) : Mod :=
  let c := m.cam k
  if !c.lead || c.go || !c.bothConfig then m
  else
    let us := m.usable k
    m.setCam { c with go := true, lanes := c.lanes.map (fun l =>
        { l with logical := match us.findIdx? (fun i => i == l.lane) with
            | some n => n
            | none => 15 }) }

/-- The follower checks the leader's final map and copies it (R264 step 6). -/
def Mod.copyMap (m : Mod) (k : Nat) : Mod :=
  let c := m.cam k
  if c.lead || c.go || c.locked.isEmpty ||
      !c.locked.all (fun l => recField l.record 0xE ⟨5, 1⟩ == 1 && recField l.record 0xE ⟨6, 1⟩ == 1) then m
  else
    let c : CamPort := { c with reversed := recField (c.locked.headD { lane := 0 }).record 0xE ⟨7, 1⟩ == 1,
                                lanes := c.lanes.map (fun l => { l with logical := if l.record.isEmpty then 15 else recField l.record 0xE ⟨0, 4⟩ }) }
    let w := (c.lanes.filter (fun l => l.logical != 15)).length
    let good := m.goodMask k
    if w < m.leastWidth k || !c.lanes.all (fun l => l.logical == 15 || bitOf good l.lane) then m.trainFail k 2
    else m.setCam { c with go := true }

/-- The credits that a port and VC can still take, as far as R49 allows, to 2,047 flits (R256). -/
def Mod.growTo (m : Mod) (p v : Nat) : Nat → Nat → Nat
  | 0, got => got
  | n + 1, got =>
    let c := m.sw.credit p v
    let step := 2 ^ n
    if c.hdrOut + got + step ≤ 2047 && m.sw.admits m.base.alphaExp (3 * p + v) (got + step) then Mod.growTo m p v n (got + step)
    else Mod.growTo m p v n got
/-- The credits of a port and VC grow, each asked for as R51 has it; what lies inside the committed minimum R49 always admits. -/
def Mod.growCredit (m : Mod) (p v : Nat) : Mod :=
  let got := m.growTo p v 11 0
  if got = 0 then m
  else
    let (m, ok) := m.askAdmit (3 * p + v) got
    let c := m.sw.credit p v
    if ok then ({ m with sw := m.sw.setCredit { c with hdrOut := c.hdrOut + got } } : Mod).markUse (3 * p + v) else m

/-- Go has been seen from both ends (R264 step 7): the first AM column goes out, and NULL flits follow. -/
def Mod.camRun (m : Mod) (k : Nat) : Mod :=
  let c := m.cam k
  if m.base.camState k ≠ 5 || c.running || !c.go || !c.locked.any (fun l => recField l.record 0xE ⟨6, 1⟩ == 1) then m
  else
    let on := c.lanes.filter (fun l => l.logical != 15)
    let active := on.foldl (fun n l => n + 2 ^ l.lane) 0
    let s := Reg.FAB_STATUS k
    let b := ((m.base.wr s F.FAB_STATUS_width on.length).wr s F.FAB_STATUS_active active).flag s F.FAB_STATUS_reversed c.reversed
    let b := on.foldl (fun b l => (b.wr (Reg.SER_STATUS (camLaneNo k l.lane)) F.SER_STATUS_frame 1).wr
      (Reg.SER_STATUS (camLaneNo k l.lane)) F.SER_STATUS_port_lane l.logical) b
    let b := ((b.wr (Reg.FAB_SEQ k) F.FAB_SEQ_next_tx 0).wr (Reg.FAB_SEQ k) F.FAB_SEQ_acked 0xFFF).setWord (Reg.FAB_RX k) 0xFFF#32
    let c : CamPort := { c with running := true, width := on.length, active := active, ccReq := 0, ccRsp := 0, clReq := 0, clRsp := 0,
                                accReq := 0, accRsp := 0, held := [], replay := none, txLane := 0, rxLane := 0,
                                lanes := c.lanes.map (fun l => { l with missing := 0, misses := [], code := {} }) }
    let m := ({ m with base := b.emit (.amColumn k) } : Mod).setCam c
    let m := on.foldl (fun m l => m.laneSend k l.lane (fun x => x.sendAm l.lane)) m
    match m.base.camPort k with
    | none => m
    | some p => (m.growCredit p 0).growCredit p 2

/-- Training goes on as far as its conditions allow. -/
def Mod.camStep (m : Mod) (k : Nat) : Mod :=
  let m := m.lockDone k
  let m := if m.base.camState k = 4 && m.bothTuned k then m.toConfig k else m
  let m := m.narrowCheck k
  let m := if m.base.camState k = 5 then m.makeMap k else m
  let m := if m.base.camState k = 5 then m.copyMap k else m
  m.camRun k

/-- A record whose four parts came in order is used if its CRC checks (R263). -/
def Mod.recordIn (m : Mod) (k i : Nat) (r : List Byte) : Mod :=
  let st := m.base.camState k
  let l := (m.cam k).lane i
  if !recordOk r then m
  else
    let b := m.base.setWord64 (Reg.FAB_PARTNER k) (fieldAt r 2 8)
    let b := b.setWord (Reg.FAB_PARTNER_INFO k)
      (BitVec.ofNat 32 (recField r 0xA ⟨0, 13⟩ + 2 ^ 13 * recField r 0xC ⟨0, 8⟩))
    let m := (({ m with base := b } : Mod).setLane k { l with record := r }).answerRecord k i r
    let m := if st ≠ 4 then m else if l.record.isEmpty then { m with base := m.base.arm (.tuneSettle k i) (100 * us) }
      else m.tunerAnswer k i r
    m.camStep k

/-- May a lane's raw blocks be used: its port trains, and the lane takes part (R264)? -/
def Mod.lineTrains (m : Mod) (k i : Nat) : Bool :=
  decide (3 ≤ m.base.camState k) && decide (m.base.camState k ≤ 5) && !(m.cam k).running && bitOf (m.cam k).used i

/-- A block as it stands on a lane of this module: the pair as the sled wires it (R241). -/
def Base.wired (b : Base) (k i : Nat) (x : BitVec 66) : BitVec 66 :=
  if b.isSet (Reg.SER_LANE_CFG (camLaneNo k i)) F.SER_LANE_CFG_rx_inv then ~~~x else x

/-- A raw block arrives on a lane with block lock (R263): a TS block, from an inverted lane inverted, brings the next part of the record. -/
def Mod.tsIn (m : Mod) (k i : Nat) (x : BitVec 66) : Mod :=
  let l := (m.cam k).lane i
  let x := m.base.wired k i x
  let flip := (tsPart x).isNone && (tsPart (~~~x)).isSome
  match tsPart (if flip then ~~~x else x) with
  | none => m
  | some (n, bytes) =>
    if !m.lineTrains k i || !l.lock then m
    else
      let parts := joinPart l.parts n bytes
      let b := m.base.flag (Reg.SER_STATUS (camLaneNo k i)) F.SER_STATUS_pol_det flip
      let m := ({ m with base := b } : Mod).setLane k { l with parts := if parts.length = 4 then [] else parts, inverted := flip }
      if parts.length = 4 then m.recordIn k i parts.flatten else m

/-- TRAINING_RECORD_RECEIVE (R263): raw blocks arrive on a lane, in order. -/
def Mod.tsAll (m : Mod) (k i : Nat) (xs : List (BitVec 66)) : Mod := xs.foldl (fun m x => m.tsIn k i x) m

/-- The settle of a lane's tuning is over, and its quick index is taken (R237, R266). -/
def Mod.tuneSettled (m : Mod) (k i : Nat) (scan : List SubEye) : Mod :=
  if m.base.camState k ≠ 4 then m
  else
    let l := (m.cam k).lane i
    let qi := quickIndex (m.base.errThr (24 + k)) scan
    ((m.setLane k { l with tuner := l.tuner.settled qi }).showTuned k).camStep k

/-- 12 ms after LOCK: CONFIG without both tune_done (R264 step 5). -/
def Mod.tuneTimeout (m : Mod) (k : Nat) : Mod := (m.toConfig k).camStep k

/-- train_ms have passed without ACTIVE (R264). -/
def Mod.trainTimeout (m : Mod) (k : Nat) : Mod :=
  let st := m.base.camState k
  if 3 ≤ st && st ≤ 5 then m.trainFail k 1 else m

/-- BLOCK_LOCK (R264 step 3): headers of raw blocks arrive on a lane, in order: 64 valid ones in a row give block lock. -/
def Mod.blockLock (m : Mod) (k i : Nat) (headers : List (BitVec 2)) : Mod :=
  if !m.lineTrains k i then m
  else
    let l := (m.cam k).lane i
    let n := headers.foldl headerRow l.valid
    m.setLane k { l with valid := n, lock := l.lock || n == 64 }

/-! ### Alignment markers and framing (R233, R249, R250) -/

/-- A lane is excluded (R265). -/
def Base.exclude (b : Base) (k i : Nat) : Base :=
  ((b.wr (Reg.FAB_EXCL k) ⟨i, 1⟩ 1).bump (Reg.FAB_CNT k 11)).raise (camEv k 3 0)

/-- A block in an AM slot of a lane in service (R250): a slot without the AM expected is missing, four in a row fail the link; else
its BIP-8 is compared, and three mismatches within 1,000 ms exclude the lane and fail the link. -/
def Mod.amIn (m : Mod) (no : Nat) (block : List Byte) (computed : Nat) (bad : Bool) : Mod :=
  if no < 192 then m
  else
    let k := no / 8 - 24
    let i := no % 8
    let c := m.cam k
    let l := c.lane i
    if !c.running || !bitOf c.active i then m
    else
      let by_ := fun (j : Nat) => fieldAt block j 1
      let am := by_ 0 == 0x4B && by_ 1 == facing c.reversed i && fieldAt block 4 4 == 0x69963AC5
      if !am then
        if l.missing + 1 < 4 then m.setLane k { l with missing := l.missing + 1 } else m.linkReset k 6
      else
        let m := m.setLane k { l with missing := 0 }
        if bad || by_ 3 != 255 - by_ 2 || by_ 2 == computed then m
        else
          let recent := (l.misses.filter (fun t => decide (m.base.now < t + 1000 * ms))) ++ [m.base.now]
          let m := { m with base := m.base.bump (Reg.SER_CNT no 6) }
          if recent.length < 3 then m.setLane k { l with missing := 0, misses := recent }
          else ({ m with base := m.base.exclude k i } : Mod).linkReset k 4

/-- The bytes of a block's payload. -/
def RxBlock.bytes (x : RxBlock) : List Byte := leBytes 8 x.payload.toNat

/-- Is a block a control block, of a type? A block with an invalid header is neither control nor data. -/
def RxBlock.control (x : RxBlock) (type : Nat) : Bool := x.header == 1#2 && x.payload.toNat % 256 == type

/-- The next block of a lane is taken, if it stands in an AM slot: it is the AM, or the AM is missing (R250). -/
def Mod.amTake (m : Mod) (no : Nat) : Mod :=
  let k := no / 8 - 24
  let l := (m.cam k).lane (no % 8)
  match l.code.blocks with
  | x :: rest =>
    if no < 192 || !x.am then m
    else
      let m := m.setLane k { l with code := { l.code with blocks := rest } }
      m.amIn no (if x.header == 1#2 then x.bytes else []) x.parity.toNat x.bad
  | [] => m

/-- The lanes of a port in service are deskewed, up to 64 blocks: beyond, the link fails (R262, R264 step 7). -/
def Mod.deskew (m : Mod) (no skew : Nat) : Mod :=
  let c := m.cam (no / 8 - 24)
  if no < 192 || !c.running || !bitOf c.active (no % 8) || skew ≤ 64 then m else m.linkReset (no / 8 - 24) 6

/-- A lane loses Camtex framing (R233): a link failure on an active lane. -/
def Mod.framingLoss (m : Mod) (no : Nat) : Mod :=
  if !m.base.camTile (laneTile no) || no < 192 then m
  else
    let k := no / 8 - 24
    let held := m.base.isSet (Reg.SER_STATUS no) F.SER_STATUS_frame
    if !held then m
    else
      let m := { m with base := (m.base.wr (Reg.SER_STATUS no) F.SER_STATUS_frame 0).bump (Reg.SER_CNT no 5) }
      let c := m.cam k
      if c.running && bitOf c.active (no % 8) then m.linkReset k 5 else m

/-- A codeword arrives on a lane in service (R229-R233): the pair as wired and as training found it (R241), the FEC with its counts, then
the blocks, their invalid headers counted; framing may be lost. -/
def Mod.wordIn (m : Mod) (no : Nat) (levels : List (Fin 4)) : Mod :=
  let k := no / 8 - 24
  let c := m.cam k
  let l := c.lane (no % 8)
  if no < 192 || !c.running || !bitOf c.active (no % 8) then m
  else
    let (msg, fixed, bad) := codewordOf (invertLevels (m.base.isSet (Reg.SER_LANE_CFG no) F.SER_LANE_CFG_rx_inv != l.inverted) levels)
    let (code, wrong) := l.code.unpack msg bad
    let b := ((m.base.bumpBy (Reg.SER_CNT no 2) fixed).bumpBy (Reg.SER_CNT no 3) (b2n bad)).bumpBy (Reg.SER_CNT no 4) wrong
    let b := (b.occ 0x240 (laneTile no) none fixed).occ 0x241 (laneTile no) none (b2n bad)
    let m := ({ m with base := b } : Mod).setLane k { l with code := code }
    if code.unframed then m.framingLoss no else m

/-- Codewords arrive on a lane, in order. -/
def Mod.wordsIn (m : Mod) (no : Nat) (ws : List (List (Fin 4))) : Mod := ws.foldl (fun m w => m.wordIn no w) m

/-- The next block of the port's stream (R248, R253): of the next logical lane, unless that lane has none or stands at an AM slot. -/
def CamPort.nextBlock (c : CamPort) : Option (RxBlock × CamPort) :=
  let l := c.lane (c.physical c.rxLane)
  match l.code.blocks with
  | x :: rest =>
    if x.am then none
    else some (x, { (c.setLane { l with code := { l.code with blocks := rest } }) with
      rxLane := if c.rxLane + 1 < c.width then c.rxLane + 1 else 0 })
  | [] => none

/-- The next `n` blocks of the stream, if they have all come. -/
def CamPort.takeBlocks : Nat → CamPort → Option (List RxBlock × CamPort)
  | 0, c => some ([], c)
  | n + 1, c =>
    match c.nextBlock with
    | none => none
    | some (x, c) => (CamPort.takeBlocks n c).map (fun y => (x :: y.1, y.2))

/-! ### Test mode, tile PLLs and the rate (R227, R242, R265) -/

/-- Has a tile an enabled port, so that its PLL runs (R324)? -/
def Base.tileEnabled (b : Base) (t : Nat) : Bool :=
  (b.portsTouch t).any (fun p => b.portRole p != 4 || b.isSet (Reg.FAB_CFG (t - 24)) F.FAB_CFG_enable)

/-- Every PCI Express port of a tile goes down. -/
def Mod.tileDown (m : Mod) (t : Nat) : Mod :=
  (m.base.portsTouch t).foldl (fun m p => if m.base.portRole p = 4 then m else m.portDown p) m

/-- The PCI Express ports of a tile may train again: PRT_STATUS shows training. -/
def Mod.tileTrain (m : Mod) (t : Nat) : Mod :=
  (m.base.portsTouch t).foldl (fun m p =>
    if m.base.portRole p = 4 || m.base.linkUp p then m
    else { m with base := m.base.trainPort p }) m

/-- A write of SER_TILE_CTL (R242, R246). -/
def Mod.tileCtl (m : Mod) (t v : Nat) : Mod :=
  let a := Reg.SER_TILE_CTL t
  let was := m.base.inTest t
  let b := (m.base.wr a F.SER_TILE_CTL_test (b2n (bitOf v 0))).wr a F.SER_TILE_CTL_no_gate (b2n (bitOf v 1))
  let m := { m with base := b }
  if !was && bitOf v 0 then
    let b := (m.base.raise { group := 10, bit := t, cause := 1 }).tileUngate t
    let m := ({ m with base := b } : Mod).tileDown t
    if m.base.camTile t && 24 ≤ t && m.base.camState (t - 24) != 0 then m.linkReset (t - 24) 10 else m
  else if was && !bitOf v 0 then
    let m := (m.patternsStop t).tileTrain t
    if m.base.camTile t && 24 ≤ t then m.camTrain (t - 24) 0#8 else m
  else m

/-- A write of SER_TILE_CFG (R265): a change of camtex_85 on a Camtex tile starts a link reset. -/
def Mod.tileCfg (m : Mod) (t v : Nat) : Mod :=
  let a := Reg.SER_TILE_CFG t
  let was := m.base.isSet a F.SER_TILE_CFG_camtex_85
  let b := ((m.base.wr a F.SER_TILE_CFG_camtex_85 (b2n (bitOf v 6))).wr a F.SER_TILE_CFG_good_ei (bits v ⟨8, 8⟩)).wr a
    F.SER_TILE_CFG_idle_us (bits v ⟨16, 16⟩)
  let m := { m with base := b }
  if b.camTile t && 24 ≤ t && was != bitOf v 6 && b.camMay (t - 24) then m.linkReset (t - 24) 9 else m

/-- A tile PLL loses lock (R227): every port on the tile is down. -/
def Mod.pllLoss (m : Mod) (t : Nat) : Mod :=
  let b := m.base.raise { group := 10, bit := t, cause := 0, sev := 1 }
  let m := ({ m with base := b.wr (Reg.SER_TILE_STATUS t) F.SER_TILE_STATUS_pll_lock 0 } : Mod).tileDown t
  if m.base.camTile t && 24 ≤ t && m.base.camState (t - 24) != 0 then m.linkReset (t - 24) 7 else m

/-- A tile PLL has lock (R227): its ports may train. That of a tile with no enabled port is stopped (R324). -/
def Mod.pllLock (m : Mod) (t : Nat) : Mod :=
  if !m.base.tileEnabled t then m
  else
  let m := ({ m with base := m.base.wr (Reg.SER_TILE_STATUS t) F.SER_TILE_STATUS_pll_lock 1 } : Mod)
  if m.base.camTile t && 24 ≤ t then
    (if m.base.camState (t - 24) = 0 then m.camTrain (t - 24) 0#8 else m)
  else if m.base.inTest t then m else m.tileTrain t

/-- An adaptation ends on a lane: a Camtex port in LOCK may go on (R238, R264). -/
def Mod.adaptDone (m : Mod) (l : Nat) (x : Adaptation) : Mod :=
  let m := m.adaptDoneAt l x
  if 192 ≤ l then m.camStep (l / 8 - 24) else m

end Sys2Proof.Machine
end

