-- ==== Sys2Proof/Machine/Keystone.lean ====
section
/-! DEFINITION. The bond's keystone (R279-R284), its routes and tables (R282), lends (R285), the fabric routing table
(R287, R288, R293), and what a member's coming and going does (R281, R291, R292). -/

namespace Sys2Proof.Machine

/-! ### Bonds and candidates (R269, R279) -/

/-- How many bonds contain this module. -/
def Base.depth (b : Base) : Nat := b.rd Reg.BND_CFG F.BND_CFG_depth

/-- Does the bond logic run? -/
def Base.bondOn (b : Base) : Bool := b.isSet Reg.BND_CFG F.BND_CFG_enable && decide (0 < b.depth)

/-- Is the recorded keystone of the bond at index `i` this module? -/
def Base.ksSelf (b : Base) (i : Nat) : Bool := b.isSet (Reg.BND_KEYSTONE i) F.BND_KEYSTONE_self
def Base.electing (b : Base) (i : Nat) : Bool := b.isSet (Reg.BND_KEYSTONE i) F.BND_KEYSTONE_electing
def Base.term (b : Base) (i : Nat) : Nat := b.rd (Reg.BND_KEYSTONE i) F.BND_KEYSTONE_term

/-- Is this module a keystone at any level? -/
def Base.anyKeystone (b : Base) : Bool := (List.range 4).any b.ksSelf

/-- Is this module a candidate at index `i`: for itself at its own depth, else as the keystone of its member bond (R279)? -/
def Base.standsAt (b : Base) (i : Nat) : Bool :=
  b.bondOn && (i + 1 == b.depth || (decide (i + 1 < b.depth) && b.ksSelf (i + 1)))

/-- Is a module in the bond that this module is in at index `i`? -/
def Base.inBond (b : Base) (i p : Nat) : Bool :=
  match diffLevel p b.path with
  | none => false
  | some l => decide (i < l)

/-- This module's election key: priority, then serial; the lowest wins (R279). -/
def Base.ownKey (b : Base) : Nat × Nat := (b.rd Reg.BND_CFG F.BND_CFG_priority, b.word64 Reg.GLB_SERIAL)
def keyLess (a c : Nat × Nat) : Bool := decide (a.1 < c.1) || (a.1 == c.1 && decide (a.2 < c.2))

/-- The module that Camtex port k's partner is, if its path is known (R263). -/
def Base.partner (b : Base) (k : Nat) : Option Nat :=
  let a := Reg.FAB_PARTNER_INFO k
  if b.isSet a F.FAB_PARTNER_INFO_path_valid then some (b.rd a F.FAB_PARTNER_INFO_path) else none

/-- The other modules that this one has heard of. -/
def Mod.known (m : Mod) : List Nat :=
  let ps := (List.range 8).filterMap m.base.partner ++ m.bnd.members.flatMap (fun x => x.path :: x.ports.map PortReport.partner) ++
    (List.range 4).filterMap m.base.keystone ++ m.bnd.outs.map OutStream.path ++ m.bnd.ins.map InStream.path
  (ps.filter (fun p => p != m.base.path && decide (p < 4096))).eraseDups

/-! ### KEY segments (R271, R280; their bodies: log entry 10) -/

/-- The body of a CANDIDATE (kind 0) or HEARTBEAT (kind 1). -/
def keyBody (kind i term : Nat) (key : Nat × Nat) (path : Nat) : List Byte :=
  leBytes 4 (kind + 2 ^ 8 * i + 2 ^ 16 * (term % 2 ^ 16)) ++ leBytes 4 key.1 ++ leBytes 8 key.2 ++ leBytes 4 path

/-- The bodies of a HEARTBEAT_ACK (kind 2), or of one that the keystone passes on (kind 3): the module, its ports, its wish to
enter M2, the names of the entries it kept, 20 to a segment, and the modules it holds segments or frames for, 0xFFFF where they are more
than 22; all but the last say that more follow. -/
def ackBody (kind i : Nat) (a : HbAck) (more : Bool) (kept : List Nat) : List Byte :=
  leBytes 4 (kind + 2 ^ 8 * i + 2 ^ 10 * b2n more + 2 ^ 11 * b2n a.m2Request) ++ leBytes 4 a.path ++ leBytes 4 a.ports.length ++
  leBytes 4 kept.length ++ (a.ports.take 8).flatMap (fun p => leBytes 2 (b2n p.active + 2 * p.partner)) ++
  List.replicate (16 - 2 * (a.ports.take 8).length) 0#8 ++ kept.flatMap (leBytes 8) ++ List.replicate (160 - 8 * kept.length) 0#8 ++
  (match a.busy with
    | some ps => leBytes 2 ps.length ++ ps.flatMap (leBytes 2)
    | none => leBytes 2 0xFFFF)
def ackBodies (kind i : Nat) (a : HbAck) : Nat → List Nat → List (List Byte)
  | 0, kept => [ackBody kind i a false kept]
  | n + 1, kept => if kept.length ≤ 20 then [ackBody kind i a false kept]
                   else ackBody kind i a true (kept.take 20) :: ackBodies kind i a n (kept.drop 20)

/-- A KEY segment goes to a module. -/
def Mod.sendKey (m : Mod) (path : Nat) (body : List Byte) : Mod := m.sendLoose { stype := .key, cls := .response, dstPath := path, data := body }

/-- A KEY body goes to every module of the bond at index `i`. -/
def Mod.sendKeys (m : Mod) (i : Nat) (body : List Byte) : Mod :=
  (m.known.filter (m.base.inBond i)).foldl (fun m p => m.sendKey p body) m

/-! ### What the keystone writes (R139, R282) -/

/-- A register word is written at a member as a keystone-agent access, a DATA segment to dst_port 0x3F (log entry 10); at this
module itself as an access of management core 0. -/
def Mod.writeAt (m : Mod) (path off v : Nat) : Mod :=
  if path = m.base.path then { m with regIn := m.regIn ++ [(.mgmt 0, off, BitVec.ofNat 32 v)] }
  else
    m.toBond { dstPath := path, ks := true, world := true,
               data := leBytes 4 0 ++ tlpWire { kind := .memWrite, addr := ctlAddr off, data := leBytes 4 v } }

/-! ### Routes (R282) -/

/-- The links that the keystone knows of: a module, and its ACTIVE ports with the module each leads to. -/
def Mod.links (m : Mod) : List (Nat × List (Nat × Nat)) :=
  let own := (List.range 8).filterMap (fun k => if m.base.camActive k then (m.base.partner k).map (fun p => (k, p)) else none)
  let far := m.bnd.members.foldl (fun (l : List (Nat × List (Nat × Nat))) x =>
    if l.any (fun y => y.1 == x.path) then l
    else
      let ports := (List.range x.ports.length).filterMap (fun k => match x.ports[k]? with
        | some r => if r.active then some (k, r.partner) else none
        | none => none)
      l ++ [(x.path, ports)]) []
  (m.base.path, own) :: far

/-- The modules one hop further from a set. -/
def growSet (links : List (Nat × List (Nat × Nat))) (s : List Nat) : List Nat :=
  s ++ (links.filter (fun x => !s.contains x.1 && x.2.any (fun e => s.contains e.2))).map Prod.fst

/-- The fewest hops from a module into a set. -/
def hopsTo (links : List (Nat × List (Nat × Nat))) : Nat → List Nat → Nat → Option Nat
  | 0, s, p => if s.contains p then some 0 else none
  | n + 1, s, p => if s.contains p then some 0 else (hopsTo links n (growSet links s) p).map (fun d => d + 1)

/-- The ports of a module on a path of fewest hops into a set, as a mask, and the hops. -/
def fewestHops (links : List (Nat × List (Nat × Nat))) (s : List Nat) (p : Nat) : Nat × Nat :=
  match hopsTo links 15 s p with
  | some (d + 1) =>
    let ports := ((links.find? (fun x => x.1 == p)).map Prod.snd).getD []
    (ports.foldl (fun n e => if hopsTo links 15 s e.2 == some d then n + 2 ^ e.1 else n) 0, d + 1)
  | _ => (0, 0)

/-- The BND_ROUTE word of a module for a set of destinations (R282): the alternate mask once the primary links are out. -/
def routeWord (links : List (Nat × List (Nat × Nat))) (s : List Nat) (p : Nat) : Nat :=
  let (pri, hops) := fewestHops links s p
  let rest := links.map (fun x => if x.1 == p then (x.1, x.2.filter (fun e => !bitOf pri e.1)) else x)
  let (alt, _) := fewestHops rest s p
  pri % 256 + 2 ^ 8 * (alt % 256) + 2 ^ 16 * min hops 15

/-- The routes of a module at index `i`, for every digit but its own. -/
def routesOf (links : List (Nat × List (Nat × Nat))) (all : List Nat) (i p : Nat) : List (Nat × Nat) :=
  ((List.range 8).filter (fun d => d != pathDigit p (i + 1))).map (fun d =>
    let s := all.filter (fun q => diffLevel q p == some (i + 1) && pathDigit q (i + 1) == d)
    (8 * i + d, if s.isEmpty then 0 else routeWord links s p))

/-- The keystone of the bond at index `i` computes every member's routes and writes those that differ from what it last wrote. -/
def Mod.computeRoutes (m : Mod) (i : Nat) : Mod :=
  if !m.base.ksSelf i then m
  else
    let links := m.links
    let all := (links.flatMap (fun x => x.1 :: x.2.map Prod.snd)).eraseDups
    let mine := routesOf links all i m.base.path
    let m := mine.foldl (fun m r =>
      if (m.base.word (Reg.BND_ROUTE r.1)).toNat % 2 ^ 20 = r.2 then m else m.writeAt m.base.path (Reg.BND_ROUTE r.1) r.2) m
    m.bnd.members.foldl (fun m x =>
      if x.level ≠ i || m.base.memberState x.path ≠ 1 then m
      else
        let rs := routesOf links all i x.path
        let m := rs.foldl (fun m r => if x.routes.lookup r.1 == some r.2 then m else m.writeAt x.path (Reg.BND_ROUTE r.1) r.2) m
        { m with bnd := { m.bnd with members := m.bnd.members.map (fun y =>
            if y.level == i && y.path == x.path then { y with routes := rs } else y) } }) m

/-! ### Members come and go (R281, R284, R291, R292) -/

/-- Is a module the member that BND_MEMBER[idx] stands for, or within it? -/
def Base.isUnder (b : Base) (idx p : Nat) : Bool := b.memberIndex p == some idx

/-- The virtual ports that hold shelves lent by a member show presence or its loss (R285, R291). -/
def Base.lentPresence (b : Base) (idx : Nat) (here : Bool) : Base :=
  (List.range 256).foldl (fun b v =>
    if b.isSet (Reg.BND_LEND v) F.BND_LEND_valid && b.isUnder idx (b.rd (Reg.BND_LEND v) F.BND_LEND_owner_path) then
      b.virtualLink (88 + v) (v / 32) here here false
    else b) b

/-- This module's own second copy of an entry that it sent to a module now lost: it waits as an orphan (R292). -/
def Mod.keepCopy (m : Mod) (e : Entry) : Mod :=
  match e.remoteTo with
  | none => m
  | some p =>
    if !e.double || e.grans.isEmpty then m
    else
      let g : Guest := { owner := p, idx := ownCopy e.idx, cls := e.cls, release := e.release, shelf := e.shelf % 64, seq := e.seq,
                         grans := e.grans, length := e.length, stored := e.length, raw := ({ e with grans := [] } : Entry).raw }
      let m := m.setEntry { e with grans := [] }
      { m with prk := { m.prk with guests := m.prk.guests ++ [g] } }

/-- What becomes of an entry when a member is lost (R291, R292): one that the lost module holds ends with TARGET_GONE; one whose copy it
held goes back to HELD; one whose data it was still to send, or that it was to receive, ends. -/
def Mod.entryOfLost (m : Mod) (idx : Nat) (e : Entry) : Mod :=
  let lost := fun (x : Option (Nat × Nat)) => match x with
    | some (p, _) => m.base.isUnder idx p
    | none => false
  if e.remoteTo.isSome && m.base.isUnder idx (m.peerOf e) then m.finishIdx e.idx 0x21
  else if (e.double || e.awaitPeer) && m.base.isUnder idx (m.peerOf e) then m.peerNo e.idx
  else match e.remote with
    | some (p, i) => if lost (some (p, i)) && (e.read || e.grans.isEmpty || e.state = 1) then m.remoteFree p i else m
    | none => if lost e.source && e.state = 1 then m.finishIdx e.idx 0x21 else m

/-- A member is LOST (R281): counted, a contained event; what this module holds of it or left with it is dealt with. The guest copies of its
entries become orphans with their hold time; one whose bytes had not all come is dropped (R292). -/
def Mod.memberGone (m : Mod) (idx : Nat) : Mod :=
  let b := (m.base.bump (Reg.BND_CNT 13)).raise { group := 12, bit := 1, sev := 1, detail := idx }
  let hold := b.rd Reg.BND_ORPHAN F.BND_ORPHAN_hold_h * 3600 * sec
  let away := m.prk.entries.filter (fun e => e.remoteTo.isSome && b.isUnder idx (m.peerOf e))
  let m := away.foldl Mod.keepCopy { m with base := b.lentPresence idx false }
  let mine := fun (g : Guest) => !g.orphan && b.isUnder idx g.owner
  let whole := m.prk.guests.filter (fun g => !mine g || decide (g.length ≤ g.stored))
  let m : Mod := { m with base := (whole.filter mine).foldl (fun b g => b.arm (.orphan (guestKey g.owner g.idx)) hold) m.base,
                          prk := { m.prk with guests := whole.map (fun g => if mine g then { g with orphan := true } else g) } }
  m.prk.entries.foldl (fun m e => m.entryOfLost idx e) m

/-- A member is back, from loss or from sleep: every stream towards it restarts (R278, R281). -/
def Mod.memberBack (m : Mod) (idx old : Nat) : Mod :=
  let m : Mod := { m with base := if old = 3 then m.base.lentPresence idx true else m.base,
                          bnd := { m.bnd with woke := m.bnd.woke.filter (fun p => !m.base.isUnder idx p) } }
  m.bnd.outs.foldl (fun m o =>
    if m.base.isUnder idx o.path then
      (m.setOut { o with state := if o.state = 3 then 0 else o.state }).restartStream o.path o.cls
    else m) m

/-- A member enters M2 (R277, R284): the streams towards it wait, their timers stopped. -/
def Mod.memberAsleep (m : Mod) (idx : Nat) : Mod :=
  m.bnd.outs.foldl (fun m o =>
    if m.base.isUnder idx o.path && o.state != 4 then
      let o := { o with state := 3 }
      (m.setOut o).streamTimers o
    else m) m

/-- The state of a member changes in BND_MEMBER. -/
def Mod.setMember (m : Mod) (idx st : Nat) : Mod :=
  let old := m.base.rd (Reg.BND_MEMBER idx) F.BND_MEMBER_state
  if old = st then m
  else
    let m : Mod := { m with base := m.base.wr (Reg.BND_MEMBER idx) F.BND_MEMBER_state st }
    if st = 3 then m.memberGone idx
    else if st = 2 then m.memberAsleep idx
    else if st = 1 && old ≠ 0 then m.memberBack idx old
    else m

/-- BND_MEMBER shows which members this module is or lies within (R281). -/
def Base.showSelf (b : Base) : Base :=
  (List.range (min 4 b.depth)).foldl (fun b i =>
    (b.wr (Reg.BND_MEMBER (8 * i + pathDigit b.path (i + 1))) F.BND_MEMBER_self 1)) b

/-- The keystone mirrors a member's state to every member of the bond (R281; by keystone-agent writes, log entry 10). -/
def Mod.mirror (m : Mod) (i idx : Nat) : Mod :=
  let st := m.base.rd (Reg.BND_MEMBER idx) F.BND_MEMBER_state
  m.bnd.members.foldl (fun m x => if x.level = i then m.writeAt x.path (Reg.BND_MEMBER idx) st else m) m

/-- The keystone records a member's state and mirrors it. -/
def Mod.record (m : Mod) (i idx st : Nat) : Mod :=
  if m.base.rd (Reg.BND_MEMBER idx) F.BND_MEMBER_state = st then m else (m.setMember idx st).mirror i idx

/-- MEMBER_LOST: at the keystone, a member that has missed three heartbeats; at another member, one that the keystone has marked. -/
def Mod.memberLost (m : Mod) (path : Nat) : Mod :=
  match m.base.memberIndex path with
  | none => m
  | some idx =>
    let i := idx / 8
    if !m.base.bondOn || m.base.memberState path ≠ 1 then m
    else if m.base.ksSelf i then
      if m.bnd.members.any (fun x => x.level == i && x.path == path && decide (3 ≤ x.misses)) then
        let m : Mod := { m with bnd := { m.bnd with members := m.bnd.members.map (fun x =>
          if x.level == i && x.path == path then { x with ports := [], kept := [], routes := [] } else x) } }
        (m.record i idx 3).computeRoutes i
      else m
    else m.setMember idx 3

/-! ### Orphans are handed back (R292) -/

/-- Insert a guest in slot and shelf-sequence order (R20). -/
def insertGuest (g : Guest) : List Guest → List Guest
  | [] => [g]
  | x :: xs => if g.shelf < x.shelf || (g.shelf == x.shelf && newer 32 x.seq g.seq) then g :: x :: xs else x :: insertGuest g xs

/-- The name under which the owner of a guest copy keeps its entry (R292): the copy's index; for this module's own second copy, its own
path and index (log entry 12). -/
def Mod.guestName (m : Mod) (g : Guest) : Nat :=
  if g.idx < 2 ^ 22 then g.idx else g.idx - 2 ^ 22 + 2 ^ 32 * (m.base.path + 1)
def Entry.keptName (e : Entry) : Nat :=
  match e.keptFor with
  | some (path, i) => if path < 4096 then i + 2 ^ 32 * (path + 1) else i
  | none => e.idx

/-- An orphan's entry, where `head`, and its bytes go to its owner, read under the engine's guard as slice 0's (R138, R292). All of it travels
as frames of the bond logic, so that it keeps its order (log entry 12). What the guard denies stays an orphan. -/
def Mod.sendOrphan (m : Mod) (path : Nat) (g : Guest) (head : Bool) : Mod :=
  let world := m.base.partWorld (m.base.slicePart 0)
  match m.getAt (g.store world) 0 g.length with
  | (m, some _, _) => m
  | (m, none, data) =>
    let m : Mod := { m with prk := { m.prk with guests := m.prk.guests.map (fun x => if x == g then { g with sent := true } else x) } }
    let m := if head then m.toBond { dstPath := path, world := world, data := leBytes 4 6 ++ leBytes 4 g.idx ++ g.raw } else m
    (cutPieces 1024 (g.length / 1024 + 2) 0 g.length).foldl (fun m x =>
      m.toBond { dstPath := path, world := world, data := leBytes 4 7 ++ leBytes 4 g.idx ++ leBytes 4 x.1 ++ (data.drop x.1).take x.2,
                 copy := if g.length ≤ x.1 + x.2 then some (guestKey g.owner g.idx) else none }) m
def Mod.sendBack (m : Mod) (path : Nat) (g : Guest) : Mod := m.sendOrphan path g true

/-- A module with a lost member's path has joined: its orphans that it did not keep go back in shelf-sequence order, then word
that the hand-back is done; the copies of entries it kept are its guest copies again (R292 steps 1 and 2). -/
def Mod.handBack (m : Mod) (path : Nat) (kept : List Nat) : Mod :=
  let mine := m.prk.guests.filter (fun g => g.owner == path && g.orphan && !g.sent)
  if mine.isEmpty then m
  else
    let (stay, go) := mine.partition (fun g => kept.contains (m.guestName g))
    let b := mine.foldl (fun b g => b.disarm (.orphan (guestKey g.owner g.idx))) m.base
    let m : Mod := { m with base := b, prk := { m.prk with guests := m.prk.guests.map (fun g =>
      if stay.contains g then { g with orphan := false } else g) } }
    let m := (go.foldl (fun l g => insertGuest g l) []).foldl (fun m g => m.sendBack path g) m
    m.toBond { dstPath := path, stype := .msg, data := leBytes 4 (7 + 2 ^ 8 * 5) ++ leBytes 4 0 }

/-- An orphan's hold time is over (R292): it is discarded. -/
def Mod.orphanEnd (m : Mod) (k : Nat) : Mod :=
  match m.prk.guests.find? (fun g => guestKey g.owner g.idx == k && g.orphan && !g.sent) with
  | none => m
  | some g =>
    { m with base := m.base.raise { group := 12, bit := 9, detail := g.idx, detail2 := g.owner },
             prk := { m.prk with guests := m.prk.guests.filter (fun x => x != g) } }

/-- An orphan comes home (R292 step 3): its slot's port stays contained until every holder has reported; the containment is recorded as one
of PRT_CTL.contain (DESIGN CHOICE, log entry 12: cont_cause has no code for it). -/
def Mod.backArrive (m : Mod) (path idx : Nat) (raw : List Byte) : Mod :=
  let n := fieldAt raw 0 4 / 1024 % 64
  let m := if m.bnd.awaitBack.contains (n, path) then m
    else { m with bnd := { m.bnd with awaitBack := m.bnd.awaitBack ++ [(n, path)] } }
  let m := match m.base.slotPort n with
    | some p => if m.base.contained p then m
                else ({ m with bnd := { m.bnd with backPorts := m.bnd.backPorts ++ [p] } } : Mod).containPort p 3
    | none => m
  m.remoteArrive path idx raw true

/-- A holder reports its hand-back done. -/
def Mod.backDone (m : Mod) (path : Nat) : Mod :=
  let slots := (m.bnd.awaitBack.filter (fun x => x.2 == path)).map Prod.fst
  let m : Mod := { m with bnd := { m.bnd with awaitBack := m.bnd.awaitBack.filter (fun x => x.2 != path) } }
  slots.foldl (fun m n =>
    if m.bnd.awaitBack.any (fun x => x.1 == n) then m
    else match m.base.slotPort n with
      | some p => if m.bnd.backPorts.contains p then
                    ({ m with bnd := { m.bnd with backPorts := m.bnd.backPorts.filter (fun q => q != p) } } : Mod).releasePort p
                  else m
      | none => m) m

/-! ### Elections and heartbeats (R280-R283) -/

/-- What is recorded of the election at an index. -/
def Mod.elect (m : Mod) (i : Nat) : Elect := (m.bnd.elects.find? (fun e => e.level == i)).getD { level := i }
/-- Puts the record of an election at its index. -/
def Mod.setElect (m : Mod) (e : Elect) : Mod :=
  { m with bnd := { m.bnd with elects := m.bnd.elects.filter (fun x => x.level != e.level) ++ [e] } }

/-- A term has been heard. -/
def Mod.hearTerm (m : Mod) (i t : Nat) : Mod :=
  let e := m.elect i
  if newer 16 t e.heard then m.setElect { e with heard := t % 2 ^ 16 } else m

/-- BND_KEYSTONE[i] is written. -/
def Base.putKeystone (b : Base) (i path : Nat) (valid self electing : Bool) (term : Nat) : Base :=
  b.setWord (Reg.BND_KEYSTONE i)
    (BitVec.ofNat 32 (path % 4096 + 2 ^ 12 * b2n valid + 2 ^ 13 * b2n self + 2 ^ 14 * b2n electing + 2 ^ 16 * (term % 2 ^ 16)))

/-- Lend requests that are not answered go to the keystone of the bond that holds both modules (R285). -/
def Mod.askKeystone (m : Mod) (r : LendReq) : Mod :=
  let i := match diffLevel r.ownerPath r.borrowerPath with
    | some l => l - 1
    | none => m.base.depth - 1
  match m.base.keystone i with
  | none => m
  | some p =>
    m.toBond { dstPath := p, stype := .msg,
               data := leBytes 4 8 ++ leBytes 4 (b2n r.unlend) ++ leBytes 4 r.ownerPath ++ leBytes 4 r.slot ++
                       leBytes 4 r.borrowerPath ++ leBytes 4 r.partition ++ leBytes 4 r.dev }

/-- An election starts (R280). -/
def Mod.startElection (m : Mod) (i : Nat) : Mod :=
  if !m.base.standsAt i then m
  else
    let term := ((m.elect i).heard + 1) % 2 ^ 16
    let a := Reg.BND_KEYSTONE i
    let b := ((m.base.wr a F.BND_KEYSTONE_term term).wr a F.BND_KEYSTONE_electing 1).wr a F.BND_KEYSTONE_self 0
    let b := (b.bump (Reg.BND_CNT 12)).raise { group := 12, bit := 2, detail := i + 1 }
    let b := ((b.disarm (.heartbeat i)).disarm (.ksLoss i)).arm (.collect i) b.collectNs
    let (p, s) := b.ownKey
    let m := ({ m with base := b } : Mod).setElect { level := i, prio := p, serial := s, path := b.path, heard := term }
    m.sendKeys i (keyBody 0 i term (p, s) b.path)

/-- The bond logic starts (R278, R280). -/
def Mod.bondStart (m : Mod) : Mod :=
  if m.base.bondOn then ({ m with base := m.base.showSelf } : Mod).startElection (m.base.depth - 1) else m

/-- The modules that this one holds segments or frames for (R284). -/
def Mod.waitedFor (m : Mod) : List Nat :=
  ((m.bnd.outs.filter (fun o => !o.queue.isEmpty || !o.held.isEmpty)).map OutStream.path ++ m.bnd.wait.map BondMsg.dstPath ++
    m.sw.frames.filterMap (fun f => f.bond.map BondMsg.dstPath)).eraseDups

/-- The ports and wishes that this module reports (R281, R284). -/
def Mod.ownAck (m : Mod) : HbAck :=
  { path := m.base.path, m2Request := m.bnd.m2ask,
    ports := (List.range 8).map (fun k => ⟨m.base.camActive k, (m.base.partner k).getD 0xFFF⟩),
    kept := (m.prk.entries.filter (fun e => e.keptFor.isSome)).map Entry.keptName,
    busy := if m.waitedFor.length ≤ 22 then some m.waitedFor else none }

/-- A heartbeat goes out; members that do not answer three are for MEMBER_LOST (R281). -/
def Mod.beat (m : Mod) (i : Nat) : Mod :=
  let m : Mod := { m with base := m.base.arm (.heartbeat i) m.base.hbNs,
                          bnd := { m.bnd with members := m.bnd.members.map (fun x =>
                      if x.level == i then { x with misses := x.misses + 1 } else x) } }
  m.sendKeys i (keyBody 1 i (m.base.term i) m.base.ownKey m.base.path)

/-- Every hb_ms (R280). -/
def Mod.heartbeatTimer (m : Mod) (i : Nat) : Mod := if m.base.ksSelf i then (m.beat i).computeRoutes i else m

/-- Word w of entry e, and the offset of the table's word. -/
def rtOff (e w : Nat) : Nat := Reg.BND_RT0 e + 4 * w
def Base.rtWord (b : Base) (e w : Nat) : Nat := (b.word (rtOff e w)).toNat

/-- An entry is written, its word 0 last (R293). -/
def Mod.writeEntry (m : Mod) (path e sel kind rid dst port new : Nat) : Mod :=
  let m := m.writeAt path (rtOff e 1) 0
  let m := m.writeAt path (rtOff e 2) (dst % 4096 + 2 ^ 12 * (port % 64) + 2 ^ 18)
  let m := m.writeAt path (rtOff e 3) (new % 2 ^ 16)
  let m := m.writeAt path (rtOff e 4) 0
  let m := m.writeAt path (rtOff e 5) 0
  m.writeAt path (rtOff e 0) (rid % 2 ^ 16 + 2 ^ 16 * (sel % 64) + 2 ^ 22 * kind + 2 ^ 31)

/-- A lend's routing entries and records are written (R282, R285, R286): at the owner its shelf's requests and the completions for the
borrower's requesters, at the borrower its host's requests and the completions for the shelf's, each with the other end's identity. -/
def Mod.writeLend (m : Mod) (l : Lend) : Mod :=
  let r := l.req
  let near := 2 ^ 8 * (0x40 + r.slot)
  let far := 2 ^ 8 * l.bus
  let m := match l.ownerEntries, l.borrowerEntries with
    | [o1, o2], [b1, b2] =>
      let m := m.writeEntry r.ownerPath o1 l.port 0 near r.borrowerPath l.up l.shelf
      let m := m.writeEntry r.ownerPath o2 l.port 1 far r.borrowerPath l.up l.host
      let m := m.writeEntry r.borrowerPath b1 l.up 0 l.host r.ownerPath l.port far
      m.writeEntry r.borrowerPath b2 l.up 1 l.shelf r.ownerPath l.port near
    | _, _ => m
  let m := m.writeAt r.ownerPath (Reg.BND_PORT_LEND l.port) (r.borrowerPath % 4096 + 2 ^ 12 * r.partition + 2 ^ 15 * r.dev + 2 ^ 20)
  m.writeAt r.borrowerPath (Reg.BND_LEND (32 * r.partition + r.dev)) (r.ownerPath % 4096 + 2 ^ 12 * l.port + 2 ^ 18 * r.slot + 2 ^ 24)

/-- This module becomes keystone (R280, R282): it rewrites every table in full. -/
def Mod.becomeKeystone (m : Mod) (i : Nat) : Mod :=
  let b := ((m.base.putKeystone i m.base.path true true false (m.base.term i)).disarm (.ksLoss i)).disarm (.collect i)
  let m : Mod := { m with base := b, bnd := { m.bnd with members := m.bnd.members.map (fun x => if x.level == i then { x with routes := [] } else x) } }
  let m := (m.beat i).computeRoutes i
  let m := m.bnd.lends.foldl (fun m l => if l.ending then m else m.writeLend l) m
  let m := m.bnd.asks.foldl Mod.askKeystone m
  if 0 < i && (m.base.keystone (i - 1)).isNone then m.startElection (i - 1) else m

/-- The collection time is over (R280). -/
def Mod.collectEnd (m : Mod) (i : Nat) : Mod :=
  if !m.base.electing i then m
  else if (m.elect i).path = m.base.path then m.becomeKeystone i
  else { m with base := m.base.arm (.ksLoss i) m.base.hbNs }

/-- No heartbeat of the current term has come in time (R280): an election, or, for a module that is no candidate, nothing. -/
def Mod.ksLost (m : Mod) (i : Nat) : Mod := m.startElection i

/-- A CANDIDATE arrives (R280): it counts while candidates are collected. -/
def Mod.candidateIn (m : Mod) (i term : Nat) (key : Nat × Nat) (path : Nat) : Mod :=
  if !m.base.bondOn || m.base.depth ≤ i then m
  else
    let cur := m.base.term i
    let m := m.hearTerm i term
    if !m.base.electing i || !m.base.armed (.collect i) then m
    else
      let e := m.elect i
      let own := m.base.ownKey
      if term = cur then
        (if keyLess key (e.prio, e.serial) then m.setElect { e with prio := key.1, serial := key.2, path := path } else m)
      else if newer 16 term cur then
        let m : Mod := { m with base := m.base.wr (Reg.BND_KEYSTONE i) F.BND_KEYSTONE_term term }
        if keyLess key own then m.setElect { e with prio := key.1, serial := key.2, path := path }
        else m.setElect { e with prio := own.1, serial := own.2, path := m.base.path }
      else m

/-- This module follows a keystone (R280, R283), and answers (R281). -/
def Mod.follow (m : Mod) (i term : Nat) (key : Nat × Nat) (path : Nat) : Mod :=
  let fresh := m.base.keystone i != some path
  let b := ((m.base.putKeystone i path true false false term).disarm (.heartbeat i)).disarm (.collect i)
  let b := b.arm (.ksLoss i) (2 * b.hbNs)
  let m := ({ m with base := b } : Mod).setElect { (m.elect i) with prio := key.1, serial := key.2, path := path }
  let m := if fresh then m.bnd.asks.foldl Mod.askKeystone m else m
  (ackBodies 2 i m.ownAck (m.ownAck.kept.length / 20 + 1) m.ownAck.kept).foldl (fun m x => m.sendKey path x) m

/-- A HEARTBEAT arrives (R280, R283): a keystone that hears another's settles the split; a member follows the newer term, or at
equal terms the lower key. -/
def Mod.heartbeatIn (m : Mod) (i term : Nat) (key : Nat × Nat) (path : Nat) : Mod :=
  if !m.base.bondOn || m.base.depth ≤ i || path = m.base.path then m
  else
    let cur := m.base.term i
    let m := m.hearTerm i term
    if m.base.ksSelf i then
      let m : Mod := { m with base := m.base.raise { group := 12, bit := 3, sev := 1, detail := i + 1 } }
      if newer 16 term cur || (term == cur && keyLess key m.base.ownKey) then m.follow i term key path else m
    else if term = cur then
      let e := m.elect i
      let same := m.base.keystone i == some path || m.base.electing i || (m.base.keystone i).isNone
      if same || keyLess key (e.prio, e.serial) then m.follow i term key path else m
    else if newer 16 term cur then m.follow i term key path
    else m

/-- Does a module's wish to enter M2 meet the conditions of R284, by what this keystone holds and what the members last answered? -/
def Mod.maySleep (m : Mod) (path : Nat) : Bool :=
  !(List.range 4).any (fun i => m.base.keystone i == some path) &&
  !m.waitedFor.contains path && m.bnd.members.all (fun x => x.path == path || (match x.busy with
    | some ps => !ps.contains path
    | none => false))

/-- A HEARTBEAT_ACK arrives (R281, R282, R284, R292). -/
def Mod.ackIn (m : Mod) (i : Nat) (a : HbAck) : Mod :=
  match m.base.memberIndex a.path with
  | none => m
  | some idx =>
    if !m.base.ksSelf i || !m.base.inBond i a.path then m
    else
      let old := m.base.memberState a.path
      let x := (m.bnd.members.find? (fun y => y.level == i && y.path == a.path)).getD { level := i, path := a.path }
      let kept := x.kept ++ a.kept
      let x := { x with misses := 0, ports := a.ports, kept := [], busy := a.busy }
      let m : Mod := { m with bnd := { m.bnd with members := m.bnd.members.filter (fun y => !(y.level == i && y.path == a.path)) ++ [x] } }
      let m := if idx / 8 = i then m.record i idx 1 else m
      let m := if old = 3 then
          let m := m.handBack a.path kept
          ((m.known.filter (fun p => m.base.inBond i p && p != a.path)).foldl (fun m p =>
            (ackBodies 3 i a (kept.length / 20 + 1) kept).foldl (fun m body => m.sendKey p body) m) m)
        else m
      let m := m.computeRoutes i
      if a.m2Request && m.maySleep a.path && idx / 8 = i then m.record i idx 2 else m

/-! ### The wake of a sleeping member (R284) -/

/-- A module with frames for a sleeping member asks the keystone, once. -/
def Mod.askWake (m : Mod) : Mod :=
  let sleepers := m.waitedFor.filter (fun p => m.base.memberState p == 2 && !m.bnd.woke.contains p)
  sleepers.foldl (fun m p =>
    match (m.base.memberIndex p).bind (fun idx => m.base.keystone (idx / 8)) with
    | none => m
    | some k =>
      let m : Mod := { m with bnd := { m.bnd with woke := m.bnd.woke ++ [p] } }
      m.toBond { dstPath := k, stype := .msg, data := leBytes 4 5 ++ leBytes 4 p }) m

/-- The keystone's order: the ports that face the sleeper send the wake pattern. -/
def Mod.wakeOrder (m : Mod) (sleeper : Nat) : Mod :=
  (List.range 8).foldl (fun m k => if m.base.partner k == some sleeper then m.wakeSend k else m) m

/-- A WAKE_REQ arrives at the keystone: every neighbour of the sleeper is to send the wake pattern. -/
def Mod.wakeReq (m : Mod) (sleeper : Nat) : Mod :=
  if !m.base.anyKeystone || m.base.memberState sleeper ≠ 2 then m
  else
    let near := ((m.bnd.members.filter (fun x => x.path != sleeper && x.ports.any (fun r => r.partner == sleeper))).map Member.path).eraseDups
    near.foldl (fun m p => m.toBond { dstPath := p, stype := .msg, data := leBytes 4 (5 + 2 ^ 8) ++ leBytes 4 sleeper }) (m.wakeOrder sleeper)

/-! ### The fabric routing table (R287, R288, R293) -/

/-- The bucket of a key. -/
def rtBucket (sel kind rid pasid : Nat) : Nat :=
  (rid ^^^ (pasid % 2 ^ 16) ^^^ (pasid / 2 ^ 16 * 2 ^ 12) ^^^ (sel * 2 ^ 8) ^^^ (kind * 2 ^ 7)) % 2 ^ 14

/-- Does an entry match a key? -/
def Base.rtMatch (b : Base) (e sel kind rid : Nat) (pasid : Option Nat) : Bool :=
  let w := b.rtWord e 0
  bitOf w 31 && w % 2 ^ 16 == rid && bits w ⟨16, 6⟩ == sel && bits w ⟨22, 1⟩ == kind &&
  (!bitOf w 23 || pasid == some (b.rtWord e 1 % 2 ^ 20))

/-- The lookup of R287: the bucket of the frame's PASID first, where it carries one, then that of PASID 0. -/
def Base.rtLookup (b : Base) (sel kind rid : Nat) (pasid : Option Nat) : Option Nat :=
  let ways := fun (p : Nat) => (List.range 4).map (fun w => 4 * rtBucket sel kind rid p + w)
  let es := (match pasid with
    | some p => ways p
    | none => []) ++ ways 0
  es.find? (fun e => b.rtMatch e sel kind rid pasid)

/-- A miss is counted, logged and raised (R288). -/
def Base.rtMiss (b : Base) (sel kind rid : Nat) : Base :=
  let b := (b.bump (Reg.BND_CNT 11)).raise { group := 12, bit := 4, detail := rid % 2 ^ 16 + 2 ^ 16 * (sel % 64) + 2 ^ 22 * kind }
  let a := Reg.BND_RT_MISS
  if b.isSet a F.BND_RT_MISS_valid then b.wr a F.BND_RT_MISS_more 1
  else b.setWord a (BitVec.ofNat 32 (rid % 2 ^ 16 + 2 ^ 16 * (sel % 64) + 2 ^ 22 * (kind % 2) + 2 ^ 31))

/-- The writer whose staging copy a write goes to: the keystone agent is one writer whatever port it comes in on. -/
def rtWriter (who : Who) : Who :=
  match who with
  | .keystone _ _ => .keystone 0 0
  | w => w

/-- The bits that word w of an entry holds. -/
def rtMask (w : Nat) : Nat :=
  match w with
  | 0 => 0x80FFFFFF
  | 1 => 0xFFFFF
  | 2 => 0x7FFFF
  | 3 => 0xFFFF
  | 4 | 5 => 0xFFFFFFFF
  | _ => 0

/-- The staging copy of a writer for an entry; a write to another entry has emptied it (R293). -/
def Mod.rtStageOf (m : Mod) (who : Who) (e : Nat) : RtStage :=
  match m.bnd.rtStage.find? (fun s => s.who == rtWriter who) with
  | some s => if s.entry = e then s else { who := rtWriter who, entry := e }
  | none => { who := rtWriter who, entry := e }

/-- A write to register 1-7 of an entry is staged (R293). -/
def Mod.rtWrite (m : Mod) (who : Who) (e w v : Nat) : Mod :=
  let s := m.rtStageOf who e
  let s := { s with words := s.words.filter (fun x => x.1 != w) ++ [(w, BitVec.ofNat 32 (v &&& rtMask w))] }
  { m with bnd := { m.bnd with rtStage := m.bnd.rtStage.filter (fun x => x.who != rtWriter who) ++ [s] } }

/-- A write to register 0 puts it and the staged words of the entry into the table as one piece (R293). -/
def Mod.rtCommit (m : Mod) (who : Who) (e v : Nat) : Mod :=
  let s := m.rtStageOf who e
  let b := s.words.foldl (fun b x => b.setWord (rtOff e x.1) x.2) m.base
  { m with base := b.setWord (rtOff e 0) (BitVec.ofNat 32 (v &&& rtMask 0)),
           bnd := { m.bnd with rtStage := m.bnd.rtStage.filter (fun x => x.who != rtWriter who) } }

/-! ### Lending (R285) -/

/-- A lend request of this module is answered. -/
def Mod.lendDone (m : Mod) (refused : Bool) : Mod :=
  let b := m.base.wr Reg.BND_LEND_CTL F.BND_LEND_CTL_done 1
  let b := if refused then (b.wr Reg.BND_LEND_CTL F.BND_LEND_CTL_refused 1).raise { group := 12, bit := 8 } else b
  { m with base := b, bnd := { m.bnd with asks := [] } }

/-- The keystone answers a request (message code 8 kind 1, log entry 10). -/
def Mod.lendAnswer (m : Mod) (r : LendReq) (refused : Bool) : Mod :=
  m.toBond { dstPath := r.borrowerPath, stype := .msg, data := leBytes 4 (8 + 2 ^ 8) ++ leBytes 4 (b2n refused) }

/-- A write of BND_LEND_CTL (R285): go sends the request while none runs; another op, or plain mode, is refused. -/
def Mod.lendGo (m : Mod) (v : Nat) : Mod :=
  let a := Reg.BND_LEND_CTL
  let keep := (m.base.word a).toNat
  let w := v % 2 ^ 28 + 2 ^ 29 * bits keep ⟨29, 1⟩ + 2 ^ 30 * (if bitOf v 30 then 0 else bits keep ⟨30, 1⟩)
  let m : Mod := { m with base := m.base.setWord a (BitVec.ofNat 32 w) }
  let op := bits v F.BND_LEND_CTL_op
  if !bitOf v 28 || !bitOf keep 29 then m
  else if (op ≠ 1 && op ≠ 2) || !m.base.isSet Reg.BND_CFG F.BND_CFG_fabric || !m.base.bondOn then m.lendDone true
  else
    let r : LendReq := { unlend := op == 2, ownerPath := bits v F.BND_LEND_CTL_owner_path, slot := bits v F.BND_LEND_CTL_slot,
                         borrowerPath := m.base.path, partition := bits v F.BND_LEND_CTL_partition, dev := bits v F.BND_LEND_CTL_dev }
    (({ m with base := m.base.wr a F.BND_LEND_CTL_done 0, bnd := { m.bnd with asks := [r] } } : Mod)).askKeystone r

/-- The entries that lends have placed at a module. -/
def Bond.entriesAt (x : Bond) (path : Nat) : List Nat :=
  x.lends.flatMap (fun l => (if l.req.ownerPath == path then l.ownerEntries else []) ++
    (if l.req.borrowerPath == path then l.borrowerEntries else []))

/-- A free way of a key's bucket at a module, among the entries that `used` does not name (R287). -/
def Mod.freeWay (m : Mod) (path : Nat) (used : List Nat) (sel kind rid : Nat) : Option Nat :=
  ((List.range 4).map (fun w => 4 * rtBucket sel kind rid 0 + w)).find? (fun e =>
    !used.contains e && !(path == m.base.path && bitOf (m.base.rtWord e 0) 31))

/-- A value of another module that the keystone has and the spec gives no message for is a free value (log entry 4). -/
def Mod.farValue (m : Mod) (here : Option Nat) (mine : Bool) : Nat × Mod :=
  match here, mine with
  | some v, true => (v, m)
  | _, _ =>
    let (n, b) := m.base.fresh
    ((Config.freeWord n).toNat, { m with base := b })

/-- Why the keystone refuses a lend (R285): the slot is lent already, or the virtual port is in use. -/
def Mod.lendRefused (m : Mod) (r : LendReq) : Bool :=
  let v := 32 * r.partition + r.dev
  let ownerHere := r.ownerPath == m.base.path
  let borrowerHere := r.borrowerPath == m.base.path
  r.dev == 0 ||
  m.bnd.lends.any (fun l => (l.req.ownerPath == r.ownerPath && l.req.slot == r.slot) ||
    (l.req.borrowerPath == r.borrowerPath && l.req.partition == r.partition && l.req.dev == r.dev)) ||
  (ownerHere && (match m.base.slotPort r.slot with
    | some p => m.base.isSet (Reg.BND_PORT_LEND p) F.BND_PORT_LEND_valid
    | none => true)) ||
  (borrowerHere && (m.base.isSet (Reg.BND_LEND v) F.BND_LEND_valid ||
    (List.range 64).any (fun p => m.base.portRole p == 2 && m.base.portPart p == r.partition &&
      m.base.rd (Reg.PRT_CFG p) F.PRT_CFG_dev == r.dev)))

/-- A lend is carried out (R285, R286): requests and completions of both directions get an entry each; the bus that stands at the
owner for the borrower's requesters is the lowest of 0x80-0xFF not in use (log entry 17). -/
def Mod.doLend (m : Mod) (r : LendReq) : Mod :=
  let ownerHere := r.ownerPath == m.base.path
  let borrowerHere := r.borrowerPath == m.base.path
  let (port, m) := m.farValue (m.base.slotPort r.slot) ownerHere
  let (up, m) := m.farValue (m.base.upstreamPort r.partition) borrowerHere
  let (host, m) := m.farValue none false
  let (shelf, m) := m.farValue none false
  let port := port % 64
  let up := up % 64
  let host := host % 2 ^ 16
  let shelf := shelf % 2 ^ 16
  let at_ := 2 ^ 8 * (0x40 + r.slot)
  match ((List.range 128).map (fun n => 0x80 + n)).find? (fun n => !m.bnd.lends.any (fun l => l.bus == n)) with
  | none => m.lendAnswer r true
  | some bus =>
    let far := 2 ^ 8 * bus
    let uo := m.bnd.entriesAt r.ownerPath
    let ub := m.bnd.entriesAt r.borrowerPath
    match m.freeWay r.ownerPath uo port 0 at_, m.freeWay r.borrowerPath ub up 0 host with
    | some o1, some b1 =>
      let same := if r.ownerPath == r.borrowerPath then [o1, b1] else []
      match m.freeWay r.ownerPath (o1 :: same ++ uo) port 1 far, m.freeWay r.borrowerPath (b1 :: same ++ ub) up 1 shelf with
      | some o2, some b2 =>
        let l : Lend := { req := r, bus := bus, port := port, up := up, host := host, shelf := shelf,
                          ownerEntries := [o1, o2], borrowerEntries := [b1, b2] }
        let m : Mod := { m with bnd := { m.bnd with lends := m.bnd.lends ++ [l] } }
        (m.writeLend l).lendAnswer r false
      | _, _ => m.lendAnswer r true
    | _, _ => m.lendAnswer r true

/-- An unlend begins (R285): the borrower's presence falls and its entries go; the owner's follow 1 ms later. -/
def Mod.startUnlend (m : Mod) (r : LendReq) : Mod :=
  match m.bnd.lends.find? (fun l => l.req.ownerPath == r.ownerPath && l.req.slot == r.slot && l.req.borrowerPath == r.borrowerPath &&
      l.req.partition == r.partition && l.req.dev == r.dev) with
  | none => m.lendAnswer r true
  | some l =>
    let m := m.writeAt r.borrowerPath (Reg.BND_LEND (32 * r.partition + r.dev)) 0
    let m := l.borrowerEntries.foldl (fun m e => m.writeAt r.borrowerPath (rtOff e 0) 0) m
    { m with base := m.base.arm .unlendSettle ms,
             bnd := { m.bnd with lends := m.bnd.lends.map (fun x => if x == l then { x with ending := true } else x) } }

/-- A LEND_REQ at the keystone (R285); one that comes while an unlend settles waits. -/
def Mod.lendIn (m : Mod) (r : LendReq) : Mod :=
  if !m.base.anyKeystone then m
  else if m.base.armed .unlendSettle then { m with bnd := { m.bnd with lendWait := m.bnd.lendWait ++ [r] } }
  else if r.unlend then m.startUnlend r
  else if m.lendRefused r then m.lendAnswer r true
  else m.doLend r

/-- 1 ms after the borrower's entries went, the owner's go (R285), and what waited is begun. -/
def Mod.unlendEnd (m : Mod) : Mod :=
  let m := m.bnd.lends.foldl (fun m l =>
    if !l.ending then m
    else
      let m := m.writeAt l.req.ownerPath (Reg.BND_PORT_LEND l.port) 0
      (l.ownerEntries.foldl (fun m e => m.writeAt l.req.ownerPath (rtOff e 0) 0) m).lendAnswer l.req false) m
  let rest := m.bnd.lendWait
  let m : Mod := { m with bnd := { m.bnd with lends := m.bnd.lends.filter (fun l => !l.ending), lendWait := [] } }
  rest.foldl Mod.lendIn m

/-- The borrower's record is written (R285): the virtual port shows presence, or its loss. -/
def Mod.lendWrite (m : Mod) (v w : Nat) : Mod :=
  let a := Reg.BND_LEND v
  let was := m.base.isSet a F.BND_LEND_valid
  let on := bitOf w 24
  let pg := if on then bits (m.base.word a).toNat ⟨25, 1⟩ else 0
  let b := m.base.setWord a (BitVec.ofNat 32 (w % 2 ^ 25 + 2 ^ 25 * pg))
  { m with base := if was == on then b else b.virtualLink (88 + v) (v / 32) on on false }

/-- The owner's record is written (R285): the borrower is told the port's state when a lend begins. -/
def Mod.portLendWrite (m : Mod) (p w : Nat) : Mod :=
  let a := Reg.BND_PORT_LEND p
  let was := m.base.isSet a F.BND_PORT_LEND_valid
  let m : Mod := { m with base := m.base.setWord a (BitVec.ofNat 32 (w % 2 ^ 21)) }
  if !was && bitOf w 20 then { m with dirty := m.dirty ++ [p] } else m

end Sys2Proof.Machine
end

