-- ==== Sys2Proof/Machine/Bond.lean ====
section
/-! DEFINITION. What arrives across the bond: segments and inbound streams (R270, R274, R275, R278), frames and messages at
their destination (R138-R140, R286, R289, R290), KEY segments (R280, R281), and what the bond logic does at the end of a
command. -/

namespace Sys2Proof.Machine

/-! ### Messages (R289, R290) -/

/-- The virtual port that holds the shelf of an owner's port, by 32 * partition + device (R285). -/
def Base.lentAs (b : Base) (src port : Nat) : Option Nat :=
  (List.range 256).find? (fun v => b.isSet (Reg.BND_LEND v) F.BND_LEND_valid &&
    b.rd (Reg.BND_LEND v) F.BND_LEND_owner_path == src && b.rd (Reg.BND_LEND v) F.BND_LEND_owner_port == port)

/-- ALERT: the borrower raises an advisory event naming partition, device and level; the source is that of the partition's
upstream port, cause 4 (log entry 17). -/
def Mod.alertIn (m : Mod) (src port : Nat) (level : Bool) : Mod :=
  match m.base.lentAs src port with
  | none => m
  | some v =>
    let up := (m.base.upstreamPort (v / 32)).getD 0
    { m with base := m.base.raise { group := 8 + up / 32, bit := up % 32, cause := 4, scope := .part (v / 32),
                                    detail := b2n level + 2 * (v % 32) + 2 ^ 6 * (v / 32) } }

/-- RESET_REQ: the owner acts as R216 states, for the borrower of the port. -/
def Mod.resetReqIn (m : Mod) (src port : Nat) (set : Bool) : Mod :=
  let a := Reg.BND_PORT_LEND port
  if m.base.isSet a F.BND_PORT_LEND_valid && m.base.rd a F.BND_PORT_LEND_borrower_path == src then m.busReset port set else m

/-- LINK_STATE: the borrower updates the virtual link state of R214. -/
def Mod.linkStateIn (m : Mod) (src port : Nat) (present contained failed : Bool) : Mod :=
  match m.base.lentAs src port with
  | none => m
  | some v => { m with base := m.base.virtualLink (88 + v) (v / 32) present (present && !contained && !failed) false }

/-- POWER_GOOD: the borrower records it in BND_LEND.pg. -/
def Mod.powerGoodIn (m : Mod) (src port : Nat) (pg : Bool) : Mod :=
  match m.base.lentAs src port with
  | none => m
  | some v => { m with base := m.base.flag (Reg.BND_LEND v) F.BND_LEND_pg pg }

/-- ERR_REPORT: the origin logs a failed posted request, counts it and raises an advisory event (R290, R304). -/
def Mod.errIn (m : Mod) (src cause origin : Nat) (hdr : List Nat) : Mod :=
  let b := (m.base.bump (Reg.BND_CNT 14)).raise { group := 12, bit := 5, detail := src + 2 ^ 12 * (cause % 16) + 2 ^ 16 * (origin % 128) }
  let a := Reg.BND_FAR_INFO
  if b.isSet a F.BND_FAR_INFO_valid then { m with base := b.wr a F.BND_FAR_INFO_more 1 }
  else
    let b := b.setWord a (BitVec.ofNat 32 (src % 4096 + 2 ^ 12 * (cause % 16) + 2 ^ 16 * (origin % 128) + 2 ^ 31))
    { m with base := (List.range 4).foldl (fun b i => b.setWord (Reg.BND_FAR_LOG i) (BitVec.ofNat 32 (hdr.getD i 0))) b }

/-- The module that an entry or an orphan's bytes came from asks for them again (R85, R87, R292; log entry 12). -/
def Mod.againIn (m : Mod) (src i : Nat) : Mod :=
  match m.prk.entry i, m.prk.guests.find? (fun g => g.owner == src && g.idx == i && g.sent) with
  | some e, g => if e.remoteTo == some src then m.copyAgain i else (g.map (fun g => m.sendOrphan src g false)).getD m
  | none, g => (g.map (fun g => m.sendOrphan src g false)).getD m

/-- PARK: what another module's park engines say (R98, R292; outcomes of remote entries, R32). A free ends a guest copy, or an entry that
this module holds for the other. -/
def Mod.parkIn (m : Mod) (src : Nat) (x : ParkMsg) : Mod :=
  match x with
  | .refuse i =>
    match m.prk.entry i with
    | some e => if e.remoteTo.isSome then m.finishIdx i 0x27 else m.peerNo i
    | none => m
  | .free i => (m.guestFree src i).remoteFree src i
  | .evict i => m.peerLost i
  | .outcome i status bytes detail => m.remoteOutcome i status bytes detail
  | .again i => m.againIn src i
  | .handBack i raw => m.backArrive src i raw
  | .handBackDone => m.backDone src

/-- A message of R289 in its bytes (log entry 10): code and argument in the first word. -/
def Mod.messageIn (m : Mod) (src : Nat) (d : List Byte) : Mod :=
  let code := fieldAt d 0 1
  let arg := fieldAt d 1 3
  let w := fun (i : Nat) => fieldAt d (4 * i) 4
  match code with
  | 1 => m.alertIn src arg (bitOf (w 1) 0)
  | 2 => m.resetReqIn src arg (bitOf (w 1) 0)
  | 3 => m.linkStateIn src arg (bitOf (w 1) 0) (bitOf (w 1) 1) (bitOf (w 1) 2)
  | 4 => m.powerGoodIn src arg (bitOf (w 1) 0)
  | 5 => if arg = 0 then m.wakeReq (w 1) else m.wakeOrder (w 1)
  | 6 => m.errIn src (w 1) arg ((List.range 4).map (fun i => beAt d (8 + 4 * i) 4))
  | 7 =>
    match arg with
    | 1 => m.parkIn src (.refuse (w 1))
    | 2 => m.parkIn src (.free (w 1))
    | 3 => m.parkIn src (.evict (w 1))
    | 4 => m.parkIn src (.outcome (w 1) (w 2) (w 3) (w 4))
    | 5 => m.parkIn src .handBackDone
    | 6 => m.parkIn src (.again (w 1))
    | _ => m
  | 8 =>
    if arg = 0 then
      m.lendIn { unlend := bitOf (w 1) 0, ownerPath := w 2, slot := w 3, borrowerPath := w 4, partition := w 5, dev := w 6 }
    else m.lendDone (bitOf (w 1) 0)
  | _ => m

/-! ### Accesses from another member (R138-R140, R150, R290) -/

/-- A request that fails here returns to its requester (R290): UR for a non-posted one, else an ERR_REPORT with its cause. -/
def Mod.farFail (m : Mod) (src origin cause : Nat) (t : Tlp) : Mod :=
  if tlpVc t = 1 then
    m.toBond (backMsg src origin 72 false { kind := .cpl, route := .id t.rid, rid := t.rid, tag := t.tag, len := t.len, status := 1 })
  else
    m.toBond { dstPath := src, stype := .msg,
               data := leBytes 4 (6 + 2 ^ 8 * origin) ++ leBytes 4 cause ++ (tlpWire { t with data := [] }).take 16 }

/-- The check of Camtex ingress guard 32 + k (R138-R140): a flit marked as the keystone agent's claims identity 0x3E, which
stands only for a recorded keystone's path. What comes from another member shows slice 0 (DESIGN CHOICE, log entry 40). -/
def Mod.farGuard (m : Mod) (k : Nat) (s : Segment) (space sel : Nat) (t : Tlp) : Mod × Bool :=
  let x : Access := { space := space, sel := sel, addr := t.addr, len := max 1 (tlpSpan t),
                      rd := t.kind == TlpKind.memRead || t.kind == TlpKind.atomic,
                      wr := t.kind == TlpKind.memWrite || t.kind == TlpKind.atomic,
                      secure := s.world, pasid := t.pasid, ident := if s.ks then 0x3E else 0x3D, badKs := s.ks && !m.base.ksPath s.srcPath }
  let (b, d) := m.base.guard (32 + k) x
  ({ m with base := b }, d.isNone)

/-- The answer to a read of a Mortar target goes back in the response stream (R271). -/
def Mod.mortarAnswer (m : Mod) (s : Segment) (t : Tlp) (data : List Byte) (ep : Bool) : Mod :=
  m.toBond (backMsg s.srcPath s.origin 72 false
    { kind := .cpl, route := .id t.rid, rid := t.rid, tag := t.tag, ep := ep, len := t.len, data := data.take t.len })

/-- An access to a Mortar target arrives (R139, R141, R282): a keystone agent's access of the control window is handed to the register block,
whose rules it meets as any other (R16); park DRAM and management memory are read and written; a read is answered in the response
stream. -/
def Mod.mortarIn (m : Mod) (k : Nat) (s : Segment) (t : Tlp) : Mod :=
  let ctl := decide (ctlAddr 0 ≤ t.addr) && decide (t.addr - ctlAddr 0 < 0x8000000)
  if ctl && s.ks && t.kind != TlpKind.atomic then { m with regAsk := m.regAsk ++ [(k, s, t)] }
  else match m.farGuard k s 0 0 t with
  | (m, false) => m.farFail s.srcPath s.origin 1 t
  | (m, true) =>
    let mg := decide (mgmtAddr 0 ≤ t.addr)
    if t.kind == TlpKind.memWrite then
      if ctl then m
      else if mg then { m with dram := { m.dram with mgmt := memPutList m.dram.mgmt (t.addr - mgmtAddr 0) t.data } }
      else m.performStore t.addr t.data (t.ep || s.poison)
    else if t.kind == TlpKind.memRead then
      if ctl then
        m.mortarAnswer s t (List.replicate t.len 0#8) false
      else if mg then m.mortarAnswer s t (memGetList m.dram.mgmt (t.addr - mgmtAddr 0) t.len) false
      else
        let (m, d, ep) := m.performLoad t.addr t.len
        m.mortarAnswer s t d ep
    else m.farFail s.srcPath s.origin 1 t

/-- The frame that segments have brought, a frame of the receiving Camtex port (R255, R256, R271): its record is that port's (R62). -/
def Mod.farFrame (m : Mod) (k : Nat) (s : Segment) (bytes : Nat) (t : Tlp) : Frame :=
  let a := (m.base.camPort k).getD 0
  { src := a, srcXp := m.base.xpOf a, dstXp := m.base.xpOf a, dstSub := a, vc := s.vc % 3, bytes := max 1 bytes, tlp := t, tc := s.tc,
    meter := m.base.camMeter a s.vc, cam := true, poison := s.poison || t.ep, far := some (s.srcPath, s.origin) }

/-- A completion of a hod's read that another member has answered (R109, R290), by the requester ID and the tag that the hod's request took. -/
def Mod.hodAnswer (m : Mod) (f : Frame) (gone : Bool) : Mod :=
  let t := f.tlp
  match m.tags.find? (fun u => u.tag == t.tag && m.base.ownId u.port == t.rid && (match u.owner with
    | some (.hod _ _) => true
    | _ => false)) with
  | some u => m.ownCompletion u.port f gone
  | none =>
    match (List.range 64).find? (fun p => m.base.portRole p == 1 && m.base.ownId p == t.rid) with
    | some p => m.ownCompletion p f gone
    | none => m.takeIn f

/-- A rebuilt frame for a port enters the cell buffer as a frame of the receiving Camtex port (R271); its guard checks a request
(R138, R142). A completion for the control endpoint itself ends the read that it answers. -/
def Mod.portIn (m : Mod) (k : Nat) (s : Segment) (bytes : Nat) (t : Tlp) : Mod :=
  let p := s.dstPort
  let role := m.base.portRole p
  let f := m.farFrame k s bytes t
  let mem := t.kind == TlpKind.memRead || t.kind == TlpKind.memWrite || t.kind == TlpKind.atomic
  if role ≠ 1 && role ≠ 2 then
    (if t.kind == TlpKind.cpl then m.takeIn f else (m.takeIn f).farFail s.srcPath s.origin 3 t)
  else if role = 1 && t.kind == TlpKind.cpl && t.rid == m.base.ownId p then m.ownCompletion p f false
  else
    let (m, ok) := if mem then
        (if role = 1 then m.farGuard k s 1 (m.base.portPart p) t else m.farGuard k s 2 p t)
      else (m, true)
    if !ok then (m.takeIn f).farFail s.srcPath s.origin 1 t
    else
      let m := if role = 2 then m.portFrame p else m
      m.admitIngress { f with dstXp := m.base.tileOf p, dstSub := p, vc := tlpVc t }

/-- A whole frame or message has been rebuilt (R271): it goes to what it is for. What the bond logic itself takes is tapped as any frame of its
port (R57). -/
def Mod.deliver (m : Mod) (k : Nat) (s : Segment) (data : List Byte) : Mod :=
  let other : Tlp := { kind := if s.cls == .response then .cpl else if s.vc = 1 then .memRead else .memWrite }
  let took := fun (t : Tlp) => m.takeIn (m.farFrame k s data.length t)
  if s.stype == .msg then (took other).messageIn s.srcPath data
  else if s.dstPort ≠ 63 then
    match tlpOf data with
    | none => took other
    | some t => m.portIn k s data.length t
  else
    let i := fieldAt data 4 4
    let body := data.drop 12
    let kind := fieldAt data 0 4
    let m := if kind = 0 || kind = 8 then m else took other
    match kind with
    | 0 | 8 =>
      match tlpOf (data.drop 4) with
      | none => m
      | some t => if t.kind == .cpl then m.hodAnswer (m.farFrame k s data.length t) (kind == 8)
                  else (m.takeIn (m.farFrame k s data.length t)).mortarIn k s t
    | 1 => m.guestArrive s.srcPath i (data.drop 8)
    | 2 => m.guestData s.srcPath i (fieldAt data 8 4) s.world body
    | 3 => m.remoteArrive s.srcPath i (data.drop 8) false
    | 4 => m.remoteStore s.srcPath i (fieldAt data 8 4) body
    | 5 => m.remoteData i (fieldAt data 8 4) body
    | 6 => m.backArrive s.srcPath i (data.drop 8)
    | 7 => m.remoteStore s.srcPath i (fieldAt data 8 4) body
    | _ => m

/-! ### Inbound streams (R274, R275, R278) -/

/-- The inbound stream from a module in a class. -/
def Mod.inStream (m : Mod) (path : Nat) (cls : SegClass) : InStream :=
  (m.bnd.ins.find? (fun x => x.path == path && x.cls == cls)).getD { path := path, cls := cls }
def Mod.setIn (m : Mod) (x : InStream) : Mod :=
  { m with bnd := { m.bnd with ins := m.bnd.ins.filter (fun y => !(y.path == x.path && y.cls == x.cls)) ++ [x] } }

/-- A partly rebuilt frame's cells are given back. -/
def Mod.freePart (m : Mod) (x : InStream) : Mod := x.cells.foldl (fun m c => m.uncharge c.1 c.2 1) m

/-- Segments of a frame whose data is performed only once it is whole, a copy or an entry of a park engine, and that is not:
a CACK does not cover them (R275). -/
def InStream.unperformed (x : InStream) : Nat :=
  match x.first with
  | some s => if s.dstPort == 63 && s.stype == .data && decide (1 ≤ fieldAt s.data 0 4) then x.cells.length else 0
  | none => 0

/-- A CACK goes out for an inbound stream (R275). -/
def Mod.sendCack (m : Mod) (path : Nat) (cls : SegClass) : Mod :=
  let x := m.inStream path cls
  let m := ({ m with base := m.base.disarm (.cackDelay path cls) } : Mod).setIn { x with since := 0 }
  m.sendLoose { cseq := (x.e + 2 ^ 32 - 1 - x.unperformed) % 2 ^ 32, stype := .cack, cls := cls, dstPath := path }

/-- The accounting index that a partly rebuilt frame is charged to: the receiving port, and P or CPL by the link's VC (R256). -/
def Mod.partCharge (m : Mod) (k : Nat) (s : Segment) : Nat × Nat := ((m.base.camPort k).getD 0, if s.vc = 2 then 2 else 0)

/-- An accepted segment joins the frame being rebuilt, and the last one completes it (R271). -/
def Mod.joinFrame (m : Mod) (k : Nat) (x : InStream) (s : Segment) : Mod :=
  let (m, x) := if s.sof then ((m.freePart x).afterRelease, { x with first := some s, data := [], cells := [] }) else (m, x)
  match x.first with
  | none => m.setIn x
  | some f =>
    let data := x.data ++ s.data
    if s.eof then
      let m := m.freePart x
      ((m.setIn { x with first := none, data := [], cells := [] }).deliver k { f with poison := f.poison || s.poison } data).afterRelease
    else
      let c := m.partCharge k s
      (m.charge c.1 c.2 1).setIn { x with first := some { f with poison := f.poison || s.poison }, data := data, cells := x.cells ++ [c] }

/-- A sequenced segment arrives for an inbound stream (R274). -/
def Mod.sequencedIn (m : Mod) (k : Nat) (s : Segment) : Mod :=
  let x := m.inStream s.srcPath s.cls
  let ahead := (s.cseq + 2 ^ 32 - x.e) % 2 ^ 32
  let behind := (x.e + 2 ^ 32 - s.cseq) % 2 ^ 32
  if !x.synced then { m with base := m.base.bump (Reg.BND_CNT 5) }
  else if ahead = 0 then
    let m := { m with base := m.base.bump (Reg.BND_CNT 2) }
    let m := m.joinFrame k { x with e := (x.e + 1) % 2 ^ 32, since := x.since + 1 } s
    if 64 ≤ (m.inStream s.srcPath s.cls).since then m.sendCack s.srcPath s.cls
    else { m with base := m.base.armIfIdle (.cackDelay s.srcPath s.cls) us }
  else if behind ≤ 65536 then
    ({ m with base := m.base.bump (Reg.BND_CNT 3) } : Mod).sendCack s.srcPath s.cls
  else if ahead < 2 ^ 31 then { m with base := m.base.bump (Reg.BND_CNT 4) }
  else { m with base := (m.base.bump (Reg.BND_CNT 5)).raise { group := 12, bit := 6, detail := s.srcPath } }

/-- A SYNC arrives (R278): e is set, a partial frame is discarded, and the CACK names cseq - 1. -/
def Mod.syncIn (m : Mod) (s : Segment) : Mod :=
  let m := (m.freePart (m.inStream s.srcPath s.cls)).afterRelease
  (m.setIn { path := s.srcPath, cls := s.cls, synced := true, e := s.cseq }).sendCack s.srcPath s.cls

/-- 1 µs after an acceptance that no CACK covers (R275). -/
def Mod.cackDelayEnd (m : Mod) (path : Nat) (cls : SegClass) : Mod := m.sendCack path cls

/-! ### KEY segments -/

/-- A KEY body is read (log entry 10): CANDIDATE, HEARTBEAT, HEARTBEAT_ACK, or one that the keystone passes on to holders of
orphans (R292). -/
def Mod.keyIn (m : Mod) (d : List Byte) : Mod :=
  let w0 := fieldAt d 0 4
  let i := bits w0 ⟨8, 2⟩
  if w0 % 256 < 2 then
    let key := (fieldAt d 4 4, fieldAt d 8 8)
    let path := fieldAt d 16 4
    if w0 % 256 = 0 then m.candidateIn i (w0 / 2 ^ 16) key path else m.heartbeatIn i (w0 / 2 ^ 16) key path
  else
    let path := fieldAt d 4 4
    let n := min 8 (fieldAt d 8 4)
    let kept := (List.range (min 20 (fieldAt d 12 4))).map (fun j => fieldAt d (32 + 8 * j) 8)
    let ports := (List.range n).map (fun j => (⟨bitOf (fieldAt d (16 + 2 * j) 2) 0, fieldAt d (16 + 2 * j) 2 / 2⟩ : PortReport))
    let n := fieldAt d 192 2
    let busy := if n ≤ 22 then some ((List.range n).map (fun j => fieldAt d (194 + 2 * j) 2)) else none
    if bitOf w0 10 then
      let x := (m.bnd.members.find? (fun y => y.level == i && y.path == path)).getD { level := i, path := path }
      { m with bnd := { m.bnd with members := m.bnd.members.filter (fun y => !(y.level == i && y.path == path)) ++
          [{ x with kept := x.kept ++ kept }] } }
    else if w0 % 256 = 2 then m.ackIn i { path := path, ports := ports, m2Request := bitOf w0 11, kept := kept, busy := busy }
    else
      let before := ((m.bnd.members.find? (fun y => y.level == i && y.path == path)).map Member.kept).getD []
      let m := if m.base.ksSelf i then m else { m with bnd := { m.bnd with members := m.bnd.members.filter (fun y => !(y.level == i && y.path == path)) } }
      m.handBack path (before ++ kept)

/-! ### Segments (R270) -/

/-- A segment in transit: dropped at its last hop, else sent on (R270). -/
def Mod.transit (m : Mod) (k : Nat) (s : Segment) : Mod :=
  if s.hops = 0 then
    { m with base := (m.base.bump (Reg.BND_CNT 7)).raise { group := 12, bit := 7, detail := s.dstPath } }
  else
    let m := { m with base := m.base.bump (Reg.BND_CNT 6) }
    m.transitOn ((m.base.camPort k).getD 0) { s with hops := s.hops - 1 }

/-- The one-cell frame of a segment that ends here (R255). -/
def Mod.flitIn1 (m : Mod) (k : Nat) (s : Segment) : Mod := m.takeIn { m.farFrame k s 256 { kind := .memWrite } with transit := some s }

/-- A segment arrives on Camtex port k (R270, R274): routed on, or taken by its type; a reserved type is discarded (R271). -/
def Mod.segmentIn (m : Mod) (k : Nat) (s : Segment) : Mod :=
  if !m.base.isSet Reg.BND_CFG F.BND_CFG_enable then m.flitIn1 k s
  else if s.dstPath ≠ m.base.path then m.transit k s
  else
    match s.stype with
    | .data | .msg => m.sequencedIn k s
    | .cack => (m.flitIn1 k s).cackIn s.srcPath s.cls s.cseq
    | .sync => (m.flitIn1 k s).syncIn s
    | .key => (m.flitIn1 k s).keyIn s.data
    | .other => m.flitIn1 k s

/-- The SYNC and CACK rows: a segment of that type, whatever type it is given with. -/
def Mod.syncRow (m : Mod) (k : Nat) (s : Segment) : Mod := m.segmentIn k { s with stype := .sync }
def Mod.cackRow (m : Mod) (k : Nat) (s : Segment) : Mod := m.segmentIn k { s with stype := .cack }

/-- resend_us has passed without a freeing CACK (R276). -/
def Mod.resendEnd (m : Mod) (path : Nat) (cls : SegClass) : Mod :=
  match m.bnd.out path cls with
  | none => m
  | some o => if o.held.isEmpty then m else m.repin o

/-- The oldest held segment has been held for 1 ms since its first send (R277). -/
def Mod.streamEnd (m : Mod) (path : Nat) (cls : SegClass) : Mod :=
  match m.bnd.out path cls with
  | none => m
  | some o => if o.held.isEmpty then m else m.failStream o

/-- A stream's state is copied into BND_STREAM_DATA (R272). -/
def Mod.streamPeek (m : Mod) (v : Nat) : Mod :=
  let b := m.base.setWord Reg.BND_STREAM_IDX (BitVec.ofNat 32 (v % 2 ^ 14))
  if !bitOf v 31 then { m with base := b }
  else
    let path := v % 4096
    let cls := if bitOf v 12 then SegClass.response else SegClass.request
    let w := if bitOf v 13 then
        let x := m.inStream path cls
        x.e + 2 ^ 52 * (if x.synced then 2 else 0)
      else
        match m.bnd.out path cls with
        | none => 0
        | some o => o.next + 2 ^ 32 * o.held.length + 2 ^ 49 * o.port.getD 0 + 2 ^ 52 * o.state
    { m with base := b.setWord64 Reg.BND_STREAM_DATA (w + 2 ^ 63) }

/-! ### The end of a command -/

/-- What engines and the bond logic handed over: to this module itself, or into the core for its stream. -/
def Mod.bondOne (m : Mod) (x : BondMsg) : Mod :=
  if !m.base.bondOn then
    let m := m.freeMsg x
    match x.copy with
    | some i => m.peerNo i
    | none => m
  else if x.dstPath = m.base.path then (if x.stype == .msg then m.messageIn m.base.path x.data else m)
  else m.bondEnter x
def Mod.bondFlush : Nat → Mod → Mod
  | 0, m => m
  | n + 1, m =>
    if m.bondOut.isEmpty then m
    else Mod.bondFlush n (m.bondOut.foldl Mod.bondOne { m with bondOut := [] })

/-- The bond logic settles: streams follow the routes, what waited for one is tried again, and frames go out as far as they can. -/
def Mod.bondSettle (m : Mod) : Mod :=
  if !m.base.bondOn then (Mod.bondFlush 2 m)
  else
    let m := m.camFlushAll.repinLost
    let m := m.reachNew m.known
    let m := Mod.bondFlush 8 { m with bondOut := m.bnd.wait ++ m.bondOut, bnd := { m.bnd with wait := [] } }
    let m := Mod.bondFlush 4 m.drainQueues.askWake
    { m with base := m.base.wr Reg.BND_HOLD F.BND_HOLD_used m.holdUsed }

end Sys2Proof.Machine
end

