-- ==== Sys2Proof/Machine/Flit.lean ====
section
/-! DEFINITION. Flits of a Camtex link (R251-R261): their bytes, sending, receiving, acknowledgement, credit and replay. -/

namespace Sys2Proof.Machine

/-- The 272 B of a flit (R251, R252). -/
def flitBytes (seq ack kind cvc : Nat) (s : Segment) (reqCl rspCl : Nat) (payload : List Byte) : List Byte :=
  let body :=
    leBytes 4 (seq % 4096 + 2 ^ 12 * (ack % 4096) + 2 ^ 24 * kind + 2 ^ 26 * cvc + 2 ^ 28 * (s.tc % 8) + 2 ^ 31 * b2n s.world) ++
    leBytes 4 (reqCl % 4096 + 2 ^ 12 * (rspCl % 4096) + 2 ^ 24 * b2n s.ks + 2 ^ 25 * b2n s.poison) ++
    leBytes 4 (s.dstPath % 4096 + 2 ^ 12 * (s.srcPath % 4096)) ++ payload
  body ++ leBytes 4 (crc32 body)

/-- The credit limits that the port gives its partner (R257): flits accepted plus credits outstanding. -/
def Mod.limits (m : Mod) (k : Nat) : Nat × Nat :=
  let c := m.cam k
  let p := (m.base.camPort k).getD 64
  ((c.accReq + (m.sw.credit p 0).hdrOut) % 4096, (c.accRsp + (m.sw.credit p 2).hdrOut) % 4096)

/-- FAB_CREDIT and FAB_RX.expiries follow what the port holds. -/
def Mod.showCredit (m : Mod) (k : Nat) : Mod :=
  let c := m.cam k
  let b := m.base.setWord (Reg.FAB_CREDIT k)
    (BitVec.ofNat 32 ((c.clReq + 4096 - c.ccReq) % 4096 + 2 ^ 12 * ((c.clRsp + 4096 - c.ccRsp) % 4096)))
  { m with base := b.wr (Reg.FAB_RX k) F.FAB_RX_expiries c.expiries }

/-- A flit leaves on the link, with the newest ack and limits (R254), as 34 blocks of the port's stream (R253). -/
def Mod.emitFlit (m : Mod) (k seq kind cvc : Nat) (s : Segment) (payload : List Byte) : Mod :=
  let (rq, rs) := m.limits k
  let ack := m.base.rd (Reg.FAB_RX k) F.FAB_RX_last_rx
  let bytes := flitBytes seq ack kind cvc s rq rs payload
  ({ m with base := m.base.emit (.flit k bytes) } : Mod).streamBlocks k false ((List.range 34).map (fun j => fieldAt bytes (8 * j) 8))

/-- The core VC code of a segment's flit, and whether it travels on the response VC (R251, R271). -/
def segResp (s : Segment) : Bool := s.vc == 2

/-- May a new flit of a VC be sent: its credit lies in 1 to 2,047 (R257), and the window allows it (R258)? -/
def CamPort.mayNew (c : CamPort) (resp : Bool) (next window : Nat) : Bool :=
  let d := if resp then (c.clRsp + 4096 - c.ccRsp) % 4096 else (c.clReq + 4096 - c.ccReq) % 4096
  let w := match c.held.head? with
    | some h => (next + 4096 - h.seq) % 4096
    | none => 0
  decide (1 ≤ d) && decide (d ≤ 2047) && decide (w < min 1536 (max 1 window))

/-- A sequenced segment of this module is sent: its first send starts its hold time (R273, R277), a later one is a resend
(R276). -/
def Mod.segmentSent (m : Mod) (s : Segment) : Mod :=
  if !Sequenced s.stype || s.srcPath ≠ m.base.path then m
  else
    match m.bnd.out s.dstPath s.cls with
    | none => m
    | some o =>
      let first := o.held.any (fun h => h.seg.cseq == s.cseq && h.sentAt.isNone)
      let o := { o with held := o.held.map (fun h =>
        if h.seg.cseq == s.cseq && h.sentAt.isNone then { h with sentAt := some m.base.now } else h) }
      let b := if first then (m.base.bump (Reg.BND_CNT 0)).occ 0x2C0 0 none 1
               else (m.base.bump (Reg.BND_CNT 1)).occ 0x2C1 0 none 1
      (({ m with base := b } : Mod).setOut o).streamTimers o

/-- The next flit of a replay (R260): the first held flit from where the replay stands. -/
def CamPort.replayNext (c : CamPort) : Option (HeldFlit × Option Nat) :=
  match c.replay with
  | none => none
  | some n =>
    match c.held.drop n with
    | [] => none
    | h :: rest => some (h, if rest.isEmpty then none else some (n + 1))

/-- May a segment go out: any but those of a stream of this module's that waits for the answer to its SYNC (R278)? -/
def Mod.mayGo (m : Mod) (s : Segment) : Bool :=
  !Sequenced s.stype || s.srcPath != m.base.path || (m.bnd.out s.dstPath s.cls).all (fun o => o.state == 2)

/-- FLIT_SEND: a replayed flit, else a new DATA flit of the first segment that its VC's credit and the window allow, else a NULL
flit (R254, R257, R258, R260). Before ACTIVE only NULL flits go (R264 steps 7 and 8). -/
def Mod.flitSend (m : Mod) (k : Nat) : Mod :=
  let p := (m.base.camPort k).getD 64
  if !(m.cam k).running || 64 ≤ p then m
  else
    let m := (m.growCredit p 0).growCredit p 2
    let c := m.cam k
    let next := m.base.rd (Reg.FAB_SEQ k) F.FAB_SEQ_next_tx
    let null := m.emitFlit k next 0 0 { dstPath := 0, srcPath := 0 } (List.replicate 256 0#8)
    if !m.base.camActive k then null
    else
      match c.replayNext with
      | some (h, n) =>
        let m := m.setCam { c with replay := n }
        let m := { m with base := (m.base.bump (Reg.FAB_CNT k 4)).occ 0x281 k none 1 }
        m.emitFlit k h.seq 1 h.seg.vc h.seg (segBytes h.seg)
      | none =>
        let m := m.setCam { c with replay := none }
        let window := m.base.rd (Reg.FAB_CFG k) F.FAB_CFG_window
        match c.tx.find? (fun s => c.mayNew (segResp s) next window && m.mayGo s) with
        | none => m.emitFlit k next 0 0 { dstPath := 0, srcPath := 0 } (List.replicate 256 0#8)
        | some s =>
          let c : CamPort := { c with replay := none, tx := c.tx.erase s, held := c.held ++ [⟨next, s⟩],
                                      ccReq := if segResp s then c.ccReq else (c.ccReq + 1) % 4096,
                                      ccRsp := if segResp s then (c.ccRsp + 1) % 4096 else c.ccRsp }
          let b := (m.base.bump (Reg.FAB_CNT k 0)).occ 0x280 k none 1
          let b := (b.wr (Reg.FAB_SEQ k) F.FAB_SEQ_next_tx ((next + 1) % 4096)).armIfIdle (.replay k) (b.replayNs k)
          let m := (({ m with base := b } : Mod).setCam c).showCredit k
          (m.emitFlit k next 1 s.vc s (segBytes s)).segmentSent s

/-- A received ack (R258): it frees held flits up to it, or is ignored and counted. -/
def Mod.ackApply (m : Mod) (k a : Nat) : Mod :=
  let c := m.cam k
  let next := m.base.rd (Reg.FAB_SEQ k) F.FAB_SEQ_next_tx
  let base := ((c.held.head?.map HeldFlit.seq).getD next + 4095) % 4096
  let d := (a + 4096 - base) % 4096
  if c.held.length < d then
    { m with base := (m.base.bump (Reg.FAB_CNT k 10)).raise (camEv k 2 0) }
  else
    let b := m.base.wr (Reg.FAB_SEQ k) F.FAB_SEQ_acked a
    if d = 0 then { m with base := b }
    else
      let held := c.held.drop d
      let replay := match c.replay with
        | none => none
        | some n => if held.isEmpty then none else if d ≤ n then (if n - d < held.length then some (n - d) else none) else some 0
      let b := b.disarm (.replay k)
      let b := if held.isEmpty then b else b.arm (.replay k) (b.replayNs k)
      ({ m with base := b } : Mod).setCam { c with held := held, replay := replay, expiries := 0 }

/-- Received limits replace those held only when newer (R257). -/
def CamPort.takeLimits (c : CamPort) (rq rs : Nat) : CamPort :=
  { c with clReq := if newer 12 rq c.clReq then rq else c.clReq, clRsp := if newer 12 rs c.clRsp then rs else c.clRsp }

/-- The segment in a good DATA flit, with what the flit's header carries. -/
def flitSeg (bs : List Byte) : Segment :=
  let w0 := fieldAt bs 0 4
  let w1 := fieldAt bs 4 4
  let w2 := fieldAt bs 8 4
  { (segOf ((bs.drop 12).take 256)) with vc := bits w0 ⟨26, 2⟩, tc := bits w0 ⟨28, 3⟩, world := bitOf w0 31, ks := bitOf w1 24,
                                         poison := bitOf w1 25, dstPath := w2 % 4096, srcPath := bits w2 ⟨12, 12⟩ }

/-- The first good flit brings the port to ACTIVE (R264 step 8). -/
def Mod.toActive (m : Mod) (k : Nat) : Mod :=
  if m.base.camState k ≠ 5 then m
  else
    let b := ((m.base.setCamState k 6).disarm (.train k)).disarm (.tune k)
    ({ m with base := b } : Mod).setCam { (m.cam k) with partnerAsleep := false }

/-- A DATA flit is accepted (R255, R257): its credit is spent, and its segment reaches the bond logic. -/
def Mod.acceptFlit (m : Mod) (k : Nat) (s : Segment) : Mod :=
  let p := (m.base.camPort k).getD 64
  let resp := segResp s
  let c := m.cam k
  let c : CamPort := { c with accReq := if resp then c.accReq else (c.accReq + 1) % 4096,
                              accRsp := if resp then (c.accRsp + 1) % 4096 else c.accRsp }
  let v := if resp then 2 else 0
  let x := m.sw.credit p v
  let m := { m with base := m.base.bump (Reg.FAB_CNT k 1), sw := m.sw.setCredit { x with hdrOut := x.hdrOut - 1 } }
  let m := m.setCam c
  if s.vc = 3 then { m with base := (m.base.bump (Reg.FAB_CNT k 9)).raise (camEv k 2 0) }
  else m.segmentIn k s

/-- FLIT_RECEIVE (R252, R259): `bad` when one of its blocks came marked bad. -/
def Mod.flitIn (m : Mod) (k : Nat) (bs : List Byte) (bad : Bool) : Mod :=
  if !(m.cam k).running then m
  else if bad || bs.length ≠ 272 || crc32 (bs.take 268) ≠ fieldAt bs 268 4 then
    { m with base := m.base.bump (Reg.FAB_CNT k 2) }
  else
    let w0 := fieldAt bs 0 4
    let w1 := fieldAt bs 4 4
    let m := (m.toActive k).ackApply k (bits w0 ⟨12, 12⟩)
    let m := (m.setCam ((m.cam k).takeLimits (w1 % 4096) (bits w1 ⟨12, 12⟩))).showCredit k
    match bits w0 ⟨24, 2⟩ with
    | 0 => m
    | 1 =>
      let last := m.base.rd (Reg.FAB_RX k) F.FAB_RX_last_rx
      if w0 % 4096 = (last + 1) % 4096 then
        ({ m with base := m.base.wr (Reg.FAB_RX k) F.FAB_RX_last_rx (w0 % 4096) } : Mod).acceptFlit k (flitSeg bs)
      else { m with base := m.base.bump (Reg.FAB_CNT k 3) }
    | _ => { m with base := m.base.bump (Reg.FAB_CNT k 2) }

/-- FLIT_RECEIVE (R253): the next 34 blocks of the stream make a flit; a control block or an invalid header in it counts as bad, but an LR
block enters link reset (R262). Nothing is taken before all 34 have come. -/
def Mod.flitTake (m : Mod) (k : Nat) : Mod :=
  if !(m.cam k).running then m
  else
    match CamPort.takeBlocks 34 (m.cam k) with
    | none => m
    | some (xs, c) =>
      let m := m.setCam c
      match xs.find? (fun x => x.control 0x33 && !x.bad) with
      | some x => m.lrIn k (fieldAt x.bytes 1 1)
      | none => m.flitIn k (xs.flatMap RxBlock.bytes) (xs.any (fun x => x.bad || x.header != 2#2))

/-- The replay timer ends (R260, R261): replay_max expiries fail the link; else every held flit is sent again from the oldest. -/
def Mod.replayEnd (m : Mod) (k : Nat) : Mod :=
  let c := m.cam k
  if c.held.isEmpty then m
  else
    let n := c.expiries + 1
    let m := ({ m with base := m.base.bump (Reg.FAB_CNT k 5) } : Mod).setCam { c with expiries := n, replay := some 0 }
    let m := m.showCredit k
    if m.base.replayMax k ≤ n then m.linkReset k 3
    else { m with base := m.base.arm (.replay k) (m.base.replayNs k) }

end Sys2Proof.Machine
end

