-- ==== Sys2Proof/Machine/Recovery.lean ====
section
/-! DEFINITION. Self-recovery (R302, R308, R309, R327) and the performance counters (R310-R320): storm ends, watchdogs,
the CSR watchdog, counter writes, wraps, sample points, and what counts with time. -/

namespace Sys2Proof.Machine

/-! ### Storms and watchdogs -/

/-- storm_ms has passed since a source's last event (R302): a suppressed source is heard again. -/
def Base.stormEnd (b : Base) (g i : Nat) : Base :=
  let x := b.storm g i
  if !x.suppressed then b
  else ({ b with now := max b.now (x.last + b.stormWindow) } : Base).setStorm { x with suppressed := false }

/-- One hour in ns. -/
def hour : Nat := 3600 * sec

/-- A unit is recovered now: the record of R309, and whether this is its third recovery within 1 h. -/
def recoverUnit (l : List (Nat × Nat)) (u now : Nat) : List (Nat × Nat) × Bool :=
  let l := l.filter (fun x => decide (now < x.2 + hour)) ++ [(u, now)]
  (l, decide (3 ≤ (l.filter (fun x => x.1 == u)).length))

/-- A queue engine restarts (R308): what it fetched and has not routed is discarded, and sq_head rewinds to the first. Each keeps its place in
fetch order for when it is fetched again, so that a fence that covers it waits for it (R133, R134); a FENCE among them ends. -/
def Mod.restartQueueEngine (m : Mod) (p : Nat) : Mod :=
  let m := (m.qe.turns.filter (fun t => t.part == p)).foldl (fun m t =>
    (t.reads.foldl (fun m r => m.quarantine (.fetch p r.id) 0) m).rewindTurn t) m
  let mine := m.qe.descs.filter (fun d => d.phase == .queued && m.base.sliceLive d.slice && m.base.slicePart d.slice == p)
  mine.reverse.foldl (fun m d =>
    let q := d.gqp - m.base.qpBase d.slice
    let m := m.unreserve d.gqp d.slots
    ({ m with qe := { m.qe with descs := m.qe.descs.filter (fun x => x.id != d.id),
                                fences := m.qe.fences.filter (fun f => f.desc != some d.id),
                                lost := (d.gqp, d.slot, d.id) :: m.qe.lost },
              base := m.base.wr (Reg.SLC_QP_PTR d.slice q) F.SLC_QP_PTR_sq_head d.slot } : Mod).refreshBusy d.gqp) m

/-- Has the queue engine of partition p something to act on (R308): a pair to fetch with room in its completion ring, or a fetched descriptor
to route, that neither a FENCE nor a SLICE_CTL holds back? -/
def Mod.queueWork (m : Mod) (p : Nat) : Bool :=
  (m.fetchable p).any (fun x => decide (2 ≤ m.freeSlots x.1 x.2.1 x.2.2)) ||
  m.qe.descs.any (fun d => m.base.slicePart d.slice == p && d.opcode != 0x10 && m.frontDesc d.gqp == some d)

/-- The watchdog of a queue engine expires (R308, R309). -/
def Mod.queueWatchdog (m : Mod) (p : Nat) : Mod :=
  if !m.engineRuns p || m.qe.turns.any (fun t => t.part == p) || !m.queueWork p then m
  else
    let m := m.restartQueueEngine p
    let (l, third) := recoverUnit m.qe.recovered p m.base.now
    let b := m.base.raise { group := 0, bit := 3, sev := 1 }
    { m with base := if third then b.raise { group := 0, bit := 5, sev := 1 } else b,
             qe := { m.qe with recovered := l, engineHeld := if third then m.qe.engineHeld ++ [p] else m.qe.engineHeld } }

/-- A park engine restarts (R308): its entries in SWEEP return to their prior state, those in INGEST start again. -/
def Mod.restartParkEngine (m : Mod) (e : Nat) : Mod :=
  (m.prk.entries.filter (fun x => engineOf x.shelf == e && (x.state == 1 || x.state == 6))).foldl (fun m x =>
    match m.prk.entry x.idx with
    | none => m
    | some x => if x.state = 6 then m.returnPrior x else m.restartIngest x) m

/-- A slot of a held park engine becomes FAILED under R95: its entries end with TARGET_GONE, and its power is taken down. -/
def Mod.failSlot (m : Mod) (n : Nat) : Mod :=
  if !m.base.slotServed n || m.base.slotState n == 9 then m
  else
    let s := m.prk.slot n
    let m := { m with prk := m.prk.setSlot { s with failing := true, keepSince := none } }
    if s.pwrreq || s.pg then m.takeDown n { s with failing := true, keepSince := none }
    else ({ m with base := m.base.quietSlot n } : Mod).powerOff n

/-- The watchdog of a park engine expires (R308, R309). -/
def Mod.parkWatchdog (m : Mod) (e : Nat) : Mod :=
  let works := m.prk.entries.any (fun x => engineOf x.shelf == e && (x.state == 1 || x.state == 6))
  let reads := m.tags.any (fun t => match t.owner with
    | some (.ingest i _) | some (.sweepRead i _) | some (.refetch i _) | some (.sweepFlush i) =>
      (match m.prk.entry i with
       | some x => engineOf x.shelf == e
       | none => false)
    | _ => false)
  let refused := m.sw.waiting.any (fun f => f.src == 64 + e)
  if !works || reads || refused || m.ingestPaused || m.pl.parkHeld.contains e || m.pl.m2 != 0 then m
  else
    let m := m.restartParkEngine e
    let (l, third) := recoverUnit m.pl.parkRec e m.base.now
    let m := { m with base := m.base.raise { group := 0, bit := 4, sev := 1 }, pl := { m.pl with parkRec := l } }
    if third then
      let m := { m with base := m.base.raise { group := 0, bit := 5, sev := 1 }, pl := { m.pl with parkHeld := m.pl.parkHeld ++ [e] } }
      ((List.range 56).filter (fun n => n % 4 == e)).foldl (fun m n => m.failSlot n) m
    else m

/-- The watchdog of a management core expires (R308, R309): the other cores take over; the last one held is fatal. -/
def Mod.coreWatchdog (m : Mod) (c : Nat) : Mod :=
  if m.pl.coreHeld.contains c then m
  else
    let (l, third) := recoverUnit m.pl.cores c m.base.now
    let held := if third then m.pl.coreHeld ++ [c] else m.pl.coreHeld
    let b := m.base.raise { group := 0, bit := 2, sev := 1 }
    let b := if third then b.raise { group := 0, bit := 5, sev := 1 } else b
    let b := if third && decide (4 ≤ held.length) then b.raise { group := 0, bit := 9, sev := 2 } else b
    { m with base := b, pl := { m.pl with cores := l, coreHeld := held } }

/-- An accessor gets an error response (R150, R308, R327): a host read completes with UR, an SMBus read returns all-ones
bytes with its error flag, the debug port its error status. -/
def Base.answerError (b : Base) (who : Who) (isWrite : Bool) : Base :=
  match who with
  | .host p => if isWrite then b else b.emit (.cplErr p 1)
  | .smbus => if isWrite then b.emit (.smbus [] true) else b.emit (.smbus (List.replicate 4 0xFF#8) true)
  | .debug => b.emit (.debug none)
  | _ => b.emit (.errResp who)

/-- An access reaches 50 µs unanswered (R308, R327). -/
def Base.csrWatchdog (b : Base) (who : Who) (off : Nat) (isWrite : Bool) : Base :=
  let b := { b with hung := b.hung.erase (who, off, isWrite) }
  ((b.bump Reg.CLK_WDOG_CNT).raise { group := 0, bit := 6 }).answerError who isWrite

/-! ### Counters -/

/-- Virtual counter v of slice s reaches its sample point, or has passed several (R320): each sets `sampled` and sends the message. -/
def Base.vcSample (b : Base) (s v : Nat) : Base :=
  let per := samplePeriod (b.rd (Reg.SLC_VC_PERIOD s v) F.SLC_VC_PERIOD_period)
  let a := Reg.SLC_VC_CNT s v
  (List.range (pointsPassed (b.rd a F.CNT_count) (b.sampleAt a) per)).foldl (fun b _ =>
    let b := (b.wr (Reg.SLC_VC_SEL s v) F.SLC_VC_SEL_sampled 1).setSample a (b.sampleAt a + per)
    if b.isSet (Reg.SLC_VC_SEL s v) F.SLC_VC_SEL_irq_en then
      b.message ⟨b.slicePart s, b.rd (Reg.SLC_VC_SEL s v) F.SLC_VC_SEL_vector, .vc s v⟩
    else b) b

/-- The virtual counter whose count is at `a`. -/
def vcAt (a : Nat) : Option (Nat × Nat) :=
  match regAt a with
  | some h => if h.row.name == RegName.SLC_VC_CNT && h.word == 0 then some (h.i1, h.i2) else none
  | none => none

/-- The module counter whose count is at `a`. -/
def pmcAt (a : Nat) : Option Nat :=
  match regAt a with
  | some h => if h.row.name == RegName.PMC_CNT && h.word == 0 then some h.i1 else none
  | none => none

/-- The counters of the common layout (R61), by name. -/
def isCounter (r : RegName) : Bool :=
  match r with
  | .EVT_CNT | .PMC_CNT | .PWR_CNT | .CLK_WDOG_CNT | .SER_CNT | .PRT_CNT | .XBR_MC_FAIL_CNT | .XBR_MIR_DROP
  | .XBR_SAMPLE_DROP | .BUF_ECC_CE | .BUF_ECC_UE | .PRK_CNT | .HOD_CNT | .GRD_CNT | .SLC_VC_CNT | .FAB_CNT | .BND_CNT
  | .MEM_CH_CNT => true
  | _ => false

/-- A sample point is reached (R319, R320). -/
def Base.samplePoint (b : Base) (a : Nat) : Base :=
  match pmcAt a, vcAt a with
  | some i, _ => b.pmcSample i
  | none, some (s, v) => b.vcSample s v
  | none, none => b

/-- Every virtual counter that has reached its sample point (R320). -/
def Base.vcSamples (b : Base) : Base :=
  b.samples.foldl (fun b x => match vcAt x.1 with
    | some (s, v) => b.vcSample s v
    | none => b) b

/-- The event that a counter's wrap raises: 4:1 with the counter for the PMC (R317), else its block's (R61). -/
def wrapOf (a : Nat) : Option Ev :=
  match pmcAt a, vcAt a with
  | some i, _ => some { group := 4, bit := 1, detail := i }
  | none, some (s, v) => some { group := 4, bit := 1, detail := s + 1024 * v }
  | none, none => wrapEvent a

/-- A counter's increment passes 2^48 - 1 (R317): the count wraps to the remainder, ovf is set, the event raised. -/
def Base.counterWrap (b : Base) (a n : Nat) : Base :=
  match regAt a with
  | none => b
  | some h =>
    if isCounter h.row.name && h.word == 0 && decide (2 ^ 48 ≤ b.rd a F.CNT_count + n) then
      b.addCount a n (wrapOf a)
    else b

/-- Where the period of a counter is, and whether the counter runs (R318, R319). -/
def Base.counterPeriod (b : Base) (a : Nat) : Nat × Bool :=
  match pmcAt a, vcAt a with
  | some i, _ => (b.rd (Reg.PMC_PERIOD i) F.PMC_PERIOD_period,
      b.isSet (Reg.PMC_CFG i) F.PMC_CFG_en && !b.isSet (Reg.PMC_CFG i) F.PMC_CFG_bad &&
      b.isSet Reg.PMC_GLOBAL F.PMC_GLOBAL_run)
  | none, some (s, v) => (b.rd (Reg.SLC_VC_PERIOD s v) F.SLC_VC_PERIOD_period,
      b.isSet (Reg.SLC_VC_SEL s v) F.SLC_VC_SEL_en && !b.isSet (Reg.SLC_VC_SEL s v) F.SLC_VC_SEL_bad)
  | none, none => (0, false)

/-- The sample point becomes count + period (R319). -/
def Base.newPoint (b : Base) (a : Nat) : Base :=
  b.setSample a (b.rd a F.CNT_count + samplePeriod (b.counterPeriod a).1)

/-- A write of PMC_CNT or SLC_VC_CNT (R316): `a` is the lower word's offset, `part` 0 the whole register, 1 its lower word,
2 its upper word. -/
def Base.countWrite (b : Base) (a part v : Nat) : Base :=
  let ovf := fun (b : Base) (hi : Nat) => if bitOf hi 31 then b.wr a F.CNT_ovf 0 else b
  if part = 1 then { b with cntHold := some (a, BitVec.ofNat 32 v) }
  else
    let lo := match part, b.cntHold with
      | 0, _ => v % 2 ^ 32
      | _, some (h, w) => if h = a then w.toNat else (b.word a).toNat
      | _, none => (b.word a).toNat
    let hi := if part = 0 then v / 2 ^ 32 else v
    let b := ovf { b with cntHold := none } hi
    (b.wr a F.CNT_count (lo + 2 ^ 32 * (hi % 65536))).newPoint a

/-- A write of a counter's period (R319): a running sampling counter keeps its next sample point. -/
def Base.periodWrite (b : Base) (reg a v : Nat) : Base :=
  let (old, runs) := b.counterPeriod a
  let b := b.setWord reg (BitVec.ofNat 32 v)
  if runs && old != 0 then b else b.newPoint a

/-! ### What counts with time (R312, R313) -/

/-- The slices, with their partitions, that have a pair whose fetching waits for completion slots alone (R172). -/
def Mod.fetchWaits (m : Mod) : List (Nat × Nat) :=
  (m.qe.qps.filterMap (fun r => (m.base.qpOwner r.gqp).bind (fun x =>
    let p := m.base.slicePart x.1
    if m.engineRuns p && m.base.sliceState x.1 == 1 && m.base.qpState x.1 x.2 == 1 &&
       m.base.isSet (Reg.SLC_QP_CFG x.1 x.2) F.SLC_QP_CFG_enable &&
       r.tail != m.base.rd (Reg.SLC_QP_PTR x.1 x.2) F.SLC_QP_PTR_sq_head &&
       !m.qe.fenced x.1 r.gqp && decide (m.freeSlots x.1 x.2 r.gqp < 2)
    then some (p, x.1) else none))).eraseDups

/-- A run of ns brings these occurrences, by what stood (`was`) while it ran: `us` and `secs` are the microseconds and seconds that have
begun in it. -/
def Mod.countTime (m was : Mod) (ns us secs : Nat) : Mod :=
  if ns = 0 then m else
  let b := (m.base.occTime 0x000 0 none (2 * ns)).occTime 0x001 0 none ns
  let b := was.hod.runs.foldl (fun b r =>
    let b := b.occTime 0x142 r.h (some r.slice) (2 * ns)
    if r.waiting then b.occTime 0x143 r.h (some r.slice) (2 * ns) else b) b
  let b := ((was.sw.credits.filter (fun c => decide (0 < c.hdrPend))).map (fun c => c.port)).eraseDups.foldl
    (fun b p => b.occTime 0x202 p none (2 * ns)) b
  let b := was.fetchWaits.foldl (fun b x => b.occTime 0x1C4 x.1 (some x.2) (2 * ns)) b
  let b := was.cams.foldl (fun b c =>
    if c.running && c.clReq == c.ccReq then b.occTime 0x282 c.k none (2 * ns) else b) b
  let b := b.occTime 0x2C2 0 none (was.holdUsed * us)
  let b := if secs = 0 then b
    else (List.range 56).foldl (fun b n => if was.base.slotState n = 1 then b.occTime 0x105 n none secs else b) b
  { m with base := b }

end Sys2Proof.Machine
end

