-- ==== Sys2Proof/Machine/Dram.lean ====
section
/-! DEFINITION. Errors of park DRAM and of on-die SRAM (R85, R99, R130, R299, R385, R386): counters, logs, poison, what an
entry's error does, and failed channels. -/

namespace Sys2Proof.Machine

/-- A DRAM channel fails (R385): fatal event 7:(24 + c), cause 1. -/
def Mod.channelFail (m : Mod) (c : Nat) : Mod :=
  if m.base.isSet (Reg.MEM_CH_STATUS c) F.MEM_CH_STATUS_failed then m
  else { m with base := (m.base.wr (Reg.MEM_CH_STATUS c) F.MEM_CH_STATUS_failed 1).raise
                  { group := 7, bit := 24 + c, cause := 1, sev := 2 } }

/-- A burst is lost to an uncorrectable error (R385): more than 16 within 1 s fail the channel. -/
def Mod.burstLost (m : Mod) (c : Nat) : Mod :=
  let l := m.dram.lost.filter (fun x => decide (m.base.now < x.2 + sec)) ++ [(c, m.base.now)]
  let m := { m with dram := { m.dram with lost := l } }
  if 16 < (l.filter (fun x => x.1 == c)).length then m.channelFail c else m

/-- A DRAM controller finds an uncorrectable error (R85, R99, R130): in a granule the entry's state decides, in a staging area that of the park
read whose bytes are there; elsewhere the word is poisoned; one in both copies of a table is fatal. -/
def Mod.dramError (m : Mod) (addr : Nat) (both : Bool) : Mod :=
  let c := channelOf addr
  let burst := addr / 64 * 64
  let a := Reg.MEM_CH_ERRADDR c
  let b := (m.base.bump (Reg.MEM_CH_CNT c 1)).bump (Reg.PRK_CNT 9)
  let b := if b.isSet a F.MEM_CH_ERRADDR_valid then b
    else (b.wr a F.MEM_CH_ERRADDR_addr burst).wr a F.MEM_CH_ERRADDR_valid 1
  let b := b.raise { group := 5, bit := 2, sev := 1, detail := burst % 2 ^ 32, detail2 := burst / 2 ^ 32 }
  let m := (({ m with base := b } : Mod).loseRsv (fun r => r.line == some (addr / 64)) 5).burstLost c
  if both then { m with base := m.base.raise { group := 0, bit := 1, sev := 2 } }
  else
    match (m.prk.holder addr).orElse (fun _ => m.stageHolder addr) with
    | some e => m.granuleError e
    | none => { m with dram := { m.dram with poison := addr / 8 :: m.dram.poison.filter (fun w => w != addr / 8) } }

/-- A corrected error of a channel counts (R99, R386): the hourly count that reaches ce_thr raises the event once. -/
def Mod.corrected (m : Mod) (c : Nat) : Mod :=
  let h := m.base.todSec / 3600
  let d := if m.dram.hour = h then m.dram else { m.dram with hour := h, ceHour := [], ceRaised := [] }
  let n := tget d.ceHour c + 1
  let thr := m.base.rd (Reg.MEM_CH_CFG c) F.MEM_CH_CFG_ce_thr
  let b := (m.base.bump (Reg.MEM_CH_CNT c 0)).bump (Reg.PRK_CNT 8)
  let tell := thr != 0 && decide (thr ≤ n) && !d.ceRaised.contains c
  { m with dram := { d with ceHour := tset d.ceHour c n, ceRaised := if tell then c :: d.ceRaised else d.ceRaised },
           base := (if tell then b.raise { group := 7, bit := 24 + c, cause := 0 } else b).raise { group := 5, bit := 1 } }

/-- The patrol scrub (R99): each channel of the list had a burst corrected and written back; each address of `bad` holds an
uncorrectable error. It runs while enabled and DRAM is not in self-refresh. -/
def Mod.patrol (m : Mod) (fixed bad : List Nat) : Mod :=
  if !m.base.isSet Reg.PRK_SCRUB F.PRK_SCRUB_enable || m.pl.m2 == 2 || m.base.rd Reg.CLK_STATUS F.CLK_STATUS_stage != 6 then m
  else
    let m := fixed.foldl (fun m c => ({ m with base := m.base.bump (Reg.MEM_CH_CNT c 2) } : Mod).corrected c) m
    bad.foldl (fun m a => m.dramError a false) m

/-- An uncorrectable SRAM error (R85, R299): fatal in tables, management memory and both copies of the entry table; in a
register's storage the read completes with EP set. -/
def Base.sramError (b : Base) (k : SramKind) : Base :=
  match k with
  | .table => b.raise { group := 0, bit := 0, sev := 2 }
  | .entryTable both => if both then b.raise { group := 0, bit := 1, sev := 2 } else b
  | .register off => (b.emit (.badRead off)).raise { group := 0, bit := 0, sev := 1, detail := off }

end Sys2Proof.Machine
end

