-- ==== Sys2Proof/Machine/Boot.lean ====
section
/-! DEFINITION. Reset, boot and life cycle (R298, R324-R343): take-downs, the resets of the switch die, the boot sequence,
image updates, the calibration set, life-cycle transitions, block resets, and M2. -/

namespace Sys2Proof.Machine

/-- The boot stage in force (R332). -/
def Base.stage (b : Base) : Nat := b.rd Reg.CLK_STATUS F.CLK_STATUS_stage
def Base.setStage (b : Base) (n : Nat) : Base := b.wr Reg.CLK_STATUS F.CLK_STATUS_stage n

/-- A partition's software wrote a wrong code or an unallowed value: the advisory event of group 16 (R303). -/
def Base.badWrite (b : Base) (who : Who) : Base := b.misuse who 0

/-! ### Registers over a reset (R13-R17, R328, R345) -/

/-- Does a register live in the plinth and keep its value over a reset of the die (R345, R384)? -/
def plinthReg (a : Nat) : Bool := decide (a < 0x10) || (decide (0x300000 ≤ a) && decide (a < 0x400000))

/-- The bits of a register word that a mask of its row covers. -/
def maskWord (f : RegRow → Nat) (a : Nat) : W32 :=
  match regAt a with
  | some h => BitVec.ofNat 32 (f h.row >>> (32 * h.word))
  | none => 0#32

/-- The register file after a reset of the die (R14, R328): plinth registers stand; a warm reset keeps the rs fields. -/
def RegFile.overReset (r : RegFile) (warm : Bool) : RegFile :=
  r.filterMap (fun x =>
    if plinthReg x.1 then some x
    else if !warm then none
    else
      let rs := maskWord RegRow.rs x.1
      let v := (x.2 &&& rs) ||| (regReset x.1 &&& ~~~rs)
      if v = regReset x.1 then none else some (x.1, v))

/-- The timers that the plinth runs; a reset of the die stops every other. -/
def plinthTimer (k : TimerKey) : Bool :=
  match k with
  | .dipResume | .debounce | .inputQual | .pgQual | .inrush | .limitClear | .faultTimer | .gateOff | .retry | .retryClear
  | .pwrreqRelease _ | .cageReset _ => true
  | _ => false

/-- The timers of entries and copies that are kept over a warm reset (R100). -/
def keptTimer (k : TimerKey) : Bool :=
  match k with
  | .entryExpiry _ | .orphan _ => true
  | _ => false

/-- What registers, events, guards and counters are after a reset of the die. -/
def Base.overReset (b : Base) (warm keep : Bool) : Base :=
  let b := b.stopCore
  { regs := b.regs.overReset warm, now := b.now, coreOn := false, stamp := b.stamp, stampAt := b.stampAt,
    timers := b.timers.filter (fun t => plinthTimer t.key || (keep && keptTimer t.key)), freeCtr := b.freeCtr, out := b.out }

/-- The plinth mirrors are reloaded (R328). -/
def Mod.showMirrors (m : Mod) : Mod :=
  let b := (m.base.wr Reg.CLK_LC_STATE F.CLK_LC_STATE_state m.pl.lc).flag Reg.CLK_LC_STATE F.CLK_LC_STATE_pending m.pl.lcNext.isSome
  let b := (b.wr Reg.CLK_IMG_STATUS F.CLK_IMG_STATUS_fw_active m.pl.fwAct).wr Reg.CLK_IMG_STATUS F.CLK_IMG_STATUS_img_active m.pl.imgAct
  { m with base := b.flag Reg.CLK_CAL_STATUS F.CLK_CAL_STATUS_factory (!m.pl.calSaved) }

/-- The module with its die reset (R328): engines, SRAM and management memory empty; park DRAM and its entries only where
kept, and then new entries of a shelf still follow them (R74); the plinth and its lines stand, SHELF_PERST_n# asserted and SHELF_PWRREQ_n as `req` says. -/
def Mod.freshDie (m : Mod) (warm keep : Bool) (req : Bool) : Mod :=
  let lines := m.prk.slots.map (fun s => ({ n := s.n, pg := s.pg, alert := s.alert, pwrreq := req && s.pwrreq,
                                             nextSeq := if keep then s.nextSeq else 0 } : Slot))
  let pl := { m.pl with token := none, calCopy := [], img := none, take := none, m2 := 0, m2Wake := none, debugOpen := false,
                        cores := [], coreHeld := [], parkRec := [], parkHeld := [], keep := keep, warm := warm, image := [] }
  let b := (m.base.overReset warm keep)
  let rsvs := (m.ord.loseRsv (fun _ => true) 4).rsvs.map (fun (r : Rsv) => { r with latch := 0#32 })
  ({ base := b, pl := pl, ord := { rsvs := rsvs }, dram := if keep then { m.dram with mgmt := [], lost := [] } else {},
     prk := { entries := if keep then m.prk.entries else [], guests := if keep then m.prk.guests else [], slots := lines } }
    : Mod).showMirrors

/-! ### Cages (R357, R366) -/

/-- Is cage power shed (R346)? -/
def Base.cageShed (b : Base) : Bool :=
  let z := b.rd Reg.PWR_STATUS F.PWR_STATUS_zone
  decide (2 ≤ z) || (z == 1 && b.isSet Reg.PWR_SHED F.PWR_SHED_cage_on_warn)

/-- A front cage. -/
def Plinth.cage (x : Plinth) (c : Nat) : Cage := (x.cages.find? (fun y => y.c == c)).getD { c := c }
def Plinth.setCage (x : Plinth) (y : Cage) : Plinth := { x with cages := y :: x.cages.filter (fun z => z.c != y.c) }

/-- May a cage be on (R357, R366): its assembly present, enabled, not turned off by a fault, POWER_GOOD, no shedding? It is switched on
from stage DRAM (R332); a reset of the die leaves it on (R345). -/
def Mod.cageMay (m : Mod) (c : Nat) : Bool :=
  let st := m.base.stage
  (m.pl.cage c).present && !(m.pl.cage c).tripped && m.base.isSet (Reg.PWR_CAGE c) F.PWR_CAGE_en &&
  m.base.isSet Reg.PWR_STATUS F.PWR_STATUS_pg && !m.base.cageShed &&
  (m.base.isSet (Reg.PWR_CAGE c) F.PWR_CAGE_on || (decide (4 ≤ st) && decide (st ≤ 6)))

/-- POWER_GOOD is low: every cage is off, its ResetL asserted (R357, R366). -/
def Mod.cagesOff (m : Mod) : Mod :=
  { m with pl := { m.pl with cages := m.pl.cages.map (fun c => { c with released := false }) },
           base := (List.range 8).foldl (fun b c =>
             let a := Reg.PWR_CAGE c
             if b.isSet a F.PWR_CAGE_on then ((b.wr a F.PWR_CAGE_on 0).wr a F.PWR_CAGE_i 0).disarm (.cageReset c) else b) m.base }

/-- The port in a cage whose power or cable is gone fails its link (R262, R357, R366). -/
def Mod.cagePortDown (m : Mod) (c : Nat) : Mod :=
  let m := m.tileDown (24 + c)
  if m.base.camTile (24 + c) && m.base.camState c != 0 then m.linkReset c 5 else m

/-- Each cage's power follows its conditions; ResetL is released 10 ms after power turns on. -/
def Mod.refreshCages (m : Mod) : Mod :=
  (List.range 8).foldl (fun m c =>
    let a := Reg.PWR_CAGE c
    let on := m.base.isSet a F.PWR_CAGE_on
    let may := m.cageMay c
    if on == may then m
    else if may then
      { m with base := (m.base.wr a F.PWR_CAGE_on 1).arm (.cageReset c) (10 * ms),
               pl := m.pl.setCage { (m.pl.cage c) with released := false } }
    else
      let b := ((m.base.wr a F.PWR_CAGE_on 0).wr a F.PWR_CAGE_i 0).disarm (.cageReset c)
      ({ m with base := b, pl := m.pl.setCage { (m.pl.cage c) with released := false } } : Mod).cagePortDown c) m

/-! ### Take-downs (R298, R329, R343) -/

/-- Steps 2 and 3 of R298 at once: Camtex ports tell their partners, every PCI Express link goes down, every
SHELF_PERST_n# asserts, hods end without pulses (R118). -/
def Mod.takeLinksDown (m : Mod) (reason : Byte) : Mod :=
  let m := m.cams.foldl (fun m c =>
    if m.base.camActive c.k then { m with base := m.base.emit (.lr c.k reason) } else m) m
  let m := m.cams.foldl (fun m c => m.camDown c.k) m
  let m := m.hod.runs.foldl (fun m r => m.abort r.h r.c true) { m with hod := { m.hod with m2hold := true } }
  let m := m.hod.starts.foldl (fun m x => m.abort x.h x.c true) m
  let m := (List.range 64).foldl (fun m p => if m.base.linkUp p then m.linkGone p else m) m
  { m with prk := { m.prk with slots := m.prk.slots.map (fun s => { s with perst := true, sweeping := false }) } }

/-- A reset or power-off is requested (R329, R343): the take-down starts, or merges with the one that runs; a warm request
during boot restarts the boot at once. -/
def Mod.requestDown (m : Mod) (x : TakeDown) : Mod :=
  match m.pl.take with
  | some t =>
    let m := if x.off = 1 && t.off = 0 then m.drainAll else m
    let cold := x.cold && !t.cold && t.off == 0
    { m with pl := { m.pl with take := some { t with cold := t.cold || x.cold, cause := if cold then x.cause else t.cause,
                                                     off := max t.off x.off, fatal := t.fatal || x.fatal } } }
  | none =>
    let m := if x.off = 1 then m.drainAll else m
    let m := { m with pl := { m.pl with take := some x } }
    let m := m.takeLinksDown (if x.fatal then 0#8 else 1#8)
    { m with base := m.base.arm .takedown (1010 * us) }

/-- The load gate is off. -/
def Base.gateOff (b : Base) : Base :=
  ((b.wr Reg.PWR_STATUS F.PWR_STATUS_gate_full 0).wr Reg.PWR_STATUS F.PWR_STATUS_limit 0).disarm .gateOff

/-- POWER_GOOD is low and the die without power; the module is in M3 (R33, R353) with a front-end state, and the cause of
its next boot. -/
def Mod.dieOff (m : Mod) (state cause : Nat) : Mod :=
  let was := m.pl.dieOn
  let b := (m.base.flush.wr Reg.PWR_STATUS F.PWR_STATUS_pg 0).wr Reg.PWR_STATUS F.PWR_STATUS_state state
  let b := b.disarmAll (fun k => match k with
    | .pgQual | .inrush | .limitClear | .faultTimer | .retryClear => true
    | _ => false)
  let m := (({ m with base := b } : Mod).freshDie true false true).cagesOff
  { m with pl := { m.pl with dieOn := false, faultAcc := 0, limitSince := none, lastFatal := none,
                             lc := m.pl.lcNext.getD m.pl.lc, lcNext := none,
                             cause := if was then cause else m.pl.cause } }

/-- The switch die comes out of reset (R332 steps 1 and 2): a cold reset at step 1, a warm one at step 2. -/
def Mod.bootDie (m : Mod) (warm keep : Bool) (cause : Nat) : Mod :=
  let resting := (List.range 8).filter (fun c => m.base.isSet (Reg.MEM_CH_STATUS c) F.MEM_CH_STATUS_self_refresh)
  let m := m.freshDie warm keep false
  let lc := if warm then m.pl.lc else m.pl.lcNext.getD m.pl.lc
  let m := ({ m with pl := { m.pl with dieOn := true, bootAt := m.base.now, lc := lc, lcNext := if warm then m.pl.lcNext else none,
                                       cause := 6 } } : Mod).showMirrors
  let b := (m.base.wr Reg.CLK_RESET_CAUSE F.CLK_RESET_CAUSE_cause cause).flag Reg.CLK_STATUS F.CLK_STATUS_kept keep
  let b := if keep then (List.range 8).foldl (fun b c =>
      let b := b.wr (Reg.MEM_CH_STATUS c) F.MEM_CH_STATUS_self_refresh 1
      if resting.contains c then b else b.bump (Reg.MEM_CH_CNT c 3)) b
    else b
  { m with base := b }

/-- May this warm reset keep park DRAM (R100, R328): PRK_KEEP.keep in FIELD, over a store that was ready or is kept? -/
def Mod.mayKeep (m : Mod) : Bool :=
  m.base.isSet Reg.PRK_KEEP F.PRK_KEEP_keep && m.pl.lc == 2 && (m.base.stage == 6 || (m.pl.keep && decide (m.base.stage < 6)))

/-- Stage HALTED (R330): every link down, the shelf lines safe, DIMM power off. -/
def Mod.goHalted (m : Mod) : Mod :=
  let cause := m.base.rd Reg.CLK_RESET_CAUSE F.CLK_RESET_CAUSE_cause
  let m := m.freshDie true false false
  { m with pl := { m.pl with dieOn := true },
           base := (m.base.wr Reg.CLK_RESET_CAUSE F.CLK_RESET_CAUSE_cause cause).setStage 8 }

/-- 1.01 ms after the request (R298, R329, R330, R343, R359): SHELF_PWRREQ_n deassert, merge lines are discarded, and the
reset, the power-off or HALTED follows. -/
def Mod.takedownEnd (m : Mod) : Mod :=
  match m.pl.take with
  | none => m
  | some t =>
    let m : Mod := { m with prk := { m.prk with slots := m.prk.slots.map (fun (s : Slot) => { s with pwrreq := false }) } }
    if t.off = 2 then
      let m := m.dieOff 4 6
      { m with base := m.base.gateOff }
    else if t.off = 1 then
      let m := m.dieOff 6 6
      { m with base := m.base.gateOff }
    else if t.fatal && t.cold && t.cause = 5 then
      let l := m.pl.escalations.filter (fun x => decide (m.base.now < x + hour)) ++ [m.base.now]
      let m := { m with pl := { m.pl with escalations := l } }
      if 3 ≤ l.length then m.goHalted
      else
        let m := m.bootDie false false 5
        { m with pl := { m.pl with lastFatal := none } }
    else if t.cold then
      let m := m.bootDie false false t.cause
      { m with pl := { m.pl with lastFatal := none } }
    else
      let m := m.bootDie true m.mayKeep t.cause
      { m with pl := { m.pl with lastFatal := if t.fatal then some m.base.now else none } }

/-- A request for a warm or cold reset (R329); during boot it restarts the boot at once. -/
def Mod.requestReset (m : Mod) (cold : Bool) (cause : Nat) : Mod :=
  if !m.pl.dieOn then m
  else if m.base.stage < 6 && m.pl.take.isNone then m.bootDie (!cold) (!cold && m.mayKeep) cause
  else if m.base.stage = 8 then (if cold then m.bootDie false false cause else m)
  else m.requestDown { cold := cold, cause := cause }

/-- The fatal sequence (R298): step 1 holds ingress, hods and ingest, then the take-down; within 10 s after the end of a
warm reset that a fatal event caused, the next reset is cold. -/
def Mod.fatalSequence (m : Mod) : Mod :=
  let m := { m with base := { m.base with fatal := false } }
  if !m.pl.dieOn || m.base.stage = 8 then m
  else
    let soon := match m.pl.lastFatal with
      | some t => decide (m.base.now < t + 10 * sec)
      | none => false
    match m.pl.take with
    | some t => if t.fatal then m else m.requestDown { cold := soon, cause := if soon then 5 else 0xA, fatal := true }
    | none => m.requestDown { cold := soon, cause := if soon then 5 else 0xA, fatal := true }

/-- A write of CLK_RESET (R329, R343). -/
def Mod.clkReset (m : Mod) (who : Who) (v : Nat) : Mod :=
  if bits v F.CLK_RESET_code ≠ Config.resetCode then { m with base := m.base.badWrite who }
  else
    let m := if bitOf v 1 then m.requestReset true 2 else if bitOf v 0 then m.requestReset false 8 else m
    if bitOf v 2 && m.pl.dieOn && m.base.stage != 8 then m.requestDown { cold := true, cause := 6, off := 1 } else m

/-! ### The boot (R332, R333, R335, R336) -/

/-- The registers that hold cal fields. -/
def calRegs : List Nat := [Reg.PWR_CAL_I, Reg.PWR_CAL_V] ++ (List.range 256).map Reg.SER_TX_START

/-- Step 3: the clocks run, the lifecycle state is read, and every cal field is loaded, or the neutral values (R336). -/
def Mod.bootStep3 (m : Mod) : Mod :=
  let b := { m.base with now := max m.base.now (m.pl.bootAt + 300 * us) }
  let b := ((b.startCore.wr Reg.CLK_STATUS F.CLK_STATUS_core_lock 1).wr Reg.CLK_STATUS F.CLK_STATUS_mgmt_lock 1).wr
    Reg.CLK_STATUS F.CLK_STATUS_dram_lock 1
  let word := fun a => ((m.pl.cal.words.lookup a).getD 0#32) &&& maskWord RegRow.cal a
  let b := calRegs.foldl (fun b a =>
    let v := if m.pl.cal.good then word a else if a < 0x400000 then 0x8000#32 else 0#32
    if v = b.word a then b else b.setWord a v) b
  let b := if m.pl.cal.good then b
    else (b.wr Reg.CLK_CAL_STATUS F.CLK_CAL_STATUS_neutral 1).raise { group := 2, bit := 3, detail := 1 }
  { m with base := b.setStage (if m.pl.lc = 4 then 7 else 1) }

/-- Step 3 comes 0.3 ms after POWER_GOOD or the warm reset. -/
def Mod.bootDue (m : Mod) : Mod :=
  if m.pl.dieOn && m.base.stage == 0 && decide (m.pl.bootAt + 300 * us ≤ m.base.now) then m.bootStep3 else m

/-- What the rejected slots of this boot add to it: 12 ms each (R332 steps 4 and 5). -/
def Base.bootSlip (b : Base) : Nat :=
  12 * ms * (b.rd Reg.CLK_IMG_STATUS F.CLK_IMG_STATUS_fw_fallback + b.rd Reg.CLK_IMG_STATUS F.CLK_IMG_STATUS_img_fallback)

/-- Does a slot check leave a slot to use: the active one, else the other (R333)? -/
def pickSlot (c : SlotCheck) (act : Nat) : Option Bool :=
  let v := fun i => if i = 0 then c.valid0 else c.valid1
  if v act then some false else if v (1 - act) then some true else none

/-- The firmware check ends (R332 step 4). -/
def Mod.firmwareDone (m : Mod) (c : SlotCheck) : Mod :=
  if !m.pl.dieOn || m.pl.take.isSome then m
  else
    let m := if m.base.stage = 0 then m.bootStep3 else m
    if m.base.stage ≠ 1 then m
    else
      let b := m.base.wr Reg.CLK_IMG_STATUS F.CLK_IMG_STATUS_fw_valid (b2n c.valid0 + 2 * b2n c.valid1)
      match pickSlot c m.pl.fwAct with
      | none =>
        let b := { b with now := max b.now (m.pl.bootAt + 24 * ms) }
        { m with base := b.raise { group := 2, bit := 2, sev := 2 } }
      | some other =>
        let b := { b with now := max b.now (m.pl.bootAt + (if other then 24 else 12) * ms) }
        let b := b.flag Reg.CLK_IMG_STATUS F.CLK_IMG_STATUS_fw_fallback other
        { m with base := b.setStage (if m.pl.lc = 0 || m.pl.lc = 3 then 7 else 2) }

/-- The img fields of these registers take the image's values. -/
def Base.loadWords (b : Base) (words : List (Nat × W32)) : Base :=
  words.foldl (fun b x =>
    let img := maskWord RegRow.img x.1
    let v := (b.word x.1 &&& ~~~img) ||| (x.2 &&& img)
    if v = b.word x.1 then b else b.setWord x.1 v) b

/-- The slices that the image creates are ACTIVE with generation 1, slice 0 belongs to the manager (R182), and the next
channel assignment starts at the hod after the one that took the image's last (R183). DEDUCED. -/
def Mod.bootSlices (m : Mod) (words : List (Nat × W32)) : Mod :=
  let named := words.filterMap (fun x => match regAt x.1 with
    | some h => if h.row.name == RegName.SLC_STATE && x.2.toNat % 8 != 0 then some h.i1 else none
    | none => none)
  let slots := (0 :: named).eraseDups
  let b := m.base.wr (Reg.SLC_BIND 0) F.SLC_BIND_partition m.base.manager
  let turn := match (slots.flatMap b.sliceChans).getLast? with
    | some k => (k / 64 + 1) % 16
    | none => 0
  { m with base := slots.foldl (fun b s =>
             (((b.wr (Reg.SLC_STATE s) F.SLC_STATE_state 1).wr (Reg.SLC_STATE s) F.SLC_STATE_gen 1)).showGlobals s) b,
           slc := { m.slc with turn := turn } }

/-- Each guard loads its full rule set from the image (R145). -/
def Base.bootGuards (b : Base) : Base :=
  (List.range 41).foldl (fun b g => (b.activate g true).checkBad g) { b with act := [] }

/-- The configuration image is in (R332 step 5): every img field, guards, slices, buffer minimums, virtual link state. -/
def Mod.loadImage (m : Mod) (x : ImageLoad) : Mod :=
  let b := { (m.base.loadWords x.words) with bar2 := x.bar2Gib }
  let m := { m with base := b.bootGuards, pl := { m.pl with image := x.words, parkHold := x.parkHold } }
  let m := m.bootSlices x.words
  let pool := m.base.rd Reg.BUF_MIRROR_POOL F.BUF_MIRROR_POOL_cells
  let m := { m with sw := { m.sw with gmin := m.base.stagedMin, gMirror := pool } }
  let m := (List.range 64).foldl (fun m p => m.refreshPort true p) m
  { m with base := m.base.showNest }

/-- The image check ends (R332 steps 5 and 6). -/
def Mod.imageDone (m : Mod) (x : ImageLoad) : Mod :=
  if !m.pl.dieOn || m.pl.take.isSome || m.base.stage ≠ 2 then m
  else
    let b := m.base.wr Reg.CLK_IMG_STATUS F.CLK_IMG_STATUS_img_valid (b2n x.check.valid0 + 2 * b2n x.check.valid1)
    match pickSlot x.check m.pl.imgAct with
    | none =>
      let b := { b with now := max b.now (m.pl.bootAt + 30 * ms + b.bootSlip) }
      { m with base := b.raise { group := 2, bit := 2, sev := 2 } }
    | some other =>
      let b := b.flag Reg.CLK_IMG_STATUS F.CLK_IMG_STATUS_img_fallback other
      let b := { b with now := max b.now (m.pl.bootAt + 18 * ms + b.bootSlip) }
      let m := ({ m with base := b } : Mod).loadImage x
      { m with base := m.base.setStage 3 }

/-- Stage DRAM (R332 step 7): Camtex ports train, the bond logic starts, front cages are switched on. -/
def Mod.toDramStage (m : Mod) : Mod :=
  let m := { m with base := { m.base with now := max m.base.now (m.pl.bootAt + 20 * ms + m.base.bootSlip) } }
  let m := { m with base := m.base.setStage 4 }
  let m := (List.range 8).foldl (fun m k =>
    if m.base.camMay k && m.base.camState k == 0 then m.camTrain k 0#8 else m) m
  m.refreshCages.bondStart

/-- Stage DRAM comes 2 ms after stage LINKS. -/
def Mod.linksDue (m : Mod) : Mod :=
  if m.pl.dieOn && m.base.stage == 3 && decide (m.pl.bootAt + 20 * ms + m.base.bootSlip ≤ m.base.now) then m.toDramStage else m

/-- The DRAM channels finish training (R332 steps 8 and 9, R385): stage WIPE, or fatal for a channel that did not train. -/
def Mod.dramTrained (m : Mod) (ok : List Bool) : Mod :=
  if !m.pl.dieOn || m.pl.take.isSome then m
  else
    let m := if m.base.stage = 3 then m.toDramStage else m
    if m.base.stage ≠ 4 then m
    else
      let small := m.base.rd Reg.GLB_PRODUCT_ID F.GLB_PRODUCT_ID_order_code == 2
      let b := { m.base with now := max m.base.now (m.pl.bootAt + 320 * ms + m.base.bootSlip) }
      let b := (List.range 8).foldl (fun b c =>
        let a := Reg.MEM_CH_STATUS c
        let b := ((b.wr a F.MEM_CH_STATUS_dimm0 1).flag a F.MEM_CH_STATUS_dimm1 (!small)).wr a F.MEM_CH_STATUS_gib (if small then 128 else 256)
        b.flag a F.MEM_CH_STATUS_trained (ok.getD c true)) b
      let bad := (List.range 8).filter (fun c => !ok.getD c true)
      let m := bad.foldl (fun m c => m.channelFail c) { m with base := b }
      if bad.isEmpty then { m with base := m.base.setStage 5 } else m

/-- The wipe or the check of kept tables ends (R100, R332 step 10, R340): READY. -/
def Mod.wipeDone (m : Mod) : Mod :=
  if !m.pl.dieOn || m.pl.take.isSome || m.base.stage ≠ 5 then m
  else
    let b := (List.range 8).foldl (fun b c => b.wr (Reg.MEM_CH_STATUS c) F.MEM_CH_STATUS_self_refresh 0) (m.base.setStage 6)
    let b := if m.pl.keep then b else b.raise { group := 2, bit := 6 }
    let b := if m.pl.warm then b.raise { group := 2, bit := 5 } else b
    let b := match m.pl.dipEvent with
      | some d => b.raise { group := 1, bit := 1, detail := d.minV, detail2 := (d.wait.getD b.now - d.since) / ms }
      | none => b
    let m := { m with base := b, pl := { m.pl with dipEvent := none, keep := false } }
    let m := if m.base.rd Reg.CLK_STATUS F.CLK_STATUS_kept = 1 then m.keepEntries
      else { m with dram := {}, prk := { m.prk with entries := [], guests := [] } }
    { m with prk := { m.prk with planDue := true } }

/-! ### Life cycle, images and calibration (R334, R335, R338, R339) -/

/-- Is a transition allowed (R338), given what token is loaded? -/
def lcAllowed (from' target : Nat) (token : Option Nat) : Bool :=
  match from', target with
  | 0, 1 => token == some 1
  | 0, 2 => token == some 2
  | 1, 2 => true
  | 2, 3 => true
  | 3, 2 => token == some 2
  | f, 4 => decide (f < 4)
  | _, _ => false

/-- A write of CLK_LC_CMD (R338, R339): an allowed transition is committed and a cold reset follows. -/
def Mod.lifecycle (m : Mod) (who : Who) (v : Nat) : Mod :=
  let target := bits v F.CLK_LC_CMD_target
  if bits v F.CLK_LC_CMD_code ≠ Config.lifecycleCode || m.pl.lcNext.isSome || !lcAllowed m.pl.lc target m.pl.token then
    { m with base := m.base.badWrite who }
  else
    let b := (m.base.wr Reg.CLK_LC_STATE F.CLK_LC_STATE_pending 1).raise { group := 2, bit := 4 }
    ({ m with base := b.flush, pl := { m.pl with lcNext := some target, token := none } } : Mod).requestReset true 4

/-- Is an update, a transition or a calibration save in the way (R334)? -/
def Mod.imgBusy (m : Mod) : Bool :=
  m.pl.img.isSome || m.pl.lcNext.isSome || m.base.isSet Reg.CLK_CAL_STATUS F.CLK_CAL_STATUS_busy

/-- A write of CLK_IMG_CTL (R334): go starts an update, whose file the management cores read from the manager's host. -/
def Mod.imgCtl (m : Mod) (v : Nat) : Mod :=
  let a := Reg.CLK_IMG_CTL
  let keep := m.pl.img.isSome
  let b := if keep then m.base
    else (m.base.wr a F.CLK_IMG_CTL_type (v % 4)).wr a F.CLK_IMG_CTL_len_kib (bits v F.CLK_IMG_CTL_len_kib)
  let m := { m with base := b }
  if !bitOf v 2 then m
  else if m.imgBusy then { m with base := m.base.wr a F.CLK_IMG_CTL_result 6 }
  else
    ({ m with base := m.base.wr a F.CLK_IMG_CTL_done 0,
              pl := { m.pl with img := some { kind := v % 4, len := m.base.rd a F.CLK_IMG_CTL_len_kib, smbus := false } } } : Mod).imgPump

/-- An update ends with a result (R334): a good file's slot becomes active for the next reset; a token is loaded, whose
target is a free value (log entry 4). -/
def Mod.imgFinish (m : Mod) (kind result : Nat) : Mod :=
  let a := Reg.CLK_IMG_CTL
  let m := { m with base := (m.base.wr a F.CLK_IMG_CTL_done 1).wr a F.CLK_IMG_CTL_result result, pl := { m.pl with img := none } }
  if result ≠ 0 then m
  else if kind = 0 then
    let n := 1 - m.pl.fwAct
    let v := m.base.rd Reg.CLK_IMG_STATUS F.CLK_IMG_STATUS_fw_valid
    ({ m with pl := { m.pl with fwAct := n },
              base := m.base.wr Reg.CLK_IMG_STATUS F.CLK_IMG_STATUS_fw_valid (putBits v ⟨n, 1⟩ 1) } : Mod).showMirrors
  else if kind = 1 then
    let n := 1 - m.pl.imgAct
    let v := m.base.rd Reg.CLK_IMG_STATUS F.CLK_IMG_STATUS_img_valid
    ({ m with pl := { m.pl with imgAct := n },
              base := m.base.wr Reg.CLK_IMG_STATUS F.CLK_IMG_STATUS_img_valid (putBits v ⟨n, 1⟩ 1) } : Mod).showMirrors
  else if kind = 2 then
    let (n, b) := m.base.fresh
    { m with base := b, pl := { m.pl with token := some ((Config.freeWord n).toNat % 8) } }
  else m

/-- The update that the management cores ran ends (R334); a read that is still out ends for nobody. -/
def Mod.imgDone (m : Mod) (result : Nat) : Mod :=
  match m.pl.img with
  | none => m
  | some x =>
    if x.smbus then m
    else ({ m with tags := m.tags.map (fun t => if t.owner == some .image then { t with owner := some .drained } else t) }
      : Mod).imgFinish x.kind result

/-- A write of CLK_CAL_CTL (R335): every cal field is copied as it stands. -/
def Mod.calSave (m : Mod) (who : Who) (v : Nat) : Mod :=
  if bits v F.CLK_CAL_CTL_code ≠ Config.calCode then { m with base := m.base.badWrite who }
  else if !bitOf v 0 || m.base.isSet Reg.CLK_CAL_STATUS F.CLK_CAL_STATUS_busy then m
  else
    let copy := calRegs.filterMap (fun a =>
      let w := m.base.word a &&& maskWord RegRow.cal a
      if w = 0#32 then none else some (a, w))
    { m with base := (m.base.wr Reg.CLK_CAL_STATUS F.CLK_CAL_STATUS_busy 1).arm .calSave (50 * ms),
             pl := { m.pl with calCopy := copy } }

/-- The copy is complete and checked (R335): the plinth switches to it. -/
def Mod.calSaved (m : Mod) : Mod :=
  if !m.base.isSet Reg.CLK_CAL_STATUS F.CLK_CAL_STATUS_busy then m
  else
    let b := (m.base.wr Reg.CLK_CAL_STATUS F.CLK_CAL_STATUS_busy 0).raise { group := 2, bit := 3 }
    ({ m with base := b, pl := { m.pl with cal := { good := true, words := m.pl.calCopy }, calSaved := true, calCopy := [] } }
      : Mod).showMirrors

/-! ### Block resets (R331) -/

/-- The registers of a span return to their reset entries, but for those that `keep` names; img fields are reloaded. -/
def Mod.resetSpan (m : Mod) (lo size : Nat) (keep : Nat → Bool) : Mod :=
  let inside := fun a => decide (lo ≤ a) && decide (a < lo + size) && !keep a
  let b := { m.base with regs := m.base.regs.filter (fun x => !inside x.1) }
  { m with base := b.loadWords (m.pl.image.filter (fun x => inside x.1)) }

/-- Is a register of this type at the offset? -/
def isReg (n : RegName) (a : Nat) : Bool :=
  match regAt a with
  | some h => h.row.name == n
  | none => false

/-- What a block reset does to the block it names. -/
def Mod.resetBlock (m : Mod) (kind i : Nat) : Mod :=
  match kind with
  | 0 =>
    let m := (List.range 64).foldl (fun m c => m.abort i c false) m
    (m.resetSpan (0x1C00000 + i * 0x10000) 0x10000 (isReg .HOD_CH_MODE)).showHod i
  | 1 => m.restartParkEngine i
  | 2 => m.restartQueueEngine i
  | 3 => m
  | 4 =>
    let m := match (List.range 8).find? (fun k => m.base.camPort k == some i && m.base.camState k != 0) with
      | some k => m.linkReset k 10
      | none => m.portDown i
    m.resetSpan (0xC00000 + i * 0x1000) 0x1000 (fun _ => false)
  | _ => ((m.lrStream i (lrReason 9)).resetSpan (0x2800000 + i * 0x10000) 0x10000 (isReg .FAB_EXCL)).linkReset i 9

/-- Is the named block one that R331 resets: the kind is defined, the index exists, and no unit held under R309? -/
def Mod.blockOk (m : Mod) (kind i : Nat) : Bool :=
  match kind with
  | 0 => decide (i < 16)
  | 1 => decide (i < 4) && !m.pl.parkHeld.contains i
  | 2 => decide (i < 8) && !m.qe.engineHeld.contains i
  | 3 => decide (i < 4) && !m.pl.coreHeld.contains i
  | 4 => decide (i < 64)
  | 5 => decide (i < 8)
  | _ => false

/-- A write of CLK_BLK_RESET (R331). -/
def Mod.blkReset (m : Mod) (v : Nat) : Mod :=
  let a := Reg.CLK_BLK_RESET
  let b := (m.base.wr a F.CLK_BLK_RESET_kind (v % 8)).wr a F.CLK_BLK_RESET_index (bits v F.CLK_BLK_RESET_index)
  let b := if bitOf v 29 then b.wr a F.CLK_BLK_RESET_refused 0 else b
  let m := { m with base := b }
  let kind := v % 8
  let i := bits v F.CLK_BLK_RESET_index
  if !bitOf v 31 || !m.base.isSet a F.CLK_BLK_RESET_done then m
  else if !m.blockOk kind i then { m with base := m.base.wr a F.CLK_BLK_RESET_refused 1 }
  else ({ m with base := (m.base.wr a F.CLK_BLK_RESET_done 0).arm .blockReset ms } : Mod).resetBlock kind i

/-- A block reset is complete (R331). -/
def Base.blkDone (b : Base) : Base := b.wr Reg.CLK_BLK_RESET F.CLK_BLK_RESET_done 1

/-! ### M2 (R33-R35, R341, R342) -/

/-- The held host port (R223). -/
def Base.heldPort (b : Base) : Option Nat :=
  (List.range 64).find? (fun p => b.portRole p == 1 && b.isSet (Reg.PRT_CFG p) F.PRT_CFG_m2_hold)

/-- Do the conditions of R34 hold, but for the keystone's acknowledgement? -/
def Mod.m2May (m : Mod) : Bool :=
  m.pl.dieOn && m.base.stage == 6 && m.pl.take.isNone && m.pl.m2 == 0 && m.pl.parkHold &&
  m.base.heldPort.any (fun p => m.base.rd (Reg.PRT_STATUS p) F.PRT_STATUS_pm == 3) &&
  m.prk.slots.all (fun s => !s.pwrreq) && m.hod.runs.isEmpty && m.hod.starts.isEmpty &&
  m.prk.entries.all (fun e => e.state != 1 && e.state != 6) && m.ord.lines.isEmpty &&
  (List.range 64).all (fun p => m.base.portRole p != 1 || m.base.heldPort == some p ||
    m.base.rd (Reg.PRT_STATUS p) F.PRT_STATUS_pm == 3 || m.base.rd (Reg.PRT_STATUS p) F.PRT_STATUS_pm == 4)

/-- Has the keystone acknowledged the entry (R34, R281): this module's own mirror reads ASLEEP? -/
def Base.m2Acked (b : Base) : Bool :=
  !b.bondOn || (List.range 32).any (fun i => b.isSet (Reg.BND_MEMBER i) F.BND_MEMBER_self &&
    b.rd (Reg.BND_MEMBER i) F.BND_MEMBER_state == 2)

/-- The earliest wake-plan deadline or entry's expiry, as a time-of-day count (R35, R92); 0 for none. -/
def Base.wakeAt (b : Base) : Nat :=
  let l := (b.timers.filter (fun t => match t.key with
    | .batch _ | .promote _ | .minOff _ | .entryExpiry _ => true
    | _ => false)).map Timer.due
  match l with
  | [] => 0
  | x :: xs => cdiv (xs.foldl min x * 32768) sec

/-- M2 entry (R341): the wish goes to the keystone in a bond; with every condition met, hods hold, lines drain, Camtex
ports say sleep, and the wake timer is set. -/
def Mod.m2Entry (m : Mod) : Mod :=
  if !m.m2May then m
  else if !m.base.m2Acked then { m with bnd := { m.bnd with m2ask := true } }
  else
    let m := { m with hod := { m.hod with m2hold := true }, pl := { m.pl with m2 := 1, m2At := m.base.now, m2Wake := none } }
    let m := m.loseRsv (fun _ => true) 4
    let m := (List.range 16).foldl (fun m h => m.showHod h) m.drainAll
    let m := { m with base := m.base.raise { group := 2, bit := 7 } }
    let m := m.cams.foldl (fun m c => m.camSleep c.k) m
    { m with base := m.base.setWord64 Reg.CLK_WAKE_AT m.base.wakeAt }

/-- The tiles that a port has lanes on. -/
def Base.tilesOf (b : Base) (p : Nat) : List Nat := (List.range 32).filter (fun t => (b.portsTouch t).contains p)

/-- The fast clocks stop and DRAM is in self-refresh: M2 (R341 steps 4 and 5). -/
def Mod.m2Sleep (m : Mod) : Mod :=
  let b := ((m.base.stopCore.wr Reg.CLK_STATUS F.CLK_STATUS_core_lock 0).wr Reg.CLK_STATUS F.CLK_STATUS_mgmt_lock 0).wr
    Reg.CLK_STATUS F.CLK_STATUS_dram_lock 0
  let b := b.wr Reg.CLK_STATUS F.CLK_STATUS_mstate 2
  let b := (List.range 8).foldl (fun b c => (b.wr (Reg.MEM_CH_STATUS c) F.MEM_CH_STATUS_self_refresh 1).bump (Reg.MEM_CH_CNT c 3)) b
  let kept := (b.heldPort.map b.tilesOf).getD []
  let b := (List.range 32).foldl (fun b t => if kept.contains t then b else b.wr (Reg.SER_TILE_STATUS t) F.SER_TILE_STATUS_pll_lock 0) b
  { m with base := b, pl := { m.pl with m2 := 2 } }

/-- Everything that M2 held goes on; Camtex ports start training. -/
def Mod.m2Resume (m : Mod) : Mod :=
  let m := { m with hod := { m.hod with m2hold := false }, pl := { m.pl with m2 := 0, m2Wake := none },
                    bnd := { m.bnd with m2ask := false }, prk := { m.prk with planDue := true } }
  let m := (List.range 16).foldl (fun m h => m.showHod h) m
  (List.range 8).foldl (fun m k => if m.base.camMay k && !m.base.camActive k then m.camTrain k 0#8 else m) m

/-- M2 exit (R342), 2 ms after the wake event: the tiles power up, those that were gated too. -/
def Mod.m2Exit (m : Mod) (cause : Nat) : Mod :=
  let b := { m.base with now := m.base.now + 2 * ms }
  let b := (({ b with now := b.now - 1700 * us } : Base).startCore)
  let b := { b with now := b.now + 1700 * us }
  let b := ((b.wr Reg.CLK_STATUS F.CLK_STATUS_core_lock 1).wr Reg.CLK_STATUS F.CLK_STATUS_mgmt_lock 1).wr
    Reg.CLK_STATUS F.CLK_STATUS_dram_lock 1
  let b := (b.wr Reg.CLK_STATUS F.CLK_STATUS_mstate 0).wr Reg.CLK_WAKE F.CLK_WAKE_cause cause
  let on := (List.range 32).filter b.tileEnabled
  let b := (List.range 32).foldl (fun b t =>
    let b := if b.gated t then b.tileUngate t else b
    if on.contains t then b.wr (Reg.SER_TILE_STATUS t) F.SER_TILE_STATUS_pll_lock 1 else b) b
  let b := (List.range 8).foldl (fun b c => b.wr (Reg.MEM_CH_STATUS c) F.MEM_CH_STATUS_self_refresh 0) b
  let m := ({ m with base := b } : Mod).m2Resume
  { m with base := m.base.raise { group := 2, bit := 8 } }

/-- 30 µs after the decision the module is in M2; a wake event that came at or after step 4 takes it out at once (R341). -/
def Mod.m2Due (m : Mod) : Mod :=
  if m.pl.m2 == 1 && decide (m.pl.m2At + 30 * us ≤ m.base.now) then
    let wake := m.pl.m2Wake
    let m := m.m2Sleep
    match wake with
    | some c => m.m2Exit c
    | none => m
  else m

/-- A wake event (R35, R341): before DRAM enters self-refresh it abandons the entry. -/
def Mod.wakeEvent (m : Mod) (cause : Nat) : Mod :=
  if m.pl.m2 = 2 then m.m2Exit cause
  else if m.pl.m2 = 1 then
    if m.base.now < m.pl.m2At + 20 * us then
      let m := m.m2Resume
      { m with base := m.base.raise { group := 2, bit := 9 } }
    else { m with pl := { m.pl with m2Wake := some (m.pl.m2Wake.getD cause) } }
  else m

/-- The wake timer reaches CLK_WAKE_AT (R35). -/
def Mod.wakeTimer (m : Mod) : Mod :=
  let c := m.base.word64 Reg.CLK_WAKE_AT
  if c = 0 || m.pl.m2 = 0 then m
  else ({ m with base := { m.base with now := max m.base.now (cdiv (c * sec) 32768) } } : Mod).m2Due.wakeEvent 3

/-- The held port leaves L1.2 (R35). -/
def Mod.heldPortWake (m : Mod) : Mod :=
  match m.base.heldPort with
  | none => m
  | some p =>
    let m := m.wakeEvent 1
    if m.base.rd (Reg.PRT_STATUS p) F.PRT_STATUS_pm = 3 then
      let b := m.base.wr (Reg.PRT_STATUS p) F.PRT_STATUS_pm 0
      { m with base := b.restartL1 p }
    else m

/-- Another host port starts link training (R35). -/
def Mod.hostTraining (m : Mod) (p : Nat) : Mod :=
  if m.base.portRole p != 1 || m.base.heldPort == some p then m
  else
    let m := m.wakeEvent 2
    if m.base.linkUp p then m else { m with base := m.base.trainPort p }

/-! ### Which links may train (R227, R242, R332, R365) -/

/-- May a port's link train: from stage LINKS, a downstream port from stage DRAM on (R332); its tiles out of test (R242) with their
PLLs locked (R227); no take-down; and an upstream port on T0-T23 with its host's HOST_PERST_k# deasserted (R365)? -/
def Mod.mayTrain (m : Mod) (p : Nat) : Bool :=
  let role := m.base.portRole p
  let ts := m.base.tilesOf p
  decide ((if role = 2 then 4 else 3) ≤ m.base.stage) && decide (m.base.stage ≤ 6) && m.pl.take.isNone &&
  ts.all (fun t => !m.base.inTest t && m.base.isSet (Reg.SER_TILE_STATUS t) F.SER_TILE_STATUS_pll_lock) &&
  (role != 1 || !ts.any (fun t => decide (t < 24)) || m.pl.hostReset.contains (m.base.portPart p))

/-! ### Clocks (R324) -/

/-- The core or management PLL loses lock. -/
def Mod.corePllLoss (m : Mod) : Mod :=
  if !m.base.isSet Reg.CLK_STATUS F.CLK_STATUS_core_lock then m
  else { m with base := (m.base.wr Reg.CLK_STATUS F.CLK_STATUS_core_lock 0).raise { group := 2, bit := 0, sev := 2 } }

/-- The DRAM clock is lost. -/
def Mod.dramClockLoss (m : Mod) : Mod :=
  if !m.base.isSet Reg.CLK_STATUS F.CLK_STATUS_dram_lock then m
  else { m with base := (m.base.wr Reg.CLK_STATUS F.CLK_STATUS_dram_lock 0).raise { group := 2, bit := 1, sev := 2 } }

end Sys2Proof.Machine
end

