-- ==== Sys2Proof/Machine/Power.lean ====
section
/-! DEFINITION. The Swifavis front end (R344-R360): telemetry, input zones and dips, power-up, POWER_GOOD, the run-time
limit, faults, retry, plinth power, cages and temperature. Voltages are in 2 mV and currents in 1 mA. -/

namespace Sys2Proof.Machine

/-- The thresholds of R346, R347 and R349 in 2 mV. -/
def Base.warnV (b : Base) : Nat := 50 * b.rd Reg.PWR_UV_CFG F.PWR_UV_CFG_warn_dv
def Base.resetV (b : Base) : Nat := 50 * b.rd Reg.PWR_UV_CFG F.PWR_UV_CFG_reset_dv
def Base.resumeV (b : Base) : Nat := b.warnV + 50 * b.rd Reg.PWR_UV_CFG F.PWR_UV_CFG_hyst_dv
def Base.ovV (b : Base) : Nat := 50 * b.rd Reg.PWR_OV_CFG F.PWR_OV_CFG_ov_dv
def Base.ovStartV (b : Base) : Nat := b.ovV - 50 * b.rd Reg.PWR_OV_CFG F.PWR_OV_CFG_ov_hyst_dv
/-- 36.0 V, the brown level. -/
def brownV : Nat := 18000

/-- Does a temperature in 1/256 °C, two's complement, reach a level in °C? -/
def tempReaches (t c : Nat) : Bool := decide (t % 65536 < 32768) && decide (256 * c ≤ t % 65536)

/-- The front-end state, and the zone. -/
def Base.feState (b : Base) : Nat := b.rd Reg.PWR_STATUS F.PWR_STATUS_state
def Base.setFe (b : Base) (n : Nat) : Base := b.wr Reg.PWR_STATUS F.PWR_STATUS_state n
def Base.zone (b : Base) : Nat := b.rd Reg.PWR_STATUS F.PWR_STATUS_zone
def Base.pg (b : Base) : Bool := b.isSet Reg.PWR_STATUS F.PWR_STATUS_pg
/-- Is the gate on or ramping: INRUSH, PG_QUAL or ON? -/
def Base.gateOn (b : Base) : Bool := let s := b.feState; decide (1 ≤ s) && decide (s ≤ 3)

/-- An event of the plinth while the die has power. -/
def Mod.plinthEvent (m : Mod) (e : Ev) : Mod := if m.pl.dieOn then { m with base := m.base.raise e } else m

/-! ### Zones and dips (R346, R348) -/

/-- The zone changes: shedding starts or ends (R346, R348). -/
def Mod.setZone (m : Mod) (z : Nat) : Mod :=
  if m.base.zone = z then m
  else
    let m := { m with base := m.base.wr Reg.PWR_STATUS F.PWR_STATUS_zone z, prk := { m.prk with planDue := true } }
    ((List.range 16).foldl (fun m h => m.showHod h) m).refreshCages

/-- A dip is logged (R348): minimum, duration up to `fin`, brown, and whether a supply reset ended it. -/
def Base.logDip (b : Base) (d : Dip) (fin : Nat) (reset : Bool) : Base :=
  let a := Reg.PWR_DIP_LOG
  let b := ((b.wr a F.PWR_DIP_LOG_min_v d.minV).wr a F.PWR_DIP_LOG_dur_ms ((fin - d.since) / ms)).flag a F.PWR_DIP_LOG_brown d.brown
  ((b.flag a F.PWR_DIP_LOG_reset reset).wr a F.PWR_DIP_LOG_valid 1).bump (Reg.PWR_CNT 0)

/-- The brown zone is entered. -/
def Mod.enterBrown (m : Mod) : Mod :=
  (({ m with base := m.base.bump (Reg.PWR_CNT 1) } : Mod).plinthEvent { group := 1, bit := 2, sev := 1 }).setZone 2

/-- A sample meets the zones: a dip starts, goes on, or its 50 ms wait starts over (R346, R348). A zone falls within a dip
and rises only at its end. -/
def Mod.classify (m : Mod) (v : Nat) : Mod :=
  let z := m.base.zone
  if (z = 4 && v < m.base.resetV) || (z = 3 && m.base.ovV < v) then m
  else
    let m := if 3 ≤ z then m.setZone 0 else m
    match m.pl.dip with
    | none =>
      if m.base.warnV ≤ v then m
      else
        let m := { m with pl := { m.pl with dip := some { minV := v, since := m.base.now, brown := decide (v < brownV) } } }
        let m := (m.plinthEvent { group := 1, bit := 0 }).setZone 1
        if v < brownV then m.enterBrown else m
    | some d =>
      let deep := decide (v < brownV) && !d.brown
      let m := if deep then m.enterBrown else m
      let d := { d with minV := min d.minV v, brown := d.brown || deep }
      if m.base.resumeV ≤ v then
        match d.wait with
        | some _ => { m with pl := { m.pl with dip := some d } }
        | none => { m with pl := { m.pl with dip := some { d with wait := some m.base.now } },
                           base := m.base.arm .dipResume (50 * ms) }
      else { m with pl := { m.pl with dip := some { d with wait := none } }, base := m.base.disarm .dipResume }

/-- 50 ms at or above warn_dv + hyst_dv: the dip ends and every shedding action is undone (R348). -/
def Mod.dipEnd (m : Mod) : Mod :=
  match m.pl.dip with
  | none => m
  | some d =>
    let fin := d.wait.getD m.base.now
    let m := { m with base := m.base.logDip d fin false, pl := { m.pl with dip := none } }
    (m.plinthEvent { group := 1, bit := 1, detail := d.minV, detail2 := (fin - d.since) / ms }).setZone 0

/-! ### Power-up (R349-R351) -/

/-- Power-up starts once every condition of R349 holds. -/
def Mod.tryPowerUp (m : Mod) : Mod :=
  let b := m.base
  let warm := tempReaches (b.rd Reg.PWR_MEAS_T F.PWR_MEAS_T_t) (b.rd Reg.PWR_TEMP_CFG F.PWR_TEMP_CFG_temp_warn_c)
  if m.pl.debounced && m.pl.qualified && !b.isSet Reg.PWR_STATUS F.PWR_STATUS_retry_pending && b.feState == 0 && !warm &&
     !b.isSet Reg.PWR_STATUS F.PWR_STATUS_gate_full && !b.armed .gateOff then
    { m with base := ((b.setFe 1).wr Reg.PWR_STATUS F.PWR_STATUS_limit 1).arm .inrush (60 * ms) }
  else m

/-- The start window of R349 is kept or broken by a sample. -/
def Mod.qualify (m : Mod) (v : Nat) : Mod :=
  if m.base.resumeV ≤ v && v ≤ m.base.ovStartV then
    if m.pl.qualified then m else { m with base := m.base.armIfIdle .inputQual (50 * ms) }
  else { m with base := m.base.disarm .inputQual, pl := { m.pl with qualified := false } }

/-- A converter's reading by the gain and offset of its calibration word, in the units of its measurement register; `up` rounds an inexact
product up (log entry 33). None lies outside the register. -/
def sensed (w x up : Nat) : Option Nat :=
  let g := x * (w % 65536)
  let y := g / 2 ^ 15 + (if g % 2 ^ 15 = 0 then 0 else up)
  let o := w / 65536
  let z := y + o
  if o < 32768 then (if z < 65536 then some z else none)
  else if 65536 ≤ z ∧ z < 131072 then some (z - 65536) else none

/-- A telemetry sample (R360), at the next 100 µs step: the four values in one step, energy, peak, cage currents, zone. What the spec does
not state of them is free: how an inexact value is rounded, and one that its register cannot hold. -/
def Mod.telemetry (m : Mod) (v i t : Nat) (cages : List Nat) : Mod :=
  let b := { m.base with now := (m.base.now / (100 * us) + 1) * (100 * us) }
  let (n, b) := b.fresh
  let (k, b) := b.fresh
  let free := (Config.freeWord n).toNat
  let odd := (Config.freeWord k).toNat
  let v := (sensed (b.word Reg.PWR_CAL_V).toNat (v % 65536) (free / 2 % 2)).getD (odd % 65536)
  let i := (sensed (b.word Reg.PWR_CAL_I).toNat (i % 65536) (free / 4 % 2)).getD (odd / 65536)
  let p := if v * i / 10000 + 1 < 65536 then v * i / 10000 + (if v * i % 10000 = 0 then 0 else free / 8 % 2) else free / 65536
  let uj := if v * i % 5000 = 2500 then v * i / 5000 + free % 2 else (v * i + 2500) / 5000
  let b := ((b.wr Reg.PWR_MEAS_V F.PWR_MEAS_V_v v).wr Reg.PWR_MEAS_I F.PWR_MEAS_I_i i).wr Reg.PWR_MEAS_P F.PWR_MEAS_P_p p
  let b := b.wr Reg.PWR_MEAS_T F.PWR_MEAS_T_t t
  let b := (b.setWord64 Reg.PWR_ENERGY (b.word64 Reg.PWR_ENERGY + uj)).occ 0x340 0 none uj
  let b := b.wr Reg.PWR_PEAK F.PWR_PEAK_i (max i (b.rd Reg.PWR_PEAK F.PWR_PEAK_i))
  let b := (List.range 8).foldl (fun b c =>
    match cages[c]? with
    | some x => if b.rd (Reg.PWR_CAGE c) F.PWR_CAGE_i = x % 65536 then b else b.wr (Reg.PWR_CAGE c) F.PWR_CAGE_i x
    | none => b) b
  let hot := tempReaches t (b.rd Reg.PWR_TEMP_CFG F.PWR_TEMP_CFG_temp_warn_c)
  let pl := if hot then m.pl else { m.pl with tempWarnAt := none }
  ((({ m with base := b, pl := pl } : Mod).classify v).qualify v).tryPowerUp

/-- The 100 ms of insertion debounce are over (R349). -/
def Mod.debounceEnd (m : Mod) : Mod := ({ m with pl := { m.pl with debounced := true } } : Mod).tryPowerUp

/-- The input has stayed in the start window for 50 ms (R349). -/
def Mod.inputOk (m : Mod) : Mod := ({ m with pl := { m.pl with qualified := true } } : Mod).tryPowerUp

/-- The gate is fully enhanced (R350 step 3), no sooner than the charge time 2,200 µF x V / 4.0 A. -/
def Mod.gateFull (m : Mod) : Mod :=
  if m.base.feState ≠ 1 then m
  else
    let t0 := (m.base.due .inrush).getD m.base.now - 60 * ms
    let charge := m.base.rd Reg.PWR_MEAS_V F.PWR_MEAS_V_v * 1100
    let b := { m.base with now := max m.base.now (t0 + charge) }
    let b := ((b.setFe 2).wr Reg.PWR_STATUS F.PWR_STATUS_gate_full 1).wr Reg.PWR_STATUS F.PWR_STATUS_limit 0
    { m with base := (b.disarm .inrush).arm .pgQual (2 * ms) }

/-- POWER_GOOD asserts after 2 ms of qualification with the limit inactive (R351), and the boot starts. -/
def Mod.powerGood (m : Mod) (cal : CalLoad) : Mod :=
  match m.base.due .pgQual with
  | none => m
  | some t =>
    if m.base.feState ≠ 2 || m.base.isSet Reg.PWR_STATUS F.PWR_STATUS_limit then m
    else
      let b := { m.base with now := max m.base.now t }
      let b := (((b.disarm .pgQual).wr Reg.PWR_STATUS F.PWR_STATUS_pg 1).setFe 3).arm .retryClear (60 * sec)
      let set := if m.pl.calSaved then { m.pl.cal with good := cal.good } else cal
      ({ m with base := b, pl := { m.pl with cal := set } } : Mod).bootDie false false m.pl.cause

/-! ### Turning the load off (R346, R352-R356) -/

/-- A fault is recorded (R353, R354): PWR_FAULT, its time, and the 10 s retry timer. -/
def Base.recordFault (b : Base) (cause v : Nat) : Base :=
  let a := Reg.PWR_FAULT
  let b := ((b.wr a F.PWR_FAULT_cause cause).wr a F.PWR_FAULT_v v).wr a F.PWR_FAULT_valid 1
  ((b.setWord64 Reg.PWR_FAULT_TOD b.tod).wr Reg.PWR_STATUS F.PWR_STATUS_retry_pending 1).arm .retry (10 * sec)

/-- POWER_GOOD falls: the plinth asserts every SHELF_PERST_n# at once and deasserts every SHELF_PWRREQ_n 1 ms later
(R353); the gate turns off now, or 20 µs later. -/
def Mod.loadOff (m : Mod) (state cause : Nat) (atOnce : Bool) : Mod :=
  let slots := m.prk.slots.map (fun (s : Slot) => { s with perst := true })
  let m : Mod := { m with prk := { m.prk with slots := slots } }
  let m := m.dieOff state cause
  let b := if atOnce then m.base.gateOff else m.base.arm .gateOff (20 * us)
  { m with base := (m.prk.slots.filter Slot.pwrreq).foldl (fun b s => b.arm (.pwrreqRelease s.n) ms) b }

/-- A fault turns the load off (R353). -/
def Mod.powerFault (m : Mod) (code v cnt : Nat) (e : Ev) (atOnce : Bool) : Mod :=
  let b := ((m.base.raise { e with group := 1, sev := 2 }).bump (Reg.PWR_CNT cnt)).recordFault code v
  ({ m with base := b } : Mod).loadOff 4 6 atOnce

/-- The present voltage sample. -/
def Base.sampleV (b : Base) : Nat := b.rd Reg.PWR_MEAS_V F.PWR_MEAS_V_v

/-- The input is below reset_dv (R346, R348): a dip ends here, its event waits for READY, and the load goes off. -/
def Mod.supplyReset (m : Mod) (v : Nat) : Mod :=
  if m.base.resetV ≤ v then m
  else
    let m := match m.pl.dip with
      | none => m
      | some d =>
        let d := { d with minV := min d.minV v, wait := some m.base.now }
        { m with base := (m.base.logDip d m.base.now true).disarm .dipResume,
                 pl := { m.pl with dip := none, dipEvent := some d } }
    let m := { m with base := (m.base.disarm .inputQual).wr Reg.PWR_STATUS F.PWR_STATUS_zone 4,
                      pl := { m.pl with qualified := false } }
    if m.base.gateOn then m.loadOff 0 1 false else m

/-- The input is above ov_dv (R346, R353). -/
def Mod.overVoltage (m : Mod) (v : Nat) : Mod :=
  if v ≤ m.base.ovV then m
  else
    let m := { m with base := (m.base.disarm .inputQual).wr Reg.PWR_STATUS F.PWR_STATUS_zone 3,
                      pl := { m.pl with qualified := false } }
    if m.base.gateOn then m.powerFault 4 v 6 { group := 1, bit := 6 } false else m

/-- The presence pins change (R349, R354, R355): a break turns the load off with no fault; both made is a new insertion. -/
def Mod.presence (m : Mod) (pa pb : Bool) : Mod :=
  let a := Reg.PWR_STATUS
  let was := m.base.isSet a F.PWR_STATUS_present_a && m.base.isSet a F.PWR_STATUS_present_b
  let m := { m with base := (m.base.flag a F.PWR_STATUS_present_a pa).flag a F.PWR_STATUS_present_b pb }
  if was && !(pa && pb) then
    let m := { m with base := m.base.disarm .debounce, pl := { m.pl with debounced := false } }
    if m.base.gateOn then m.loadOff 0 6 false else m
  else if !was && pa && pb then
    let b := (m.base.wr Reg.PWR_RETRY F.PWR_RETRY_used 0).arm .debounce (100 * ms)
    let b := if b.feState = 5 || b.feState = 6 then b.setFe 0 else b
    { m with base := b, pl := { m.pl with debounced := false } }
  else m

/-- The inrush timer expires before step 3 of R350. -/
def Mod.inrushEnd (m : Mod) : Mod :=
  if m.base.feState ≠ 1 then m else m.powerFault 2 m.base.sampleV 4 { group := 1, bit := 4, detail := 1 } true

/-- The run-time limit engages (R351, R352). -/
def Mod.limitOn (m : Mod) : Mod :=
  if !m.base.isSet Reg.PWR_STATUS F.PWR_STATUS_gate_full || m.base.isSet Reg.PWR_STATUS F.PWR_STATUS_limit || !m.base.gateOn then m
  else
    let b := (m.base.wr Reg.PWR_STATUS F.PWR_STATUS_limit 1).bump (Reg.PWR_CNT 2)
    let b := ((b.disarm .limitClear).disarm .pgQual).arm .faultTimer (5 * ms - m.pl.faultAcc)
    ({ m with base := b, pl := { m.pl with limitSince := some b.now } } : Mod).plinthEvent { group := 1, bit := 3 }

/-- The run-time limit releases (R351, R352). -/
def Mod.limitOff (m : Mod) : Mod :=
  match m.pl.limitSince with
  | none => m
  | some t =>
    let b := ((m.base.wr Reg.PWR_STATUS F.PWR_STATUS_limit 0).disarm .faultTimer).arm .limitClear (2 * ms)
    let b := if b.feState = 2 then b.arm .pgQual (2 * ms) else b
    { m with base := b, pl := { m.pl with limitSince := none, faultAcc := m.pl.faultAcc + (m.base.now - t) } }

/-- The limit has stayed released for 2 ms (R352). -/
def Mod.limitClear (m : Mod) : Mod := { m with pl := { m.pl with faultAcc := 0 } }

/-- The fault timer reaches 5 ms. -/
def Mod.faultEnd (m : Mod) : Mod :=
  if m.base.gateOn then m.powerFault 1 m.base.sampleV 3 { group := 1, bit := 4 } false else m

/-- The current reaches 40 A (R353). -/
def Mod.fuseTrip (m : Mod) : Mod :=
  if m.base.gateOn then m.powerFault 3 m.base.sampleV 5 { group := 1, bit := 5 } true else m

/-- 20 µs after POWER_GOOD fell the gate is off. -/
def Mod.gateOffEnd (m : Mod) : Mod := ({ m with base := m.base.gateOff } : Mod).tryPowerUp

/-! ### Retry and commands (R343, R349, R354) -/

/-- The retry timer ends (R354). -/
def Mod.retryEnd (m : Mod) : Mod :=
  let a := Reg.PWR_RETRY
  let b := m.base.wr Reg.PWR_STATUS F.PWR_STATUS_retry_pending 0
  let used := b.rd a F.PWR_RETRY_used
  let count := b.rd a F.PWR_RETRY_count
  if b.feState ≠ 4 then ({ m with base := b } : Mod).tryPowerUp
  else if count ≠ 0 && count ≤ used then { m with base := b.setFe 5 }
  else ({ m with base := ((b.wr a F.PWR_RETRY_used (used + 1)).bump (Reg.PWR_CNT 7)).setFe 0 } : Mod).tryPowerUp

/-- POWER_GOOD has stayed asserted for 60 s. -/
def Base.retryCountClear (b : Base) : Base := b.wr Reg.PWR_RETRY F.PWR_RETRY_used 0

/-- A write of PWR_CTL (R349, R354). -/
def Mod.pwrCtl (m : Mod) (who : Who) (v : Nat) : Mod :=
  if bits v F.PWR_CTL_code ≠ 0x5F0A then { m with base := m.base.badWrite who }
  else
    let b := if bitOf v 0 && m.base.feState == 6 then m.base.setFe 0 else m.base
    let b := if bitOf v 1 then b.wr Reg.PWR_RETRY F.PWR_RETRY_used 0 else b
    let b := if bitOf v 1 && b.feState == 5 then b.setFe 0 else b
    ({ m with base := b } : Mod).tryPowerUp

/-! ### Plinth power (R344, R355, R360) -/

/-- The auxiliary tap falls below 20.0 V: the energy accumulator is saved. -/
def Mod.auxLow (m : Mod) : Mod := { m with pl := { m.pl with energySaved := m.base.word64 Reg.PWR_ENERGY } }

/-- The plinth loses power (R344): only its non-volatile storage stays (R321, R345, R360), and what arrives on pins is
signalled again. -/
def Mod.plinthLoss (m : Mod) : Mod :=
  let keep := [Reg.GLB_PRODUCT_ID, Reg.GLB_SERIAL, Reg.GLB_SERIAL + 4, Reg.PWR_RETRY, Reg.PWR_FAULT, Reg.PWR_FAULT_TOD,
               Reg.PWR_FAULT_TOD + 4]
  let pend := m.base.rd Reg.PWR_STATUS F.PWR_STATUS_retry_pending
  let b : Base := { regs := m.base.regs.filter (fun x => keep.contains x.1), freeCtr := m.base.freeCtr, out := m.base.out }
  let pl : Plinth := { powered := false, lc := m.pl.lcNext.getD m.pl.lc, cal := m.pl.cal, calSaved := m.pl.calSaved,
                       fwAct := m.pl.fwAct, imgAct := m.pl.imgAct, energySaved := m.pl.energySaved }
  { base := if pend = 0 then b else b.wr Reg.PWR_STATUS F.PWR_STATUS_retry_pending pend, pl := pl }

/-- The plinth receives power (R355, R360): a pending retry starts a full timer again. -/
def Mod.plinthUp (m : Mod) : Mod :=
  if m.pl.powered then m
  else
    let b := m.base.setWord64 Reg.PWR_ENERGY m.pl.energySaved
    let b := if b.isSet Reg.PWR_STATUS F.PWR_STATUS_retry_pending then (b.setFe 4).arm .retry (10 * sec) else b
    ({ m with base := b, pl := { m.pl with powered := true } } : Mod).showMirrors

/-! ### Cages and temperature (R357-R359, R366) -/

/-- A cage draws above 5.0 A for 1 ms. -/
def Mod.cageOver (m : Mod) (c : Nat) : Mod :=
  if !m.base.isSet (Reg.PWR_CAGE c) F.PWR_CAGE_on then m
  else
    let b := (m.base.wr (Reg.PWR_CAGE c) F.PWR_CAGE_fault 1).raise { group := 1, bit := 7, sev := 1, detail := c }
    ({ m with base := b, pl := m.pl.setCage { (m.pl.cage c) with tripped := true } } : Mod).refreshCages

/-- ModPrsL changes. -/
def Mod.cagePresence (m : Mod) (c : Nat) (present : Bool) : Mod :=
  ({ m with pl := m.pl.setCage { (m.pl.cage c) with present := present } } : Mod).refreshCages

/-- ResetL is released: the port in the cage may train. -/
def Mod.cageReleased (m : Mod) (c : Nat) : Mod :=
  let m := { m with pl := m.pl.setCage { (m.pl.cage c) with released := true } }
  if m.base.camTile (24 + c) then
    (if m.base.camMay c && m.base.camState c == 0 then m.camTrain c 0#8 else m)
  else if m.base.inTest (24 + c) || !m.base.isSet (Reg.SER_TILE_STATUS (24 + c)) F.SER_TILE_STATUS_pll_lock then m
  else m.tileTrain (24 + c)

/-- IntL asserts (R366). -/
def Base.cageInt (b : Base) (c : Nat) : Base := b.raise { group := 1, bit := 10, detail := c }

/-- A write of PWR_CAGE (R357). -/
def Mod.cageWrite (m : Mod) (c v : Nat) : Mod :=
  let a := Reg.PWR_CAGE c
  let b := m.base.wr a F.PWR_CAGE_en (v % 2)
  let b := if bitOf v 1 then b.wr a F.PWR_CAGE_fault 0 else b
  let y := m.pl.cage c
  ({ m with base := b, pl := m.pl.setCage { y with tripped := y.tripped && !bitOf v 0 } } : Mod).refreshCages

/-- A reading reaches temp_warn_c (R358): at most once per minute while it stays there, which the samples show. -/
def Mod.tempWarn (m : Mod) (t : Nat) : Mod :=
  let soon := match m.pl.tempWarnAt with
    | some x => decide (m.base.now < x + 60 * sec)
    | none => false
  if !tempReaches t (m.base.rd Reg.PWR_TEMP_CFG F.PWR_TEMP_CFG_temp_warn_c) || soon then m
  else ({ m with pl := { m.pl with tempWarnAt := some m.base.now } } : Mod).plinthEvent { group := 1, bit := 8 }

/-- A reading reaches temp_crit_c (R359): the take-down of R298, then the gate turns off with fault TEMP. -/
def Mod.tempCrit (m : Mod) (t : Nat) : Mod :=
  if !tempReaches t (m.base.rd Reg.PWR_TEMP_CFG F.PWR_TEMP_CFG_temp_crit_c) || !m.base.gateOn then m
  else
    let b := (m.base.raise { group := 1, bit := 9, sev := 2 }).recordFault 5 m.base.sampleV
    let m := { m with base := b }
    if m.pl.dieOn then m.requestDown { cold := true, cause := 6, off := 2, fatal := true } else m.loadOff 4 6 true

/-! ### Configuration writes (R347) -/

/-- A threshold field takes a value in its range; the flag says whether it was refused. -/
def Base.rangeField (x : Base × Bool) (a : Nat) (f : Fld) (v lo hi : Nat) : Base × Bool :=
  if lo ≤ v ∧ v ≤ hi then (x.1.wr a f v, x.2) else (x.1, true)

/-- A write of PWR_UV_CFG. -/
def Base.uvWrite (b : Base) (who : Who) (v : Nat) : Base :=
  let a := Reg.PWR_UV_CFG
  let x := Base.rangeField (b, false) a F.PWR_UV_CFG_warn_dv (bits v F.PWR_UV_CFG_warn_dv) 360 450
  let x := Base.rangeField x a F.PWR_UV_CFG_reset_dv (bits v F.PWR_UV_CFG_reset_dv) 300 350
  let x := Base.rangeField x a F.PWR_UV_CFG_hyst_dv (bits v F.PWR_UV_CFG_hyst_dv) 5 30
  if x.2 then x.1.badWrite who else x.1

/-- A write of PWR_OV_CFG. -/
def Base.ovWrite (b : Base) (who : Who) (v : Nat) : Base :=
  let a := Reg.PWR_OV_CFG
  let x := Base.rangeField (b, false) a F.PWR_OV_CFG_ov_dv (bits v F.PWR_OV_CFG_ov_dv) 760 800
  let x := Base.rangeField x a F.PWR_OV_CFG_ov_hyst_dv (bits v F.PWR_OV_CFG_ov_hyst_dv) 10 40
  if x.2 then x.1.badWrite who else x.1

/-- A write of PWR_TEMP_CFG: a critical temperature at or below the warning temperature is ignored. -/
def Base.tempWrite (b : Base) (v : Nat) : Base :=
  let a := Reg.PWR_TEMP_CFG
  let b := b.wr a F.PWR_TEMP_CFG_temp_warn_c (bits v F.PWR_TEMP_CFG_temp_warn_c)
  let c := bits v F.PWR_TEMP_CFG_temp_crit_c
  if c ≤ b.rd a F.PWR_TEMP_CFG_temp_warn_c then b else b.wr a F.PWR_TEMP_CFG_temp_crit_c c

end Sys2Proof.Machine
end

