-- ==== Sys2Proof/Machine/Regs.lean ====
section
/-! DEFINITION. Register accesses: which accesses reach a register (R16, R327), the check of the accessor's guard
(R138, R141), who sees what (R380-R382), the access codes (R13), what a read returns where the register shows what an
engine holds, and what a write sets off where a register has a rule of its own. -/

namespace Sys2Proof.Machine

/-! ### Who makes the access -/

/-- The guard that checks an accessor (R138); SMBus accesses travel as those of management core 0 (R369). -/
def whoGuard (w : Who) : Nat :=
  match w with
  | .host p => 24 + p.val
  | .smbus => 20
  | .mgmt c => 20 + c.val
  | .debug => 40
  | .keystone k _ => 32 + k.val

/-- The partition that makes an access, if it is a host (R382). -/
def whoPart (w : Who) : Option Nat :=
  match w with
  | .host p => some p.val
  | _ => none

/-- The path code of GLB_ACCESSOR; the keystone function runs on management cores. -/
def whoPath (w : Who) : Nat :=
  match w with
  | .host _ => 0
  | .smbus => 1
  | .mgmt _ => 2
  | .debug => 3
  | .keystone _ _ => 2

/-- Has the accessor the manager's visibility (R380)? -/
def Base.managerView (b : Base) (w : Who) : Bool :=
  match w with
  | .host p => p.val == b.manager
  | _ => true

/-- An access to the control window as its guard sees it (R139, R141). An access that belongs to no slice shows slice 0 (DESIGN CHOICE, log
entry 40). -/
def Base.ctlAccess (b : Base) (w : Who) (off len : Nat) (pasid : Option Nat) (wr : Bool) : Access :=
  match w with
  | .host p => b.hostAccess p.val (ctlAddr off) len pasid (!wr) wr
  | .keystone _ path => { space := 0, addr := ctlAddr off, len := len, rd := !wr, wr := wr, secure := true, ident := 0x3E,
                          badKs := !(List.range 4).any (fun i => b.keystone i == some path.val) }
  | _ => { space := 0, addr := ctlAddr off, len := len, rd := !wr, wr := wr, secure := true, ident := whoGuard w }

/-! ### Accesses that hang (R327) -/

/-- Is the register in the block that CLK_BLK_RESET is resetting (R331)? The engines of kinds 1 to 3 have no registers of
their own. -/
def Base.inBlockReset (b : Base) (off : Nat) : Bool :=
  let a := Reg.CLK_BLK_RESET
  let i := b.rd a F.CLK_BLK_RESET_index
  let within := fun (lo size : Nat) => decide (lo ≤ off) && decide (off < lo + size)
  !b.isSet a F.CLK_BLK_RESET_done &&
  (match b.rd a F.CLK_BLK_RESET_kind with
   | 0 => within (0x1C00000 + i * 0x10000) 0x10000
   | 4 => within (0xC00000 + i * 0x1000) 0x1000
   | 5 => within (0x2800000 + i * 0x10000) 0x10000
   | _ => false)

/-- Does an access to a register hang, because its domain is stopped, not initialised or in reset (R327)? In start-up: every
register of the die before the clocks run, the lanes and Camtex links before stage LINKS, the DRAM channels before stage
DRAM, and for a host all of BAR0 before stage DRAM (R332). The plinth registers have their own clock. -/
def Base.hangs (b : Base) (w : Who) (off : Nat) : Bool :=
  let st := b.stage
  let pwr := decide (0x300000 ≤ off) && decide (off < 0x400000)
  b.inBlockReset off ||
  (!pwr && !b.coreOn) ||
  (decide (st < 3) && (decide (0x800000 ≤ off) && decide (off < 0xC00000) || decide (0x2800000 ≤ off) && decide (off < 0x2C00000))) ||
  (decide (st < 4) && (decide (0x3000000 ≤ off) && decide (off < 0x3100000) || (whoPart w).isSome))

/-! ### Visibility (R198, R380) -/

/-- What an accessor may do with a register it reaches. -/
inductive Sight where
  | full
  | readOnly
  /-- Hidden from the accessor (R380): reads zero, and a host's write is reported (R382). -/
  | hidden
  /-- Not there: a register that does not apply (R183, R198, and the PRT rules): reads zero, writes are ignored. -/
  | absent
  deriving DecidableEq, Repr

/-- Does a register apply: the port has its role, the slice has the queue pair (R183)? -/
def Base.applies (b : Base) (h : RegHit) : Bool :=
  match h.row.name with
  | .PRT_CTL | .PRT_CPL_TO | .PRT_SLOT => b.portRole h.i1 == 2
  | .PRT_PM | .PRT_MC | .PRT_LATE_LOG | .PRT_LATE_INFO => b.portRole h.i1 == 1 || b.portRole h.i1 == 2
  | .PRT_FC_ADV | .PRT_CNT => b.portRole h.i1 != 0 && b.portRole h.i1 != 4
  | .SLC_SQ_DB | .SLC_CQ_DB | .SLC_QP_SQ_BASE | .SLC_QP_CQ_BASE | .SLC_QP_CFG | .SLC_QP_IRQ | .SLC_QP_STATUS | .SLC_QP_PTR =>
    decide (h.i2 < b.qpCount h.i1)
  | _ => true

/-- What an accessor may do with the register at an offset (R198, R380). -/
def Base.sight (b : Base) (w : Who) (off : Nat) (h : RegHit) : Sight :=
  if 0x2400000 ≤ off ∧ off < 0x2800000 then
    let s := (off - 0x2400000) / 0x1000
    let mine := match whoPart w with
      | some p => b.sliceLive s && b.slicePart s == p
      | none => false
    if b.managerView w then
      if b.sliceLive s then (if b.applies h then .full else .absent)
      else if h.row.name == .SLC_STATE then .full else .absent
    else if mine then (if b.applies h then .full else .absent)
    else .hidden
  else if b.managerView w then (if b.applies h then .full else .absent)
  else if off < 0x800000 then .readOnly
  else .hidden

/-! ### What registers show (the ro fields that follow an engine) -/

/-- GiB, rounded up. -/
def ceilGib (n : Nat) : Nat := (n + 2 ^ 30 - 1) / 2 ^ 30

/-- The word of PRK_SHELF_STATE: state and failures stand in the register; the rest follows the entries. -/
def Mod.shelfStateWord (m : Mod) (n : Nat) : Nat :=
  let v := (m.base.word (Reg.PRK_SHELF_STATE n)).toNat
  putBits (putBits v F.PRK_SHELF_STATE_top_class ((m.prk.topClass n).getD 0)) F.PRK_SHELF_STATE_eligible (b2n (m.eligible n))

/-- The word of PRK_PLAN_STATE. -/
def Mod.planStateWord (m : Mod) : Nat :=
  let waiting := ((List.range 56).filter (fun n => m.base.slotState n == 1)).length
  match m.candidates with
  | n :: _ => n + 2 ^ 6 + 2 ^ 8 * waiting
  | [] => 2 ^ 8 * waiting

/-- The word of a queue's SCH_Q_DEPTH. Whether a head meets R64 hangs on the credits of the link partner, which are not part
of the module: no_head is a free value while frames are queued (log entry 4). -/
def Mod.queueDepth (m : Mod) (q : Nat) : Mod × Nat :=
  let n := m.sw.queueBytes q
  let red := match m.sw.headFrame q (fun _ => true) with
    | some f => m.colour f.meter f.bytes == 2
    | none => false
  let w := n + 2 ^ 27 * b2n red + 2 ^ 28 * b2n (m.sw.qst q).due.isSome
  if (m.sw.queue q).isEmpty then (m, w)
  else
    let (i, b) := m.base.fresh
    ({ m with base := b }, w + 2 ^ 29 * ((Config.freeWord i).toNat % 2))

/-- The free resources that slice 0's page shows (R183, R198). -/
def Base.poolWord (b : Base) (n : RegName) : Nat :=
  match n with
  | .SLC_POOL_RES => (4096 - b.qpRuns.foldl (fun n x => n + x.2) 0) + 2 ^ 13 * b.freeChans.length
  | .SLC_POOL_METER => 4096 - b.meterRuns.foldl (fun n x => n + x.2) 0
  | .SLC_POOL_QUOTA => b.quotaTotal % 4096 + 2 ^ 12 * ((b.quotaTotal - b.quotaGiven) % 4096)
  | .SLC_POOL_SLOTS => ((List.range 1024).filter (fun s => b.sliceState s == 0)).length +
      2 ^ 11 * ((List.range 1024).filter (fun s => b.sliceState s == 7)).length
  | _ => 0

/-- The 32-bit word that a register shows, in a read by an accessor. -/
def Mod.showWord (m : Mod) (w : Who) (off : Nat) (h : RegHit) : Mod × Nat :=
  let b := m.base
  let raw := (b.word off).toNat &&& (2 ^ 32 - 1 - (h.row.wo >>> (32 * h.word)) % 2 ^ 32)
  let half := fun (v : Nat) => if h.word = 0 then v % 2 ^ 32 else v / 2 ^ 32 % 2 ^ 32
  let i := h.i1
  match h.row.name with
  | .GLB_ACCESSOR => (m, (whoPart w).getD 0 + 2 ^ 3 * b2n (b.managerView w) + 2 ^ 4 * whoPath w)
  | .PMC_OVF => (m, ((List.range 32).filter (fun j => b.isSet (Reg.PMC_CNT (32 * i + j)) F.CNT_ovf)).foldl (fun n j => n + 2 ^ j) 0)
  | .CLK_TOD => (m, half b.tod)
  | .CLK_NS => (m, half b.ns)
  | .SCH_NOW => (m, half b.tick)
  | .SCH_Q_DEPTH => m.queueDepth i
  | .BUF_SHARED => (m, m.sw.sharedSize)
  | .BUF_SHARED_USE => (m, m.sw.sharedUse)
  | .BUF_MIRROR_USE => (m, m.sw.mirrorUse)
  | .BUF_USE => (m, m.sw.use i + 2 ^ 20 * b2n (decide (tget m.sw.gmin i < m.sw.use i)))
  | .PRK_FREE => (m, m.freeGranules)
  | .PRK_LIVE => (m, m.prk.entries.length)
  | .PRK_GUEST => (m, putBits raw F.PRK_GUEST_use_gib (ceilGib (4096 * m.prk.guests.foldl (fun n g => n + runSize g.grans) 0)))
  | .PRK_LEDGER_USE => (m, putBits (putBits 0 F.PRK_LEDGER_USE_watts m.ledgerUse) F.PRK_LEDGER_USE_releasing m.releasing)
  | .PRK_PLAN_STATE => (m, m.planStateWord)
  | .PRK_SHELF_STATE => (m, m.shelfStateWord i)
  | .PRK_SHELF_LIVE => (m, (m.prk.live i).length)
  | .PRK_SHELF_GRAN => (m, (m.prk.entries.filter (fun e => e.shelf == i)).foldl (fun n e => n + runSize e.grans) 0)
  | .PRK_SHELF_WAIT => (m, if b.slotState i = 1 then (b.now - (m.prk.slot i).since) / sec else 0)
  | .HOD_STATUS => (m, putBits raw F.HOD_STATUS_pending ((List.range 64).filter (fun c => b.chState i c == 1)).length)
  | .GRD_CFG => (m, (if 24 ≤ i ∧ i < 32 then raw % 2 else 0) + 2 * b2n (checksIdentity i))
  | .GRD_STATUS => (m, putBits raw F.GRD_STATUS_stale (b2n (b.stale i)))
  | .GRD_RULE_ATTR => (m, putBits raw F.GRD_RULE_ATTR_bad (b2n (b.ruleBad i h.i2)))
  | .SLC_QUOTA => (m, putBits raw F.SLC_QUOTA_use_gib (ceilGib (m.quotaUse i)))
  | .SLC_POOL_RES | .SLC_POOL_METER | .SLC_POOL_QUOTA | .SLC_POOL_SLOTS => (m, b.poolWord h.row.name)
  | .BND_HOLD => (m, m.holdUsed)
  | .BND_ORPHAN_CNT => (m, (m.prk.guests.filter Guest.orphan).length)
  | _ => (m, raw)

/-- A read of one 32-bit word has its side effects (R61, R135, R136) and returns its value; `wide` when it is the lower half
of a 64-bit read, which latches nothing. -/
def Mod.readWord (m : Mod) (w : Who) (off : Nat) (wide : Bool) : Mod × Nat :=
  match regAt off with
  | none => (m, 0)
  | some h =>
    match m.base.sight w off h with
    | .hidden | .absent => (m, 0)
    | _ =>
      if h.row.name == .SLC_RSV_LR then
        let r := m.ord.rsv h.i1
        if h.word = 1 then (m, r.latch.toNat)
        else
          let (m, v) := m.loadReserved w h.i1
          ({ m with ord := m.ord.setRsv { m.ord.rsv h.i1 with latch := BitVec.ofNat 32 (v / 2 ^ 32) } }, v % 2 ^ 32)
      else if h.row.name == .SLC_RSV_SC then m.conditionalStore w h.i1
      else if isCounter h.row.name && !wide then
        if h.word = 0 then
          let hi := m.base.word (off + 4)
          ({ m with base := { m.base with latches := m.base.latches.set (off + 4) hi } }, (m.base.word off).toNat)
        else
          match m.base.latches.lookup off with
          | some v => ({ m with base := { m.base with latches := m.base.latches.filter (fun x => x.1 != off) } }, v.toNat)
          | none => (m, (m.base.word off).toNat)
      else m.showWord w off h

/-! ### Writes -/

/-- The word that the access codes of R13 give a write: rw bits take the value, w1c bits written as 1 clear, w1s bits set,
all others stand. -/
def codedWord (h : RegHit) (old v : Nat) : Nat :=
  let part := fun (mask : Nat) => mask >>> (32 * h.word) % 2 ^ 32
  let rw := part h.row.rw
  let kept := old &&& (2 ^ 32 - 1 - rw)
  let w := kept ||| (v &&& rw)
  let w := w &&& (2 ^ 32 - 1 - (v &&& part h.row.w1c))
  w ||| (v &&& part h.row.w1s)

/-- The plain write of a register word (R13). -/
def Base.codedWrite (b : Base) (off : Nat) (h : RegHit) (v : Nat) : Base :=
  b.setWord off (BitVec.ofNat 32 (codedWord h (b.word off).toNat v))

/-- The plain write of a log's valid word: clearing valid clears `more` with it (R151, R304). -/
def Base.logClear (b : Base) (off : Nat) (h : RegHit) (v more : Nat) : Base :=
  let b := b.codedWrite off h v
  if bitOf v 31 then b.wr off ⟨more, 1⟩ 0 else b

/-- The misuse event of a write that names a value which it may not (R176, R303). -/
def Base.vectorWrite (b : Base) (w : Who) (s a : Nat) (f : Fld) (v : Nat) : Base :=
  if b.vectorOk s v then b.wr a f v else b.misuse w s

/-- A write of SLC_QP_IRQ (R176-R178): clearing irq_en discards the ring's pending message and stops its time. -/
def Base.qpIrqWrite (b : Base) (w : Who) (s q v : Nat) : Base :=
  let a := Reg.SLC_QP_IRQ s q
  let g := b.qpBase s + q
  let old := b.rd a F.SLC_QP_IRQ_vector
  let b := b.setWord a (BitVec.ofNat 32 (putBits (v % 2 ^ 31) F.SLC_QP_IRQ_vector old))
  let b := b.vectorWrite w s a F.SLC_QP_IRQ_vector (bits v F.SLC_QP_IRQ_vector)
  if b.isSet a F.SLC_QP_IRQ_irq_en then b else (b.dropPending (.qp g)).disarm (.irqTime g)

/-- A write of SLC_VC_SEL (R314, R318, R320). -/
def Base.vcSelWrite (b : Base) (w : Who) (s v x : Nat) : Base :=
  let a := Reg.SLC_VC_SEL s v
  let b := ((b.wr a F.SLC_VC_SEL_event (bits x F.SLC_VC_SEL_event)).wr a F.SLC_VC_SEL_en (bits x F.SLC_VC_SEL_en)).wr a
    F.SLC_VC_SEL_irq_en (bits x F.SLC_VC_SEL_irq_en)
  let b := b.flag a F.SLC_VC_SEL_bad (vcBad (bits x F.SLC_VC_SEL_event))
  let b := if bitOf x 24 then b.wr a F.SLC_VC_SEL_sampled 0 else b
  let b := if bitOf x 12 then b else b.dropPending (.vc s v)
  b.vectorWrite w s a F.SLC_VC_SEL_vector (bits x F.SLC_VC_SEL_vector)

/-- A write of PMC_CFG (R311). -/
def Base.pmcCfgWrite (b : Base) (i v : Nat) : Base :=
  let a := Reg.PMC_CFG i
  let b := b.setWord a (BitVec.ofNat 32 (v % 2 ^ 29))
  b.flag a F.PMC_CFG_bad (pmcBad (bits v F.PMC_CFG_event) (bits v F.PMC_CFG_inst) (bitOf v 17))

/-- A write of a high-water mark's clear bit: the mark takes the present depth (R72). -/
def Mod.markClear (m : Mod) (a : Nat) (f : Fld) (depth v : Nat) : Mod :=
  if bitOf v 31 then { m with base := m.base.wr a f depth } else m

/-- A write of XBR_CTRL: rounds 0 leaves the field; ptr_reset acts at the next cell time. -/
def Mod.xbrWrite (m : Mod) (v : Nat) : Mod :=
  let b := if v % 4 = 0 then m.base else m.base.wr Reg.XBR_CTRL F.XBR_CTRL_rounds (v % 4)
  { m with base := b, sw := { m.sw with ptrReset := m.sw.ptrReset || bitOf v 2 } }

/-- A write of a mirror session: bad shows that its destination is no analysis port. -/
def Base.mirrorWrite (b : Base) (i v : Nat) : Base :=
  let a := Reg.XBR_MIR_CFG i
  let b := b.setWord a (BitVec.ofNat 32 (v % 2 ^ 18))
  b.flag a F.XBR_MIR_CFG_bad (b.portRole (bits v F.XBR_MIR_CFG_dst_port) != 3)

/-- A write of BUF_COMMIT (R53); a go while a commit is pending has no effect. -/
def Mod.bufCommitWrite (m : Mod) (v : Nat) : Mod :=
  let b := if bitOf v 2 then m.base.wr Reg.BUF_COMMIT F.BUF_COMMIT_error 0 else m.base
  let m := { m with base := b }
  if bitOf v 0 && b.isSet Reg.BUF_COMMIT F.BUF_COMMIT_done then
    (let b := b.wr Reg.BUF_COMMIT F.BUF_COMMIT_error 0
     ({ m with base := b } : Mod).bufCommit.afterRelease)
  else m

/-- A write of GRD_COMMIT (R148, R149). -/
def Mod.grdCommitWrite (m : Mod) (v : Nat) : Mod :=
  let b := if bitOf v 2 then m.base.wr Reg.GRD_COMMIT F.GRD_COMMIT_refused 0 else m.base
  let m := { m with base := b }
  if bitOf v 0 then m.commitGo else m

/-- The masks of the entry format's fields (R80), by word. -/
def entryMasks : List Nat :=
  [0xFFFFF0, 0x3FFFFFF, 0xFFFFFFFF, 0xFFFFFFFF, 0xFFFFF, 0x1FFFFFF, 0xFFFFFFFF, 0xFFFFFFFF, 0x1FFFFFFF, 0xFFFFFFFF,
   0xFFFFFFFF, 0xFFF, 0xFFFFFFF, 0xFFF, 0, 0]

/-- PRK_PEEK_IDX.go copies an entry into PRK_PEEK_DATA (R80). What a free entry holds beside its state is a free value (log
entry 4). -/
def Mod.peek (m : Mod) (v : Nat) : Mod :=
  let i := v % 2 ^ 22
  let m := { m with base := m.base.wr Reg.PRK_PEEK_IDX F.PRK_PEEK_IDX_index i }
  if !bitOf v 31 then m
  else
    match m.prk.entry i with
    | some e =>
      let b := (List.range 16).foldl (fun b j => b.setWord (Reg.PRK_PEEK_DATA j) (BitVec.ofNat 32 (fieldAt e.raw (4 * j) 4))) m.base
      { m with base := b.wr Reg.PRK_PEEK_STATUS F.PRK_PEEK_STATUS_done 1 }
    | none =>
      let b := (List.range 16).foldl (fun b j =>
        let (n, b) := Base.fresh b
        b.setWord (Reg.PRK_PEEK_DATA j) (BitVec.ofNat 32 ((Config.freeWord n).toNat &&& entryMasks.getD j 0))) m.base
      { m with base := b.wr Reg.PRK_PEEK_STATUS F.PRK_PEEK_STATUS_done 1 }

/-- A base or limit of a ring may change only while its pair is not enabled and not busy (R161). -/
def Base.ringBaseWrite (b : Base) (w : Who) (off : Nat) (h : RegHit) (v : Nat) : Base :=
  if b.isSet (Reg.SLC_QP_CFG h.i1 h.i2) F.SLC_QP_CFG_enable || b.isSet (Reg.SLC_QP_STATUS h.i1 h.i2) F.SLC_QP_STATUS_busy then
    b.misuse w h.i1
  else b.codedWrite off h v

/-- A write of a meter register (R68, R69). -/
def Mod.meterWrite (m : Mod) (i off : Nat) (h : RegHit) (v : Nat) : Mod :=
  let was := m.base.meterOn i
  ({ m with base := m.base.codedWrite off h v } : Mod).meterChanged i was

/-- A write of SLC_RSV_ADDR takes the slice's reservation away (R137). -/
def Mod.rsvAddrWrite (m : Mod) (off : Nat) (h : RegHit) (v : Nat) : Mod :=
  ({ m with base := m.base.codedWrite off h v } : Mod).loseRsv (fun r => r.slice == h.i1) 6

/-- A write reaches one 32-bit word of a register (R13, R383): the access codes, or the register's own rule. -/
def Mod.wordWrite (m : Mod) (w : Who) (off : Nat) (h : RegHit) (v : Nat) : Mod :=
  let b := m.base
  let plain : Mod := { m with base := b.codedWrite off h v }
  let word := (off, BitVec.ofNat 32 (codedWord h (b.word off).toNat v))
  let i := h.i1
  let j := h.i2
  match h.row.name with
  | .GLB_BADACC => if h.word = 1 then { m with base := b.logClear off h v 1 } else m
  | .GRD_FAULT_INFO => { m with base := b.logClear off h v 28 }
  | .BND_FAR_INFO | .BND_RT_MISS => { m with base := b.logClear off h v 23 }
  | .PMC_CFG => { m with base := b.pmcCfgWrite i v }
  | .PMC_PERIOD => { m with base := b.periodWrite off (Reg.PMC_CNT i) v }
  | .PMC_CNT => { m with base := b.countWrite (Reg.PMC_CNT i) (h.word + 1) v }
  | .SLC_VC_CNT => { m with base := b.countWrite (Reg.SLC_VC_CNT i j) (h.word + 1) v }
  | .SLC_VC_SEL => { m with base := b.vcSelWrite w i j v }
  | .SLC_VC_PERIOD => { m with base := b.periodWrite off (Reg.SLC_VC_CNT i j) v }
  | .PWR_CTL => m.pwrCtl w v
  | .PWR_UV_CFG => { m with base := b.uvWrite w v }
  | .PWR_OV_CFG => { m with base := b.ovWrite w v }
  | .PWR_SHED => plain.refreshCages
  | .PWR_TEMP_CFG => { m with base := b.tempWrite v }
  | .PWR_PEAK => m.markClear off F.PWR_PEAK_i (b.rd Reg.PWR_MEAS_I F.PWR_MEAS_I_i) v
  | .PWR_CAGE => m.cageWrite i v
  | .CLK_RESET => m.clkReset w v
  | .CLK_BLK_RESET => m.blkReset v
  | .CLK_LC_CMD => m.lifecycle w v
  | .CLK_IMG_CTL => m.imgCtl v
  | .CLK_CAL_CTL => m.calSave w v
  | .SER_TX_COEF => { m with base := b.txCoef i v }
  | .SER_PRBS => m.prbsWrite i v
  | .SER_TILE_CTL => m.tileCtl i v
  | .SER_TILE_CFG => m.tileCfg i v
  | .PRT_CTL => m.portCtl w i v
  | .PRT_CPL_TO => m.cplToWrite i v
  | .PRT_SLOT => m.slotWrite i v
  | .XBR_CTRL => m.xbrWrite v
  | .XBR_MIR_CFG => { m with base := b.mirrorWrite i v }
  | .BUF_CFG => if v % 8 = 7 then m else plain.afterRelease
  | .BUF_COMMIT => m.bufCommitWrite v
  | .SCH_Q_HWM => m.markClear off F.SCH_Q_HWM_mark (m.depthAt off) v
  | .SCH_BUF_HWM => m.markClear off F.SCH_BUF_HWM_mark (m.depthAt off) v
  | .BND_HOLD_HWM => m.markClear off F.BND_HOLD_HWM_mark m.holdUsed v
  | .SCH_METER_CIR | .SCH_METER_PIR | .SCH_METER_CBS | .SCH_METER_PBS => m.meterWrite i off h v
  | .PRK_LEDGER_BUDGET => { plain with prk := { plain.prk with planDue := true } }
  | .PRK_PEEK_IDX => m.peek v
  | .PRK_CLASS_EXPIRE => plain.armClass i
  | .PRK_SHELF_CTL => m.shelfCtl i v
  | .HOD_CTL => m.holdWrite i v
  | .HOD_CH_SH_SRC | .HOD_CH_SH_DST | .HOD_CH_SH_COUNT | .HOD_CH_SH_SPACE | .HOD_CH_SH_PASID | .HOD_CH_SH_JOB | .HOD_CH_SH_TAG =>
    m.shadowWrite w i j [word]
  | .HOD_CH_SH_SEAL => m.sealWrite w i j v
  | .HOD_CH_CTL => m.hodCtlWrite w i j v
  | .GRD_RULE_BASE | .GRD_RULE_LIMIT | .GRD_RULE_ATTR | .GRD_RULE_MATCH => { m with base := b.stageRule i j [word] }
  | .GRD_COMMIT => m.grdCommitWrite v
  | .SLC_FENCE => m.fenceGo w i v
  | .SLC_RSV_ADDR => m.rsvAddrWrite off h v
  | .SLC_SQ_DB => m.doorbell w i j (v % 65536)
  | .SLC_CQ_DB => m.doorbell w i (64 + j) (v % 65536)
  | .SLC_EQ_DB => m.doorbell w i 128 (v % 65536)
  | .SLC_QP_SQ_BASE | .SLC_QP_CQ_BASE => { m with base := b.ringBaseWrite w off h v }
  | .SLC_QP_CFG => m.qpCfgWrite w i j v
  | .SLC_QP_IRQ => { m with base := b.qpIrqWrite w i j v }
  | .SLC_EQ_BASE => if b.isSet (Reg.SLC_EQ_CFG i) F.SLC_EQ_CFG_enable then m else plain
  | .SLC_EQ_CFG => m.eqCfgWrite w i v
  | .FAB_CFG => m.fabCfgWrite i v
  | .FAB_TIME => { m with base := plain.base.nestWrite (plain.base.partitions.all (fun p => plain.base.line6 i p)) }
  | .FAB_CTL => m.fabReset i v
  | .BND_TIME => { m with base := plain.base.nestWrite ((List.range 8).all plain.base.line4 && plain.base.line7) }
  | .BND_STREAM_IDX => m.streamPeek v
  | .BND_LEND => m.lendWrite i v
  | .BND_PORT_LEND => m.portLendWrite i v
  | .BND_LEND_CTL => m.lendGo v
  | .BND_RT0 => m.rtCommit w i v
  | .BND_RT1 => m.rtWrite w i 1 v
  | .BND_RT2 => m.rtWrite w i 2 v
  | .BND_RT3 => m.rtWrite w i 3 v
  | .BND_RT4 => m.rtWrite w i 4 v
  | .BND_RT5 => m.rtWrite w i 5 v
  | .BND_RT6 => m.rtWrite w i 6 v
  | .BND_RT7 => m.rtWrite w i 7 v
  | _ => plain

/-- Does a 64-bit write of the register act on both words at once (R119, R145, R316)? -/
def wholeWrite (n : RegName) : Bool :=
  match n with
  | .PMC_CNT | .SLC_VC_CNT | .HOD_CH_SH_SRC | .HOD_CH_SH_DST | .HOD_CH_SH_COUNT | .HOD_CH_SH_TAG | .GRD_RULE_BASE
  | .GRD_RULE_LIMIT | .GRD_RULE_MATCH => true
  | _ => false

/-- A 64-bit write of such a register. -/
def Mod.pairWrite (m : Mod) (w : Who) (off : Nat) (h : RegHit) (v : Nat) : Mod :=
  let lo := (off, BitVec.ofNat 32 (codedWord h (m.base.word off).toNat (v % 2 ^ 32)))
  let hi := (off + 4, BitVec.ofNat 32 (codedWord { h with word := 1 } (m.base.word (off + 4)).toNat (v / 2 ^ 32)))
  match h.row.name with
  | .PMC_CNT | .SLC_VC_CNT => { m with base := m.base.countWrite off 0 v }
  | .GRD_RULE_BASE | .GRD_RULE_LIMIT | .GRD_RULE_MATCH => { m with base := m.base.stageRule h.i1 h.i2 [lo, hi] }
  | _ => m.shadowWrite w h.i1 h.i2 [lo, hi]

/-- A write to any other register than the counter whose lower word is held discards that word (R316). -/
def Base.dropHold (b : Base) (off : Nat) : Base :=
  match b.cntHold with
  | some (a, _) => if off = a || off = a + 4 then b else { b with cntHold := none }
  | none => b

/-- A write of one word reaches the decoder (R381): what visibility takes away is ignored, with an event for a host (R382). -/
def Mod.decodeWrite (m : Mod) (w : Who) (off v : Nat) : Mod :=
  let m := { m with base := m.base.dropHold off }
  match regAt off with
  | none => m
  | some h =>
    match m.base.sight w off h with
    | .full => m.wordWrite w off h v
    | .absent => m
    | _ =>
      match whoPart w with
      | some p => { m with base := m.base.raise (misuseEv p) }
      | none => m

/-- A write of both words: at once for a register that takes it so, else the lower offset first (R16). -/
def Mod.decodeWide (m : Mod) (w : Who) (off v : Nat) : Mod :=
  let split := fun (_ : Unit) => (m.decodeWrite w off (v % 2 ^ 32)).decodeWrite w (off + 4) (v / 2 ^ 32)
  match regAt off with
  | some h =>
    if h.word = 0 && wholeWrite h.row.name && m.base.sight w off h == .full then
      ({ m with base := m.base.dropHold off } : Mod).pairWrite w off h v
    else split ()
  | none => split ()

/-! ### Whole accesses -/

/-- An access refused under R16: logged in GLB_BADACC and raised. -/
def Base.badAccess (b : Base) (w : Who) (off width : Nat) (wr : Bool) : Base :=
  let a := Reg.GLB_BADACC
  let b := if bitOf (b.word (a + 4)).toNat 31 then b.wr (a + 4) ⟨1, 1⟩ 1
    else b.setWord64 a (off % 2 ^ 27 + 2 ^ 27 * b2n wr + 2 ^ 28 * (whoPart w).getD 0 + 2 ^ 31 * (width % 4) + 2 ^ 63)
  match whoPart w with
  | some p => b.raise (misuseEv p)
  | none => b.raise { group := 0, bit := 6 }

/-- What an access to the control window comes to before the decoder: it hangs, its guard denies it, its size or alignment is
refused with a width code, or it goes on. -/
inductive Reach where
  | hang
  | denied
  | refused (width : Nat)
  | go
  deriving DecidableEq, Repr

/-- Does an access pass without a check: before the image has loaded the guards, and in LC_HOLD where it never does (R145,
R332), SMBus reaches every register (R370; DEDUCED, log entry 18)? -/
def Base.unguarded (b : Base) (w : Who) : Bool :=
  (match w with
   | .smbus => true
   | _ => false) && (decide (b.stage < 3) || b.stage == 7)

/-- The way of an access to the decoder: a host's merge lines drain first (R129), then R327, the guard and R16. -/
def Mod.reach (m : Mod) (w : Who) (off len : Nat) (pasid : Option Nat) (wr : Bool) : Mod × Reach :=
  let m := m.drainFor w
  if m.base.hangs w off then ({ m with base := { m.base with hung := m.base.hung ++ [(w, off, wr)] } }, .hang)
  else
    let (b, d) := if m.base.unguarded w then (m.base, none) else m.base.guard (whoGuard w) (m.base.ctlAccess w off len pasid wr)
    let m := { m with base := b }
    if d.isSome then (m, .denied)
    else if len = 4 && off % 4 = 0 then (m, .go)
    else if len = 8 && off % 8 = 0 then (m, .go)
    else (m, .refused (if len < 4 then 0 else if len = 4 then 1 else if len = 8 then 2 else 3))

/-- A denied access is answered (R150), and reported on the endpoint of a host (R156). -/
def Base.deniedAccess (b : Base) (w : Who) (wr : Bool) : Base :=
  let b := match whoPart w with
    | some p => b.hostErr p 20 0 []
    | none => b
  b.answerError w wr

/-- A write of 4 or 8 bytes that has reached the decoder (R16, R380): a peek before READY hangs too (R327). -/
def Mod.landWrite (m : Mod) (w : Who) (off len v : Nat) : Mod :=
  if off = Reg.PRK_PEEK_IDX && bitOf v 31 && m.base.stage != 6 then
    { m with base := { m.base with hung := m.base.hung ++ [(w, off, true)] } }
  else if len = 8 then m.decodeWide w off v
  else m.decodeWrite w off v

/-- A read of 4 or 8 bytes that has reached the decoder (R16). -/
def Mod.landRead (m : Mod) (w : Who) (off len : Nat) : Mod × Nat :=
  if len = 8 then
    let (m, lo) := m.readWord w off true
    let (m, hi) := m.readWord w (off + 4) true
    (m, lo % 2 ^ 32 + 2 ^ 32 * hi)
  else m.readWord w off false

/-- A write access. -/
def Mod.writeAccess (m : Mod) (w : Who) (off len : Nat) (pasid : Option Nat) (v : Nat) : Mod :=
  match m.reach w off len pasid true with
  | (m, .hang) => m
  | (m, .denied) => { m with base := m.base.deniedAccess w true }
  | (m, .refused width) => { m with base := m.base.badAccess w off width true }
  | (m, .go) => m.landWrite w off len v

/-- A read access: the value, unless the access hangs or is denied. -/
def Mod.readAccess (m : Mod) (w : Who) (off len : Nat) (pasid : Option Nat) : Mod × Option Nat :=
  match m.reach w off len pasid false with
  | (m, .hang) => (m, none)
  | (m, .denied) => ({ m with base := m.base.deniedAccess w false }, none)
  | (m, .refused width) => ({ m with base := m.base.badAccess w off width false }, some (2 ^ (8 * len) - 1))
  | (m, .go) =>
    let (m, v) := m.landRead w off len
    (m, some v)

/-- A register write as a command gives it. -/
def Mod.regWrite (m : Mod) (w : Who) (off : Nat) (wide : Bool) (v : Nat) : Mod :=
  m.writeAccess w off (if wide then 8 else 4) none v

/-- A register read as a command gives it: the value goes to whoever asked. -/
def Mod.regRead (m : Mod) (w : Who) (off : Nat) (wide : Bool) : Mod :=
  match m.readAccess w off (if wide then 8 else 4) none with
  | (m, some v) => { m with base := m.base.emit (.readData w (BitVec.ofNat 64 v)) }
  | (m, none) => m

/-- The bytes of an access that a width code of GLB_BADACC names: fewer than 4, 4, 8, more than 8. -/
def accessBytes (width : Nat) : Nat :=
  match width with
  | 0 => 2
  | 1 => 4
  | 2 => 8
  | _ => 16

/-- An access of a wrong size or alignment (R16): a read returns all ones. -/
def Mod.refusedAccess (m : Mod) (w : Who) (off : Nat) (wr : Bool) (width : Nat) : Mod :=
  let len := accessBytes width
  match m.reach w off len none wr with
  | (m, .hang) => m
  | (m, .denied) => { m with base := m.base.deniedAccess w wr }
  | (m, _) =>
    let b := m.base.badAccess w off width wr
    { m with base := if wr then b else b.emit (.readData w (BitVec.ofNat 64 (2 ^ (8 * len) - 1))) }

/-! ### The keystone function (R139, R281, R282) -/

/-- One word that the keystone function writes: BND_MEMBER is its to write. -/
def Mod.agentWord (m : Mod) (w : Who) (off v : Nat) : Mod :=
  match regAt off with
  | some h => if h.row.name == .BND_MEMBER then m.setMember h.i1 (v % 4) else m.landWrite w off 4 v
  | none => m

/-- A write of the keystone function that has reached the decoder. -/
def Mod.agentWrite (m : Mod) (w : Who) (off len v : Nat) : Mod :=
  if isReg .BND_MEMBER off || (len == 8 && isReg .BND_MEMBER (off + 4)) then
    let m := m.agentWord w off (v % 2 ^ 32)
    if len = 8 then m.agentWord w (off + 4) (v / 2 ^ 32) else m
  else m.landWrite w off len v

/-- A write of this module's own keystone function, as management core 0, through guard 20. -/
def Mod.ownAgent (m : Mod) (x : Who × Nat × W32) : Mod :=
  match m.reach x.1 x.2.1 4 none true with
  | (m, .go) => m.agentWrite x.1 x.2.1 4 x.2.2.toNat
  | (m, _) => m

/-- An access of another module's keystone agent to the control window (R139, R282): it meets the rules of every access (R16, R327), and its
answer goes back over the bond. -/
def Mod.agentAccess (m : Mod) (k : Nat) (s : Segment) (t : Tlp) : Mod :=
  let w := Who.keystone (Fin.ofNat 8 k) (Fin.ofNat 4096 s.srcPath)
  let wr := t.kind == TlpKind.memWrite
  let off := t.addr - ctlAddr 0
  let len := if wr then t.data.length else t.len
  match m.reach w off len none wr with
  | (m, .hang) => { m with regHung := m.regHung ++ [(k, s, t)] }
  | (m, .denied) => m.farFail s.srcPath s.origin 1 t
  | (m, .refused width) =>
    let m := { m with base := m.base.badAccess w off width wr }
    if wr then m else m.mortarAnswer s t (List.replicate t.len 0xFF#8) false
  | (m, .go) =>
    if wr then m.agentWrite w off len (fieldAt t.data 0 len)
    else
      let (m, v) := m.landRead w off len
      m.mortarAnswer s t (leBytes len v) false

/-- A hung access of another module's keystone agent has its error response (R308, R327). -/
def Mod.agentHung (m : Mod) (w : Who) (off : Nat) (wr : Bool) : Mod :=
  match w with
  | .keystone k path =>
    match m.regHung.find? (fun x => x.1 == k.val && x.2.1.srcPath == path.val && x.2.2.addr - ctlAddr 0 == off &&
        (x.2.2.kind == TlpKind.memWrite) == wr) with
    | none => m
    | some x => ({ m with regHung := m.regHung.erase x } : Mod).farFail x.2.1.srcPath x.2.1.origin 1 x.2.2
  | _ => m

/-- The accesses of the keystone function that arrived in this command. -/
def Mod.agentAccesses (m : Mod) : Mod :=
  let m' := m.regIn.foldl Mod.ownAgent { m with regIn := [], regAsk := [] }
  m.regAsk.foldl (fun m x => m.agentAccess x.1 x.2.1 x.2.2) m'

end Sys2Proof.Machine
end

