-- ==== Sys2Proof/Machine/Mgmt.lean ====
section
/-! DEFINITION. The management side: the shelf alert lines (R365), SMBus (R368-R371), the debug header (R372) and the debug
master's accesses (R146). -/

namespace Sys2Proof.Machine

/-! ### Shelf alerts -/

/-- A filtered change of SHELF_ALERT_n# (R365): `level` is 1 while it is asserted. A lent shelf's borrower is told; else the
shelf's port raises an advisory event with cause 4. -/
def Mod.alertChange (m : Mod) (n : Nat) (level : Bool) : Mod :=
  let s := m.prk.slot n
  if s.alert == level then m
  else
    let m := { m with prk := m.prk.setSlot { s with alert := level } }
    if !m.pl.dieOn then m
    else
      match m.base.slotPort n with
      | none => m
      | some p =>
        if m.base.isSet (Reg.BND_PORT_LEND p) F.BND_PORT_LEND_valid then m.tellBorrower n 1 (leBytes 4 (b2n level))
        else { m with base := m.base.raise { m.base.portEv p 4 0 with detail := b2n level } }

/-! ### SMBus (R368-R371) -/

/-- The CLK fields that mirror plinth state, and the state that the plinth shows of the die: what SMBus reads of CLK while the
die does not answer (R370; CLK_STATUS and CLK_IMG_CTL DEDUCED from what their tables and R369 say, log entry 18). -/
def plinthClkMask (off : Nat) : Nat :=
  if off = Reg.CLK_STATUS || off = Reg.CLK_TOD || off = Reg.CLK_TOD + 4 || off = Reg.CLK_IMG_CTL then 2 ^ 32 - 1
  else if off = Reg.CLK_RESET_CAUSE then 15
  else if off = Reg.CLK_LC_STATE then 7
  else if off = Reg.CLK_IMG_STATUS then 3
  else if off = Reg.CLK_CAL_STATUS then 1
  else 0

/-- Does SMBus reach the plinth alone: in M2, M3 and HALTED (R370)? -/
def Mod.plinthOnly (m : Mod) : Bool := !m.pl.dieOn || m.base.stage == 8 || m.pl.m2 == 2

/-- Is an offset in the PWR block? -/
def inPwr (off : Nat) : Bool := decide (0x300000 ≤ off) && decide (off < 0x400000)

/-- Does SMBus get an answer from an offset while the plinth alone answers: PWR, the CLK mirrors, and, in M3 and HALTED, the
plinth's copy of EVT_FATAL (R370)? -/
def Mod.plinthReads (m : Mod) (off : Nat) : Bool :=
  inPwr off || plinthClkMask off != 0 ||
  (m.pl.m2 != 2 && decide (Reg.EVT_FATAL 0 ≤ off) && decide (off ≤ Reg.EVT_FATAL 3))

/-- An SMBus command is refused. -/
def Mod.nack (m : Mod) : Mod := { m with base := m.base.emit .nack }

/-- A command whose PEC fails has no effect (R368). -/
def Mod.withPec (m : Mod) (ok : Bool) (f : Mod → Mod) : Mod := if ok then f m else m.nack

/-- REG_ADDR: a block of 4 bytes sets the offset. -/
def Mod.smbAddr (m : Mod) (data : List Byte) : Mod :=
  if data.length = 4 then { m with pl := { m.pl with smbAddr := leNat data } } else m.nack

/-- REG_READ: the register at the offset, as its 4 bytes. -/
def Mod.smbRead (m : Mod) : Mod :=
  let off := m.pl.smbAddr
  if m.plinthOnly then
    if !m.plinthReads off || off % 4 != 0 then m.nack
    else
      let (m, v) := m.readWord .smbus off false
      let v := if plinthClkMask off = 0 then v else v &&& plinthClkMask off
      { m with base := m.base.emit (.smbus (leBytes 4 v) false) }
  else
    match m.readAccess .smbus off 4 none with
    | (m, some v) => { m with base := m.base.emit (.smbus (leBytes 4 v) false) }
    | (m, none) => m

/-- REG_WRITE: the register at the offset. -/
def Mod.smbWrite (m : Mod) (data : List Byte) : Mod :=
  let off := m.pl.smbAddr
  if data.length ≠ 4 then m.nack
  else if m.plinthOnly then
    if inPwr off && off % 4 == 0 then m.decodeWrite .smbus off (leNat data) else m.nack
  else m.writeAccess .smbus off 4 none (leNat data)

/-- WARM_RESET and COLD_RESET: any data word but the reset code is refused. -/
def Mod.smbReset (m : Mod) (data : List Byte) (cold : Bool) : Mod :=
  if data.length = 2 && leNat data = Config.resetCode then m.requestReset cold (if cold then 3 else 9) else m.nack

/-- IMG_BEGIN: an update opens with the type and length of CLK_IMG_CTL (R334). -/
def Mod.smbImgBegin (m : Mod) (data : List Byte) : Mod :=
  let a := Reg.CLK_IMG_CTL
  if data.length ≠ 4 then m.nack
  else if m.imgBusy then { m with base := m.base.wr a F.CLK_IMG_CTL_result 6 }
  else
    let v := leNat data
    let len := bits v F.CLK_IMG_CTL_len_kib
    { m with base := ((m.base.wr a F.CLK_IMG_CTL_type (v % 4)).wr a F.CLK_IMG_CTL_len_kib len).wr a F.CLK_IMG_CTL_done 0,
             pl := { m.pl with img := some { kind := v % 4, len := len, smbus := true } } }

/-- No update is open for a piece or an end: result 6 (R369). An update of the manager's goes on. -/
def Mod.noUpdate (m : Mod) : Mod :=
  if m.pl.img.isSome then m
  else { m with base := (m.base.wr Reg.CLK_IMG_CTL F.CLK_IMG_CTL_done 1).wr Reg.CLK_IMG_CTL F.CLK_IMG_CTL_result 6 }

/-- IMG_DATA: the next 32 bytes; beyond the length the update ends with result 3; a result other than 0 says that the slot
could not be written. -/
def Mod.smbImgData (m : Mod) (data : List Byte) (result : Nat) : Mod :=
  if data.length ≠ 32 then m.nack
  else
    match m.pl.img with
    | some x =>
      if !x.smbus then m
      else if 1024 * x.len < x.got + 32 then m.imgFinish x.kind 3
      else if result ≠ 0 then m.imgFinish x.kind result
      else { m with pl := { m.pl with img := some { x with got := x.got + 32 } } }
    | none => m.noUpdate

/-- IMG_END: the slot is checked, with the result given, and made active (R334). -/
def Mod.smbImgEnd (m : Mod) (result : Nat) : Mod :=
  match m.pl.img with
  | some x => if x.smbus then m.imgFinish x.kind result else m
  | none => m.noUpdate

/-- Is BMC_SMB_ALERT# asserted (R371)? -/
def Base.smbAlert (b : Base) : Bool :=
  b.isSet Reg.PWR_FAULT F.PWR_FAULT_valid || b.isSet Reg.EVT_FATAL_CTL F.EVT_FATAL_CTL_valid ||
  (b.word (Reg.EVT_STATUS 1)).toNat != 0 || (b.word (Reg.EVT_STATUS 2)).toNat != 0

/-- A read of the Alert Response Address (R371): the module's address, 0x60 plus its slot address, in the upper seven bits, while
it asserts the alert (PRESUMED from SMBus: a device that does not assert it stays silent, log entry 18). -/
def Mod.alertResponse (m : Mod) : Mod :=
  if m.base.smbAlert then { m with base := m.base.emit (.smbus [BitVec.ofNat 8 (2 * (0x60 + Config.slotAddress.toNat))] false) }
  else m.nack

/-! ### The debug header (R372) -/

/-- The TAP answers through the bypass register. -/
def Mod.bypass (m : Mod) : Mod := { m with base := m.base.emit (.jtag [false]) }

/-- The bits of a number, lowest first. -/
def bitList (n v : Nat) : List Bool := (List.range n).map (bitOf v)

/-- An instruction of the TAP acts while the die has power. -/
def Mod.tap' (m : Mod) (f : Mod → Mod) : Mod := if m.pl.dieOn then f m else m

/-- IDCODE: 0x?256074F with the die revision on top. -/
def Mod.idcode (m : Mod) : Mod :=
  let v := 0x256074F + 2 ^ 28 * m.base.rd Reg.GLB_PRODUCT_ID F.GLB_PRODUCT_ID_die_rev
  { m with base := m.base.emit (.jtag (bitList 32 v)) }

/-- SAMPLE/PRELOAD: the pins are shifted out, and the cells take what is shifted in. -/
def Mod.samplePreload (m : Mod) (pins preload : List Bool) : Mod :=
  { m with base := m.base.emit (.jtag pins), pl := { m.pl with preload := preload } }

/-- EXTEST and its pulsed forms: the preloaded cells drive the pins in stages POR, LC_HOLD and HALTED; elsewhere the
instruction acts as BYPASS and raises an advisory event of group 16, that of the manager partition. -/
def Mod.extest (m : Mod) (kind : Nat) : Mod :=
  let st := m.base.stage
  if st = 0 || st = 7 || st = 8 then { m with base := m.base.emit (.pins kind m.pl.preload) }
  else ({ m with base := m.base.raise (misuseEv m.base.manager) } : Mod).bypass

/-- DEBUG opens the debug master, but for a decommissioned module. -/
def Mod.debugOpen (m : Mod) : Mod :=
  if m.pl.lc = 4 then m.bypass else { m with pl := { m.pl with debugOpen := true } }

/-- The debug port shows its error status. -/
def Mod.debugError (m : Mod) : Mod := { m with base := m.base.emit (.debug none) }

/-- The debug master writes or reads Mortar outside the control window (R141): park DRAM from READY on and outside M2, else the
access hangs (R327). -/
def Mod.debugMem (m : Mod) (isWrite : Bool) (addr len v : Nat) : Mod :=
  let x : Access := { space := 0, addr := addr, len := len, rd := !isWrite, wr := isWrite, secure := true, ident := 40 }
  match m.base.guard 40 x with
  | (b, some _) => ({ m with base := b } : Mod).debugError
  | (b, none) =>
    let m := { m with base := b }
    if mgmtAddr 0 ≤ addr then
      let a := addr - mgmtAddr 0
      if isWrite then { m with dram := { m.dram with mgmt := memPutList m.dram.mgmt a (leBytes len v) } }
      else { m with base := m.base.emit (.debug (some (BitVec.ofNat 64 (leNat (memGetList m.dram.mgmt a len))))) }
    else if m.base.stage != 6 || m.pl.m2 != 0 then
      { m with base := { m.base with hung := m.base.hung ++ [(.debug, addr, isWrite)] } }
    else if isWrite then m.performStore addr (leBytes len v) false
    else
      let (m, d, bad) := m.performLoad addr len
      if bad then m.debugError else { m with base := m.base.emit (.debug (some (BitVec.ofNat 64 (leNat d)))) }

/-- An access of the debug master at a Mortar address (R141, R146). -/
def Mod.debugAccess (m : Mod) (isWrite : Bool) (addr : Nat) (wide : Bool) (v : Nat) : Mod :=
  let len := if wide then 8 else 4
  if !m.pl.dieOn || !m.pl.debugOpen then m.debugError
  else if ctlAddr 0 ≤ addr && addr < ctlAddr 0x8000000 then
    let off := addr - ctlAddr 0
    if isWrite then m.writeAccess .debug off len none v
    else
      match m.readAccess .debug off len none with
      | (m, some v) => { m with base := m.base.emit (.debug (some (BitVec.ofNat 64 v))) }
      | (m, none) => m
  else m.debugMem isWrite addr len v

/-! ### Register accesses as rows give them -/

/-- Can an accessor make an access at all: a host, a management core or a keystone agent while the die runs outside HALTED and
M2, a host with its endpoint in D0, the debug master while it is open, SMBus always? -/
def Mod.canAccess (m : Mod) (w : Who) : Bool :=
  match w with
  | .smbus => true
  | .debug => m.pl.dieOn && m.pl.debugOpen
  | .host p => m.pl.dieOn && m.base.stage != 8 && m.pl.m2 != 2 && !m.base.d3hot p.val
  | _ => m.pl.dieOn && m.base.stage != 8 && m.pl.m2 != 2

/-- An access that is not made: D3hot stops BAR decoding, so a host's is an Unsupported Request of its endpoint (R156). -/
def Mod.notMade (m : Mod) (w : Who) (wr : Bool) : Mod :=
  match w with
  | .host p =>
    if m.pl.dieOn && m.base.stage != 8 && m.pl.m2 != 2 then { m with base := (m.base.hostErr p.val 20 0 []).answerError w wr } else m
  | _ => m

/-- A register write by an accessor. -/
def Mod.rowWrite (m : Mod) (w : Who) (off : Nat) (wide : Bool) (v : Nat) : Mod :=
  if w == Who.smbus && m.plinthOnly then
    if inPwr off && off % 4 == 0 && !wide then m.decodeWrite w off v else m.nack
  else if m.canAccess w then m.regWrite w off wide v
  else m.notMade w true

/-- A register read by an accessor. -/
def Mod.rowRead (m : Mod) (w : Who) (off : Nat) (wide : Bool) : Mod :=
  if w == Who.smbus && m.plinthOnly then
    if m.plinthReads off && off % 4 == 0 && !wide then
      let (m, v) := m.readWord w off false
      let v := if plinthClkMask off = 0 then v else v &&& plinthClkMask off
      { m with base := m.base.emit (.readData w (BitVec.ofNat 64 v)) }
    else m.nack
  else if m.canAccess w then m.regRead w off wide
  else m.notMade w false

/-- A refused access by an accessor. -/
def Mod.rowRefused (m : Mod) (w : Who) (off : Nat) (wr : Bool) (width : Nat) : Mod :=
  if w == Who.smbus && m.plinthOnly then m.nack
  else if m.canAccess w then m.refusedAccess w off wr width
  else m.notMade w wr

end Sys2Proof.Machine
end

