-- ==== Sys2Proof/Machine/Cfg.lean ====
section
/-! DEFINITION. Configuration space (R153-R156, R175, R201, R206, R214, R307): what a host's configuration write does to each
function, field by field as the PCI Express Base Specification gives them where the spec leaves it to that (R154, R200; log
entry 7), and what a configuration read returns. -/

namespace Sys2Proof.Machine

/-- The kind of a function: 0 upstream port, 1 the port above the endpoint, 2 a shelf's or a borrowed virtual port, 3 a control
endpoint. -/
def fnKind (fn : Nat) : Nat := if fn < 8 then 3 else if fn < 16 then 0 else if fn < 24 then 1 else 2

/-- The partition of a function. -/
def Base.fnPart (b : Base) (fn : Nat) : Nat :=
  if fn < 24 then fn % 8 else if fn < 88 then b.portPart (fn - 24) else (fn - 88) / 32

/-- The port of an upstream or shelf function. -/
def Base.fnPort (b : Base) (fn : Nat) : Option Nat :=
  match fnKind fn with
  | 0 => b.upstreamPort (fn - 8)
  | 2 => if fn < 88 then some (fn - 24) else none
  | _ => none

/-- Does the function exist: its partition enabled, and for a shelf's port the role of its port, for a borrowed one its lend? -/
def Base.fnThere (b : Base) (fn : Nat) : Bool :=
  b.partitions.contains (b.fnPart fn) &&
  (if fn < 24 then true else if fn < 88 then b.portRole (fn - 24) == 2 else b.isSet (Reg.BND_LEND (fn - 88)) F.BND_LEND_valid)

/-- The size of BAR2 of a partition in bytes (R157): a power of two from 1 GiB to 2 TiB, at most 1 TiB on the ZM256-A1T. A figure of the
image that is none, or that is missing, acts as the next smaller size that is allowed, or as 1 GiB (DESIGN CHOICE, log entry 47). -/
def Base.bar2Size (b : Base) (p : Nat) : Nat :=
  let top := if b.rd Reg.GLB_PRODUCT_ID F.GLB_PRODUCT_ID_order_code == 2 then 10 else 11
  2 ^ (30 + min top (Nat.log2 (b.bar2.getD p 1)))

/-! ### The fields a write reaches -/

/-- AER bits that a function implements: an endpoint's, and a port's with surprise down, ACS, multicast and AtomicOp errors. -/
def aerMask (kind : Nat) : Nat := if kind = 3 then 0x0057F010 else 0x01F7F030

/-- The writable bits of an endpoint's configuration word. -/
def Base.epRw (b : Base) (p off : Nat) : Nat :=
  match off with
  | 0x04 => 0x0146
  | 0x0C | 0x3C => 0xFF
  | 0x10 => 0xF8000000
  | 0x14 | 0x1C | 0x24 => if off = 0x1C then (2 ^ 64 - b.bar2Size p) / 2 ^ 32 % 2 ^ 32 else 2 ^ 32 - 1
  | 0x18 => (2 ^ 64 - b.bar2Size p) % 2 ^ 32
  | 0x20 => 0xFFFF0000
  | 0x44 => 0x3
  | 0x50 => 0x00710000
  | 0x54 => 0xFFFFFFFC
  | 0x58 | 0x60 => 2 ^ 32 - 1
  | 0x5C => 0xFFFF
  | 0x78 => 0x79FF
  | 0x98 => 0x130F
  | 0xB0 => 0xC0000000
  | 0x108 => aerMask 3
  | 0x10C => aerMask 3 - 0x400000
  | 0x114 => 0xF1C1
  | 0x14C => 0x00010000
  | _ => 0

/-- The writable bits of a bridge's configuration word: `k` as in `fnKind`, `l1ss` whether it offers L1 substates, `mc` whether its
partition has multicast groups (R206). -/
def bridgeRw (k off : Nat) (l1ss mc : Bool) : Nat :=
  let only := fun (ok : Bool) (v : Nat) => if ok then v else 0
  match off with
  | 0x04 => 0x0547
  | 0x0C => 0xFF
  | 0x18 => 0x00FFFFFF
  | 0x1C => 0xF0F0
  | 0x20 | 0x24 => 0xFFF0FFF0
  | 0x28 | 0x2C => 2 ^ 32 - 1
  | 0x3C => 0x004300FF
  | 0x44 => 0x3
  | 0x50 => only (k == 2) 0x00010000
  | 0x54 => only (k == 2) 0xFFFFFFFC
  | 0x58 => only (k == 2) (2 ^ 32 - 1)
  | 0x5C => only (k == 2) 0xFFFF
  | 0x78 => 0x00EF
  | 0x80 => if k = 0 then 0x02C3 else if k = 2 then 0x0ED3 else 0
  | 0x88 => only (k == 2) 0x1028
  | 0x98 => if k = 0 then 0x80 else 0xA0
  | 0xA0 => only (k != 1) 0xFFFF
  | 0x108 => aerMask k
  | 0x10C => aerMask k - 0x400000
  | 0x114 => 0xF1C1
  | 0x14C => only (k != 0) 0x007F0000
  | 0x150 => only (k != 0) (2 ^ 32 - 1)
  | 0x15C => only (k != 1) 0x3
  | 0x260 => only l1ss 0xE3FF000F
  | 0x264 => only l1ss 0xFB
  | 0x274 => only (k != 1) (if mc then 0x803F0000 else 0x003F0000)
  | 0x278 => only (k != 1) 0xFFFFF03F
  | 0x27C | 0x288 | 0x28C | 0x290 | 0x294 | 0x29C => only (k != 1) (2 ^ 32 - 1)
  | 0x298 => only (k != 1) (2 ^ 32 - 1)
  | 0x2A4 => only (k == 2) 0x001B0000
  | _ => 0

/-- The bits that a write of 1 clears. -/
def cfgW1c (k off : Nat) : Nat :=
  match off with
  | 0x04 => 0xF9000000
  | 0x1C => if k = 3 then 0 else 0xF9000000
  | 0x78 => 0x000F0000
  | 0x80 => if k = 2 then 0xC0000000 else 0
  | 0x88 => if k = 2 then 0x01080000 else 0
  | 0x104 => aerMask k
  | 0x110 => 0xF1C1
  | 0x160 => if k = 0 || k = 2 then 0xFFFF else 0
  | 0x2A8 => if k = 2 then 0x8 else 0
  | _ => 0

/-- The bits of a word that byte enables select. -/
def enableMask (en : Nat) : Nat :=
  (List.range 4).foldl (fun w i => if bitOf en i then w + 0xFF * 2 ^ (8 * i) else w) 0

/-- The word of a function after a write under enables: written fields take the value, those written as 1 clear. -/
def Base.cfgWord (b : Base) (fn off v en : Nat) : Nat :=
  let k := fnKind fn
  let l1ss := k == 0 && (match b.fnPort fn with
    | some p => b.isSet (Reg.PRT_CFG p) F.PRT_CFG_l1ss
    | none => false)
  let mc := match b.fnPort fn with
    | some p => decide (1 ≤ b.rd (Reg.PRT_MC p) F.PRT_MC_mc_count)
    | none => false
  let m := enableMask en
  let rw := (if k = 3 then b.epRw fn off else bridgeRw k off l1ss mc) &&& m
  let old := b.cfg fn off
  let new := (old - (old &&& rw)) + (v &&& rw)
  new - (new &&& (v &&& (cfgW1c k off &&& m)))

/-! ### What the written fields set in motion -/

/-- The vector of a message as the host numbers it: of MSI, with the low bits that the host has granted (R175). -/
def Base.vecOf (b : Base) (p v : Nat) : Nat := if b.msixEn p then v else v % 2 ^ bits (b.cfg p 0x50) ⟨20, 3⟩

/-- Messages that a mask held back are sent when the mask has gone, once for each vector (R178). -/
def Mod.unmask (m : Mod) (p : Nat) : Mod :=
  let (go, stay) := m.base.pend.partition (fun x => x.part == p && !m.base.vecMasked p x.vector)
  let once := go.foldl (fun l x => if l.any (fun y => m.base.vecOf p y.vector == m.base.vecOf p x.vector) then l else l ++ [x]) []
  { m with base := once.foldl Base.message { m.base with pend := stay } }

/-- A mask is cleared (R178): a vector's, in the MSI-X table or the MSI mask, or the function's. -/
def Mod.msiUnmask (m : Mod) (p : Nat) (vector : Option Nat) : Mod :=
  let b := m.base
  let b := match vector with
    | none => b.setCfg p 0xB0 (putBits (b.cfg p 0xB0) ⟨30, 1⟩ 0)
    | some v =>
      if b.msixEn p then
        let a := p * 65536 + v * 16 + 12
        { b with msix := b.msix.set a (BitVec.ofNat 32 (putBits ((b.msix.lookup a).getD 1#32).toNat ⟨0, 1⟩ 0)) }
      else b.setCfg p 0x60 (putBits (b.cfg p 0x60) ⟨v % 32, 1⟩ 0)
  ({ m with base := b } : Mod).unmask p

/-- The partition's internal bus is reset from the upstream port's bridge control: as a hot reset (R216), but for the upstream
port itself. -/
def Mod.internalReset (m : Mod) (p : Nat) : Mod :=
  let mine := m.base.cfgs.filter (fun x => x.1 / 4096 == 8 + p)
  let m := m.upstreamReset p
  { m with base := mine.foldl (fun b x => b.setCfg (x.1 / 4096) (x.1 % 4096) x.2.toNat) m.base }

/-- The message of a slot is due when its enabled condition comes about (R214). -/
def slotIrq (w : Nat) : Bool := bitOf w 5 && ((bitOf w 19 && bitOf w 3) || (bitOf w 24 && bitOf w 12))

/-- A lane margining command in a port's lane control word (R245), as the PCI Express specification codes it. -/
def marginCmd (w : Nat) : MarginCmd :=
  let pay := bits w ⟨8, 8⟩
  match bits w ⟨3, 3⟩ with
  | 1 => .report pay
  | 2 => if pay = 0x0F then .goToNormal else if pay = 0x55 then .clearErrorLog else .setErrorLimit (pay % 64)
  | 3 => .stepTiming (!bitOf pay 6) (pay % 64)
  | 4 => .stepVoltage (!bitOf pay 7) (pay % 128)
  | _ => .noCommand

/-- A borrower's host sets or clears Secondary Bus Reset on a lent port (R289): the owner is asked. -/
def Mod.lentReset (m : Mod) (v : Nat) (set : Bool) : Mod :=
  let a := Reg.BND_LEND v
  let u := (m.base.upstreamPort (v / 32)).getD 0
  m.toBond { dstPath := m.base.rd a F.BND_LEND_owner_path, stype := .msg, origin := u,
             data := leBytes 4 (2 + 2 ^ 8 * m.base.rd a F.BND_LEND_owner_port) ++ leBytes 4 (b2n set) }

/-- What a write to an endpoint's word does beside its fields. -/
def Mod.epWritten (m : Mod) (p off v en old new : Nat) : Mod :=
  match off with
  | 0x04 =>
    if bitOf old 2 && !bitOf new 2 then m.bmeClear p
    else if !bitOf old 2 && bitOf new 2 then m.bmeSet p
    else m
  | 0x50 | 0x60 | 0xB0 => m.unmask p
  | 0x78 => if bitOf v 15 && bitOf en 1 then m.flr p else m
  | 0x98 =>
    if en % 2 = 0 then m
    else { m with base := m.base.nestWrite (m.base.line5Host p && (List.range 8).all (fun k => m.base.line6 k p)) }
  | _ => m

/-- The MC_Receive bits of a word that enables select follow the value (R206). -/
def Mod.receiveBits (m : Mod) (q w v en : Nat) : Mod :=
  (List.range 32).foldl (fun m i => if bitOf en (i / 8) then m.mcReceive q (32 * w + i) (bitOf v i) else m) m

/-- What a write to a bridge's word does beside its fields. -/
def Mod.bridgeWritten (m : Mod) (fn off v en old new : Nat) : Mod :=
  let k := fnKind fn
  let rose := fun (i : Nat) => !bitOf old i && bitOf new i
  let fell := fun (i : Nat) => bitOf old i && !bitOf new i
  if off = 0x3C then
    match k with
    | 0 => if rose 22 then m.internalReset (fn - 8) else m
    | 1 => if rose 22 then (m.drainPath (fn - 16)).flr (fn - 16) else m
    | _ =>
      if !(rose 22 || fell 22) then m
      else if fn < 88 then m.busReset (fn - 24) (rose 22) else m.lentReset (fn - 88) (rose 22)
  else
    match m.base.fnPort fn with
    | none => m
    | some q =>
      if 0x218 ≤ off && off < 0x258 && en % 4 != 0 then
        m.marginCommand (m.base.firstLane q + (off - 0x218) / 4) (marginCmd v)
      else if off = 0x280 || off = 0x284 then m.receiveBits q ((off - 0x280) / 4) v en
      else if off = 0x80 && k = 0 then { m with base := m.base.restartL1 q }
      else if k = 2 then
        match off with
        | 0x80 => if rose 4 then m.portDown q else m
        | 0x88 => if !slotIrq old && slotIrq new then { m with base := m.base.portMsi fn (m.base.portPart q) } else m
        | 0x2A4 => if bitOf v 22 && bitOf en 2 then m.dpcTrigger q 3 1 else m
        | 0x2A8 => if bitOf v 0 && bitOf en 0 then m.dpcClear q else m
        | _ => m
      else m

/-- A host's configuration write to a function (R307): its fields take the value, a power state that the function does not have is
not taken, and what the fields control follows. -/
def Mod.cfgWrite (m : Mod) (fn off v en : Nat) : Mod :=
  let off := off / 4 * 4 % 4096
  let old := m.base.cfg fn off
  let new := m.base.cfgWord fn off v en
  let new := if off = 0x44 && (new % 4 == 1 || new % 4 == 2) then old else new
  if fn < 8 then
    let kept := if off = 0x04 then putBits new ⟨2, 1⟩ (b2n (bitOf old 2)) else new
    ({ m with base := m.base.setCfg fn off kept } : Mod).epWritten fn off v en old new
  else
    let kept := if off = 0x3C && 24 ≤ fn && fn < 88 then putBits new ⟨22, 1⟩ (b2n (bitOf old 22)) else new
    ({ m with base := m.base.setCfg fn off kept } : Mod).bridgeWritten fn off v en old new

/-- The word that a configuration read returns: the MSI pending bits follow the messages held back (R178). -/
def Base.cfgRead (b : Base) (fn off : Nat) : Nat :=
  let off := off / 4 * 4 % 4096
  if fn < 8 && off = 0x64 && !b.msixEn fn then
    (List.range 32).foldl (fun w i =>
      if b.pend.any (fun x => x.part == fn && x.vector % 2 ^ bits (b.cfg fn 0x50) ⟨20, 3⟩ == i) then w + 2 ^ i else w) 0
  else b.cfg fn off

/-- May hosts reach configuration functions: the die runs, from stage LINKS on, outside M2 and HALTED? -/
def Mod.cfgAlive (m : Mod) : Bool :=
  m.pl.dieOn && decide (3 ≤ m.base.stage) && decide (m.base.stage ≤ 6) && m.pl.m2 != 2

/-- A configuration write reaches a function: nothing where there is no such function; the control endpoint answers with
Configuration Request Retry Status before stage DRAM (R332). -/
def Mod.hostCfgWrite (m : Mod) (fn off v en : Nat) : Mod :=
  if !m.cfgAlive || !m.base.fnThere fn then m
  else if fn < 8 && m.base.stage == 3 then { m with base := m.base.emit (.cplErr fn 2) }
  else m.cfgWrite fn off v en

/-- The control endpoint moves to D3hot or back (R156): a write of its power state. -/
def Mod.powerState (m : Mod) (p : Nat) (d3hot : Bool) : Mod := m.hostCfgWrite p 0x44 (if d3hot then 3 else 0) 1

end Sys2Proof.Machine
end

