-- ==== Sys2Proof/Machine/Tlp.lean ====
section
/-! DEFINITION. A TLP arrives on a PCI Express link (R40): the link layer's verdict, credits (R51), routing in its partition's
virtual switch (R199-R204, R211), multicast (R206), the control endpoint's BARs (R157), the module's own completions, and the
fabric routing of lent shelves (R286-R288). What R203 leaves to the PCI Express Base Specification follows it (log entry 7). -/

namespace Sys2Proof.Machine

/-! ### Bridges and their windows -/

/-- The Memory Space or I/O Space Enable of a function. -/
def Base.spaceOn (b : Base) (fn : Nat) (io : Bool) : Bool := bitOf (b.cfg fn 0x04) (if io then 0 else 1)

/-- Is the function in D0? -/
def Base.inD0 (b : Base) (fn : Nat) : Bool := b.cfg fn 0x44 % 4 == 0

/-- Does a bridge route requests: a shelf's virtual port in D3hot still takes them, to dispose of them (R221)? -/
def Base.routes (b : Base) (fn : Nat) : Bool := (decide (24 ≤ fn) && decide (fn < 88)) || b.inD0 fn

/-- Does a bridge's memory window hold an address (non-prefetchable, or the 64-bit prefetchable one)? -/
def Base.memWindow (b : Base) (fn addr : Nat) : Bool :=
  let np := b.cfg fn 0x20
  let pf := b.cfg fn 0x24
  let lo := bits np ⟨4, 12⟩ * 2 ^ 20
  let hi := bits np ⟨20, 12⟩ * 2 ^ 20 + 0xFFFFF
  let plo := bits pf ⟨4, 12⟩ * 2 ^ 20 + b.cfg fn 0x28 * 2 ^ 32
  let phi := bits pf ⟨20, 12⟩ * 2 ^ 20 + 0xFFFFF + b.cfg fn 0x2C * 2 ^ 32
  b.spaceOn fn false && b.routes fn &&
  ((decide (lo ≤ addr) && decide (addr ≤ hi)) || (decide (plo ≤ addr) && decide (addr ≤ phi)))

/-- Does a bridge's 16-bit I/O window hold an address? -/
def Base.ioWindow (b : Base) (fn addr : Nat) : Bool :=
  let w := b.cfg fn 0x1C
  let lo := bits w ⟨4, 4⟩ * 2 ^ 12
  let hi := bits w ⟨12, 4⟩ * 2 ^ 12 + 0xFFF
  b.spaceOn fn true && b.routes fn && decide (lo ≤ addr) && decide (addr ≤ hi)

/-- The secondary bus of a bridge, and whether its buses hold one. -/
def Base.secBus (b : Base) (fn : Nat) : Nat := bits (b.cfg fn 0x18) ⟨8, 8⟩
def Base.busBelow (b : Base) (fn bus : Nat) : Bool :=
  let s := b.secBus fn
  decide (s ≠ 0) && decide (s ≤ bus) && decide (bus ≤ bits (b.cfg fn 0x18) ⟨16, 8⟩)

/-- The bridges on a partition's internal bus (R201): the one above the endpoint, the shelf ports, the borrowed ports. -/
def Base.children (b : Base) (p : Nat) : List Nat :=
  [16 + p] ++ ((List.range 64).filter (fun q => b.portRole q == 2 && b.portPart q == p)).map (24 + ·) ++
  ((List.range 32).map (fun d => 88 + 32 * p + d)).filter b.fnThere

/-- The device number of a bridge on the internal bus. -/
def Base.childDev (b : Base) (fn : Nat) : Nat :=
  if fn < 24 then 0 else if fn < 88 then b.rd (Reg.PRT_CFG (fn - 24)) F.PRT_CFG_dev else (fn - 88) % 32

/-- What a TLP is for, inside a partition's virtual switch. -/
inductive Target where
  | up
  | child (fn : Nat)
  | fn (fn : Nat)
  | none
  deriving DecidableEq, Repr

/-- The child whose window holds an address. -/
def Base.childAt (b : Base) (p addr : Nat) (io : Bool) : Option Nat :=
  (b.children p).find? (fun fn => if io then b.ioWindow fn addr else b.memWindow fn addr)

/-- The child that an ID lies below. -/
def Base.childOfId (b : Base) (p bdf : Nat) : Option Nat := (b.children p).find? (fun fn => b.busBelow fn (bdf / 256))

/-- The function that an ID names on the internal bus. -/
def Base.childById (b : Base) (p bdf : Nat) : Option Nat :=
  if bdf % 8 = 0 then (b.children p).find? (fun fn => b.childDev fn == bdf / 8 % 32) else none

/-- Is a kind of TLP an I/O request? -/
def isIo (k : TlpKind) : Bool := k == TlpKind.ioRead || k == TlpKind.ioWrite

/-- Does a bridge pass a configuration request on: to its secondary bus only for device 0, unless ARI forwarding is enabled (R200)? -/
def Base.cfgPasses (b : Base) (fn bdf : Nat) : Bool :=
  bdf / 256 != b.secBus fn || bdf / 8 % 32 == 0 || bitOf (b.cfg fn 0x98) 5

/-- Where a TLP from the host goes (R203): a child whose window or buses hold it, a function it configures, or nowhere. -/
def Base.downTarget (b : Base) (p : Nat) (t : Tlp) : Target :=
  let u := 8 + p
  match t.route with
  | .addr =>
    let here := if isIo t.kind then b.ioWindow u t.addr else b.memWindow u t.addr
    if !here then .none
    else match b.childAt p t.addr (isIo t.kind) with
      | some fn => .child fn
      | none => .none
  | .id bdf =>
    let cfg := t.kind == TlpKind.cfgRead || t.kind == TlpKind.cfgWrite
    if b.busBelow u (bdf / 256) then
      if bdf / 256 = b.secBus u then
        match b.childById p bdf with
        | some fn => .fn fn
        | none => .none
      else match b.childOfId p bdf with
        | some fn => if cfg && !b.cfgPasses fn bdf then .none else .child fn
        | none => .none
    else if cfg && bdf % 256 = 0 then .fn u
    else .none
  | _ => .none

/-! ### Access control (R204) -/

/-- A bit of a port's ACS control. -/
def Base.acs (b : Base) (fn i : Nat) : Bool := bitOf (b.cfg fn 0x14C) (16 + i)

/-- Peer-to-peer traffic from one shelf port to another child (R204): `some true` goes direct, `some false` is redirected up
through the upstream port, none is blocked. -/
def Base.peer (b : Base) (fn : Nat) (t : Tlp) (dest : Nat) : Option Bool :=
  if t.kind == TlpKind.cpl then some (!(b.acs fn 3 && !t.relaxed))
  else if t.translated && b.acs fn 6 then some true
  else if b.acs fn 5 then
    if bitOf (b.cfg fn 0x150) (b.childDev dest) then (if b.acs fn 2 then some false else none) else some true
  else some (!b.acs fn 2)

/-- Does a request from a shelf break source validation or translation blocking (R200)? -/
def Base.acsViolation (b : Base) (fn : Nat) (t : Tlp) : Bool :=
  t.kind != TlpKind.cpl &&
  ((b.acs fn 0 && !b.busBelow fn (t.rid / 256)) ||
   (b.acs fn 1 && t.translated && (t.kind == TlpKind.memRead || t.kind == TlpKind.memWrite || t.kind == TlpKind.atomic)))

/-- Where a TLP from a shelf goes (R203, R204). -/
def Base.upTarget (b : Base) (p fn : Nat) (t : Tlp) : Target :=
  let u := 8 + p
  let up := fun (_ : Unit) => if bitOf (b.cfg u 0x04) 2 || t.kind == TlpKind.cpl || t.kind == TlpKind.msg then Target.up else Target.none
  let across := fun (dest : Nat) =>
    if dest = fn then (if b.acs fn 4 then up () else .none)
    else match b.peer fn t dest with
      | some true => .child dest
      | some false => up ()
      | none => .none
  match t.route with
  | .toRoot => up ()
  | .addr =>
    match b.childAt p t.addr (isIo t.kind) with
    | some dest => across dest
    | none =>
      if (if isIo t.kind then b.ioWindow u t.addr else b.memWindow u t.addr) then .none else up ()
  | .id bdf =>
    if t.kind == TlpKind.cfgRead || t.kind == TlpKind.cfgWrite then .none
    else if b.busBelow u (bdf / 256) then
      if bdf / 256 = b.secBus u then
        match b.childById p bdf with
        | some dest => .fn dest
        | none => .none
      else match b.childOfId p bdf with
        | some dest => across dest
        | none => .none
    else up ()
  | _ => .none

/-! ### Frames from a link -/

/-- A correctable error of a port's link (R296). -/
def Base.portCor (b : Base) (p bit : Nat) : Base :=
  let fn := b.portFn p
  let b := b.setCfg fn 0x110 (b.cfg fn 0x110 ||| 2 ^ bit)
  let b := b.setCfg fn 0x78 (b.cfg fn 0x78 ||| 2 ^ 16)
  let b := if bitOf (b.cfg fn 0x114) bit then b else b.aerCor fn
  b.raise (b.portEv p 2 0)

/-- The AER bits of what the link layer finds (PCI Express): correctable, and those of the errors that can trigger DPC. -/
def linkCheckBit : LinkCheck → Option Nat
  | .good => none
  | .receiverError => some 0
  | .badTlp => some 6
  | .badDllp => some 7
  | .replayRollover => some 8
  | .replayTimeout => some 12
def dpcBit : DpcCause → Nat
  | .malformed => 18
  | .overflow => 17
  | .flowControl => 13
  | .dataLink => 4

/-- An error of a link that R296 calls contained: reported, and on a downstream port a DPC trigger when the host has enabled one
for it. -/
def Mod.linkError (m : Mod) (p bit : Nat) (hdr : List Nat) : Mod :=
  let fn := m.base.portFn p
  let fatal := bitOf (m.base.cfg fn 0x10C) bit
  let masked := bitOf (m.base.cfg fn 0x108) bit
  let te := bits (m.base.cfg fn 0x2A4) ⟨16, 2⟩
  let m := { m with base := m.base.portErr p bit 1 hdr }
  if m.base.portRole p == 2 && !masked && (te == 2 || (te == 1 && fatal)) then m.dpcTrigger p 0 0 else m

/-- A TLP that has come in whole and ends at its ingress port (R40, R57). -/
def Mod.endHere (m : Mod) (p : Nat) (t : Tlp) : Mod := m.takeIn (m.base.ingressFrame p p t)

/-- A request that the switch cannot route or may not pass: an unsupported request, or an ACS violation, on the port it came in on;
a non-posted one is completed with UR, anything else discarded. -/
def Mod.unrouted (m : Mod) (p bit : Nat) (t : Tlp) : Mod :=
  let m := m.endHere p t
  let m := { m with base := m.base.portErr p bit 0 (m.base.header p t) }
  if tlpVc t = 1 then { m with base := m.base.emit (.synthCpl p (m.base.ingressFrame p p t) false) } else m

/-- A frame for a port of the module enters the core; a frame at a shelf's port starts its idle hold over (R92). An AtomicOp that the
egress blocks does not pass. -/
def Mod.toPort (m : Mod) (p q : Nat) (t : Tlp) : Mod :=
  if t.kind == TlpKind.atomic && bitOf (m.base.cfg (m.base.portFn q) 0x98) 7 then m.unrouted p 24 t
  else
    let m := if m.base.portRole q == 2 then m.portFrame q else m
    m.admitIngress (m.base.ingressFrame p q t)

/-- A TLP leaves for another member (R286): the routing table names the module, the port and the requester ID; it holds its cells until it
has gone on as a frame for a Camtex port (R50). A miss ends a non-posted request with UR and discards anything else (R288). -/
def Mod.toMember (m : Mod) (p : Nat) (t : Tlp) : Mod :=
  let kind := b2n (t.kind == TlpKind.cpl)
  match m.base.rtLookup p kind t.rid t.pasid with
  | none =>
    let m := m.endHere p t
    let m := { m with base := m.base.rtMiss p kind t.rid }
    if tlpVc t = 1 then { m with base := m.base.emit (.synthCpl p (m.base.ingressFrame p p t) false) } else m
  | some e =>
    let w := m.base.rtWord e 2
    let rid := if bitOf w 18 then m.base.rtWord e 3 % 2 ^ 16 else t.rid
    let mem := t.kind == TlpKind.memRead || t.kind == TlpKind.memWrite || t.kind == TlpKind.atomic
    let off := m.base.rtWord e 4 + 2 ^ 32 * m.base.rtWord e 5
    let t := { t with rid := rid, addr := if mem then (t.addr + off) % 2 ^ 64 else t.addr }
    let t := if t.kind == TlpKind.cpl then { t with route := .id rid } else t
    let f := m.base.ingressFrame p p t
    let x : BondMsg :=
      { dstPath := w % 2 ^ 12, cls := if t.kind == TlpKind.cpl then .response else .request, dstPort := bits w ⟨12, 6⟩, origin := p,
        vc := f.vc, tc := f.tc, world := m.base.portRole p == 1 && m.base.partWorld (m.base.portPart p), poison := t.ep,
        data := tlpWire t, credited := true, meter := f.meter }
    ((m.charge p f.vc x.cells).tapIn f).toBond x

/-! ### The control endpoint (R150, R156, R157, R299) -/

/-- A host's access to BAR4: the MSI-X table is read and written in words of 4 B, the pending bits are read. -/
def Mod.bar4Write (m : Mod) (p off : Nat) (data : List Byte) : Mod :=
  let put := fun (b : Base) (i : Nat) =>
    let a := off + 4 * i
    let v := BitVec.ofNat 32 (fieldAt data (4 * i) 4)
    if a < 0x8000 then
      { b with msix := b.msix.set (p * 65536 + a) (if a % 16 = 12 then v &&& 1#32 else if a % 16 = 0 then v &&& 0xFFFFFFFC#32 else v) }
    else b
  if off % 4 = 0 && data.length % 4 = 0 then
    ({ m with base := (List.range (data.length / 4)).foldl put m.base } : Mod).unmask p
  else m

def Base.bar4Word (b : Base) (p a : Nat) : Nat :=
  if a < 0x8000 then
    ((b.msix.lookup (p * 65536 + a)).getD (if a % 16 = 12 then 1#32 else 0#32)).toNat
  else if a < 0x8100 && b.msixEn p then
    (List.range 32).foldl (fun w i =>
      if b.pend.any (fun x => x.part == p && x.vector == (a - 0x8000) * 8 + i) then w + 2 ^ i else w) 0
  else 0

def Base.bar4Read (b : Base) (p off len : Nat) : List Byte :=
  ((List.range ((off % 4 + len + 3) / 4)).flatMap (fun i => leBytes 4 (b.bar4Word p (off / 4 * 4 + 4 * i)))).drop (off % 4) |>.take len

/-- A park-window access waits for stage READY, unanswered (R327). -/
def Mod.windowHangs (m : Mod) (p off : Nat) (wr : Bool) : Mod :=
  { m with base := { m.base with hung := m.base.hung ++ [(Who.host (Fin.ofNat 8 p), off, wr)] } }

/-- A host's store to BAR2 (R128, R299, R327). -/
def Mod.bar2Store (m : Mod) (p : Nat) (pasid : Option Nat) (off : Nat) (data : List Byte) (ro ep : Bool) : Mod :=
  if m.base.d3hot p || m.base.bar2Size p < off + data.length then { m with base := m.base.hostErr p 20 0 [] }
  else if m.base.stage != 6 then m.windowHangs p off true
  else if ep then m.windowAccess p pasid (.poisonedWrite off data)
  else m.windowStore p pasid off data ro

/-- A host's read or AtomicOp of BAR2, a poisoned write to it, or the drain before a control-window access (R129). -/
def Mod.bar2Access (m : Mod) (p : Nat) (pasid : Option Nat) (x : PathAccess) : Mod :=
  let (off, len, wr) := match x with
    | .read o n => (o, n, false)
    | .atomic o n => (o, n, false)
    | .poisonedWrite o d => (o, d.length, true)
    | .control => (0, 0, true)
  if x == .control then m.windowAccess p pasid x
  else if m.base.d3hot p || m.base.bar2Size p < off + len then
    let b := m.base.hostErr p 20 0 []
    { m with base := if wr then b else b.emit (.cplErr p 1) }
  else if m.base.stage != 6 then m.windowHangs p off wr
  else m.windowAccess p pasid x

/-- The header of a TLP that reached partition p's endpoint, as its log takes it (R220). -/
def Base.hostHeader (b : Base) (p : Nat) (t : Tlp) : List Nat :=
  match b.upstreamPort p with
  | some u => b.header u t
  | none => tlpHeader t

/-- A host's access to BAR0: a poisoned write is discarded and reported (R299), an AtomicOp is an unsupported request; either drains the
path's lines as any other access there (R129). -/
def Mod.bar0Access (m : Mod) (p : Nat) (off : Nat) (t : Tlp) : Mod :=
  let w := Who.host (Fin.ofNat 8 p)
  if t.kind == TlpKind.memWrite then
    if t.ep then { (m.drainPath p) with base := (m.drainPath p).base.hostErr p 12 0 (m.base.hostHeader p t) }
    else m.writeAccess w off t.data.length t.pasid (leNat t.data)
  else if t.kind == TlpKind.memRead then
    match m.readAccess w off t.len t.pasid with
    | (m, some v) => { m with base := m.base.emit (.cplData p (leBytes t.len v) false) }
    | (m, none) => m
  else { (m.drainPath p) with base := ((m.drainPath p).base.hostErr p 20 0 (m.base.hostHeader p t)).emit (.cplErr p 1) }

/-- The BAR of an endpoint that holds an address, with the offset in it. -/
def Base.barOf (b : Base) (p addr : Nat) : Option (Nat × Nat) :=
  let at' := fun (o : Nat) => b.cfg p o / 16 * 16 + 2 ^ 32 * b.cfg p (o + 4)
  let hit := fun (i o size : Nat) => if decide (at' o ≤ addr) && decide (addr < at' o + size) then some (i, addr - at' o) else none
  if !b.spaceOn p false || b.d3hot p then none
  else ((hit 0 0x10 (2 ^ 27)).orElse (fun _ => hit 2 0x18 (b.bar2Size p))).orElse (fun _ => hit 4 0x20 65536)

/-- Is a request to the endpoint malformed, as PCI Express says: a payload above its Max_Payload_Size, or a range that crosses 4 KiB? -/
def Base.badRequest (b : Base) (p : Nat) (t : Tlp) : Bool :=
  decide (128 * 2 ^ min 3 (bits (b.cfg p 0x78) ⟨5, 3⟩) < (tlpPadded t).length) || decide (4096 < t.addr % 4096 + tlpSpan t)

/-- A memory request has reached the control endpoint: a malformed one is reported and discarded (R156, R296). -/
def Mod.endpointMem (m : Mod) (p : Nat) (t : Tlp) : Mod :=
  if m.base.badRequest p t then { m with base := m.base.hostErr p 18 1 (m.base.hostHeader p t) }
  else match m.base.barOf p t.addr with
  | none =>
    let b := m.base.hostErr p 20 0 (m.base.hostHeader p t)
    { m with base := if tlpVc t = 1 then b.emit (.cplErr p 1) else b }
  | some (0, off) => m.bar0Access p off t
  | some (2, off) =>
    if t.kind == TlpKind.memWrite then m.bar2Store p t.pasid off t.data t.relaxed t.ep
    else m.bar2Access p t.pasid (if t.kind == TlpKind.atomic then .atomic off t.data.length else .read off t.len)
  | some (_, off) =>
    if t.kind == TlpKind.memWrite then
      if t.ep then { m with base := m.base.hostErr p 12 0 (m.base.hostHeader p t) } else m.bar4Write p off t.data
    else if t.kind == TlpKind.memRead then { m with base := m.base.emit (.cplData p (m.base.bar4Read p off t.len) false) }
    else { m with base := (m.base.hostErr p 20 0 (m.base.hostHeader p t)).emit (.cplErr p 1) }

/-- A configuration request reaches a function of the module. -/
def Mod.cfgRequest (m : Mod) (p fn : Nat) (t : Tlp) : Mod :=
  if t.kind == TlpKind.cfgWrite && t.ep then m.unrouted p 12 t
  else
  let m := m.endHere p t
  if t.kind == TlpKind.cfgWrite then
    m.hostCfgWrite fn t.addr (fieldAt t.data 0 4 * 2 ^ (8 * (t.addr % 4)) % 2 ^ 32)
      ((2 ^ t.data.length - 1) * 2 ^ (t.addr % 4) % 16)
  else if fn < 8 && m.base.stage == 3 then { m with base := m.base.emit (.cplErr fn 2) }
  else { m with base := m.base.emit (.cplData (m.base.fnPart fn) (leBytes 4 (m.base.cfgRead fn t.addr)) false) }

/-! ### Multicast (R206) -/

/-- The multicast group of a posted write, in its partition's terms, by the ingress port's own capability. -/
def Base.mcGroup (b : Base) (p : Nat) (t : Tlp) : Option Nat :=
  let fn := b.portFn p
  let c := b.cfg fn 0x274
  let lo := b.cfg fn 0x278
  let pos := lo % 64
  let base := lo / 4096 * 4096 + 2 ^ 32 * b.cfg fn 0x27C
  let n := bits c ⟨16, 6⟩ + 1
  if t.kind == TlpKind.memWrite && bitOf c 31 && decide (12 ≤ pos) && decide (1 ≤ b.rd (Reg.PRT_MC p) F.PRT_MC_mc_count) &&
      decide (base ≤ t.addr) && decide ((t.addr - base) / 2 ^ pos < n) then some ((t.addr - base) / 2 ^ pos)
  else none

/-- Does the ingress port block the group (MC_Block_All, MC_Block_Untranslated)? -/
def Base.mcBlocked (b : Base) (p g : Nat) (t : Tlp) : Bool :=
  let fn := b.portFn p
  bitOf (b.cfg fn (0x288 + 4 * (g / 32))) (g % 32) ||
  (!t.translated && bitOf (b.cfg fn (0x290 + 4 * (g / 32))) (g % 32))

/-! ### Receiving -/

/-- A TLP from the host of a partition. -/
def Mod.fromHost (m : Mod) (p : Nat) (t : Tlp) : Mod :=
  let part := m.base.portPart p
  let cfg := t.kind == TlpKind.cfgRead || t.kind == TlpKind.cfgWrite
  match m.base.downTarget part t with
  | .fn fn =>
    if cfg then m.cfgRequest p fn t
    else if t.kind == TlpKind.cpl && 24 ≤ fn then (m.endHere p t).lateCpl p t.tag ((m.base.header p t).map (BitVec.ofNat 32))
    else if t.kind == TlpKind.msg then m.endHere p t
    else m.unrouted p 20 t
  | .child fn =>
    if fn < 24 then
      if cfg then
        match t.route with
        | .id bdf => if bdf = 256 * m.base.secBus fn then m.cfgRequest p part t else m.unrouted p 20 t
        | _ => m
      else if t.kind == TlpKind.cpl then m.ownCompletion p (m.base.ingressFrame p p t) false
      else if t.kind == TlpKind.msg then m.endHere p t
      else if isIo t.kind then m.unrouted p 20 t
      else (m.endHere p t).endpointMem part t
    else if fn < 88 then m.toPort p (fn - 24) t
    else m.toMember p t
  | _ => match t.route with
    | .localTerm => m.endHere p t
    | .broadcast => (m.base.children part).foldl (fun m fn => if 24 ≤ fn && fn < 88 then m.toPort p (fn - 24) t else m) m
    | _ => m.unrouted p 20 t

/-- The error message of a shelf that the host has made a DPC trigger (R217): its reason; the message ends there. -/
def Base.dpcMessage (b : Base) (p : Nat) (t : Tlp) : Option Nat :=
  let te := bits (b.cfg (24 + p) 0x2A4) ⟨16, 2⟩
  if t.kind != TlpKind.msg then none
  else if t.code = 0x33 && (te = 1 || te = 2) then some 2
  else if t.code = 0x31 && te = 2 then some 1
  else none

/-- A TLP from a shelf: a contained port discards and counts it (R217; log entry 45); else its own functions' traffic checks, then the
virtual switch, the module's reads, or another member. A completion for a hod of another member goes back to that member (R109). -/
def Mod.fromShelf (m : Mod) (p : Nat) (t : Tlp) : Mod :=
  let part := m.base.portPart p
  let fn := 24 + p
  let m := m.portFrame p
  let errMsg := t.kind == TlpKind.msg && (t.code = 0x30 || t.code = 0x31 || t.code = 0x33)
  if m.base.contained p then { m with base := m.base.bump (Reg.PRT_CNT p 2) }
  else match m.base.dpcMessage p t with
  | some reason =>
    let m := (m.endHere p t).dpcTrigger p reason 0
    if m.base.contained p then
      { m with base := m.base.setCfg fn 0x2A8 (m.base.cfg fn 0x2A8 % 2 ^ 16 + 2 ^ 16 * (t.rid % 2 ^ 16)) }
    else m
  | none =>
    if t.kind != TlpKind.cpl && t.kind != TlpKind.msg && !bitOf (m.base.cfg fn 0x04) 2 then m.unrouted p 20 t
    else if m.base.acsViolation fn t then m.unrouted p 21 t
    else if errMsg && !bitOf (m.base.cfg fn 0x3C) 17 then m.endHere p t
    else
      let own := match t.route with
        | .id bdf => t.kind == TlpKind.cpl && bdf / 256 == m.base.secBus (8 + part) && bdf / 8 % 32 == m.base.rd (Reg.PRT_CFG p) F.PRT_CFG_dev
        | _ => false
      let done := m.sw.forwarded.find? (fun x => x.1 == p && x.2.tlp.tag == t.tag && x.2.tlp.rid == t.rid)
      let m := match t.kind, done with
        | .cpl, some x => { m with sw := { m.sw with forwarded := m.sw.forwarded.erase x } }
        | _, _ => m
      let back := if t.kind == TlpKind.cpl then (done.bind (fun x => x.2.far)).filter (fun x => decide (64 ≤ x.2)) else none
      match back with
      | some (path, origin) => (m.endHere p t).toBond (backMsg path origin p false t)
      | none =>
      if own then m.ownCompletion p (m.base.ingressFrame p p t) false
      else if m.base.isSet (Reg.BND_PORT_LEND p) F.BND_PORT_LEND_valid then m.toMember p t
      else
        match m.base.upTarget part fn t with
        | .up =>
          match m.base.upstreamPort part with
          | some u => m.toPort p u t
          | none => m.unrouted p 20 t
        | .child dest =>
          if dest < 24 then
            (if t.kind == TlpKind.cpl then m.ownCompletion p (m.base.ingressFrame p p t) false
             else if isIo t.kind then m.unrouted p 20 t else (m.endHere p t).endpointMem part t)
          else if dest < 88 then m.toPort p (dest - 24) t
          else m.toMember p t
        | .fn _ =>
          if t.kind == TlpKind.cpl then (m.endHere p t).lateCpl p t.tag ((m.base.header p t).map (BitVec.ofNat 32))
          else m.unrouted p 20 t
        | .none => match t.route with
          | .localTerm => m.endHere p t
          | _ => m.unrouted p (if t.kind != TlpKind.cpl && (m.base.childAt part t.addr (isIo t.kind)).isSome then 21 else 20) t

/-- Does an ingress port take frames: its link is up and no take-down runs (R298)? -/
def Mod.admits (m : Mod) (p : Nat) : Bool := m.base.linkUp p && m.pl.take.isNone && m.pl.dieOn && m.pl.m2 != 2

/-- A TLP arrives at a port (R40): a frame that the link layer rejects is gone at once, for the link to replay; an analysis port
discards it (R59); else it spends the credits its sender held (R51), is counted, and goes where it is for; what it spent is given
back as admission allows. -/
def Mod.tlpReceive (m : Mod) (p : Nat) (t : Tlp) (check : LinkCheck) : Mod :=
  let role := m.base.portRole p
  if !m.admits p || role = 0 || 3 < role then m
  else if role = 3 then { m with base := (if check == .good then m.base.bump (Reg.PRT_CNT p 1) else m.base) }
  else match linkCheckBit check with
  | some e => { m with base := m.base.portCor p e }
  | none =>
    let v := tlpVc t
    let c := m.sw.credit p v
    let n := (tlpPadded t).length
    if c.hdrOut = 0 || c.dataOut < cdiv n 16 then m.linkError p 17 (m.base.header p t)
    else
      let b := (m.base.occ 0x200 p none 1).occ 0x201 p none (tlpBytes t)
      let m := { m with base := b.restartL1 p, sw := m.sw.spendCredit p v n false }
      let m :=
        if 1024 < n then m.linkError p 18 (m.base.header p t)
        else match m.base.mcGroup p t with
          | some g =>
            if m.base.mcBlocked p g t then
              let m := m.endHere p t
              { m with base := m.base.portErr p 23 0 (m.base.header p t) }
            else
              let f := m.base.ingressFrame p p t
              m.storeMulticast { f with mc := true, group := m.base.rd (Reg.PRT_MC p) F.PRT_MC_mc_base + g }
          | none => if role = 1 then m.fromHost p t else m.fromShelf p t
      m.releaseCredit p v

end Sys2Proof.Machine
end

