-- ==== Sys2Proof/Machine/Settle.lean ====
section
/-! DEFINITION. What ends every command: the work it set going runs as far as it can without a further command, what time brought is
counted, and the events it raised are reported in the order of R300; and the frame `run` in which every command acts. -/

namespace Sys2Proof.Machine

/-! ### Time that has passed (R67, R71, R313) -/

/-- The ticks, of `d` to come, in which a frame that is red now stays red: tokens only rise while nothing is sent. -/
def Mod.redTicks (m : Mod) (d : Nat) (f : Frame) : Nat :=
  match f.meter with
  | none => 0
  | some i =>
    if !m.base.meterOn i then 0
    else
      let need := 256 * f.bytes - (m.sw.meter i).tp
      if need = 0 then 0 else if m.base.pir i = 0 then d else min d ((need - 1) / m.base.pir i)

/-- `d` ticks are counted in events 0x0C3 and 0x0C4 (R313), by the queues that stood (`was`) while they passed. -/
def Mod.countTicks (m was : Mod) (d : Nat) : Mod :=
  if d = 0 then m
  else
    let start := m.base.tick - d
    let red := fun (p : Nat) => (List.range 8).foldl (fun n t =>
      match was.sw.headFrame (8 * p + t) (fun _ => true) with
      | some f => max n (was.redTicks d f)
      | none => n) 0
    let wait := fun (p : Nat) => was.sw.queues.foldl (fun n (x : QueueSt) =>
      match x.due with
      | some due => if x.q / 8 = p then max n (min d (due - 1 - start)) else n
      | none => n) 0
    let b := (was.sw.egress.map EgItem.port).eraseDups.foldl (fun b p => b.occTime 0x0C3 p none (red p)) m.base
    { m with base := (was.sw.queues.map (fun (x : QueueSt) => x.q / 8)).eraseDups.foldl (fun b p => b.occTime 0x0C4 p none (wait p)) b }

/-- `d` ticks pass: the buckets of enabled meters take their increments up to their sizes, and queues whose due tick has come leave the
wheel. -/
def Mod.passTicks (m : Mod) (d : Nat) : Mod :=
  if d = 0 then m
  else
    let fill := fun (t : MeterSt) =>
      if !m.base.meterOn t.m then t
      else { t with tc := min (t.tc + d * m.base.cir t.m) (m.base.cbs t.m), tp := min (t.tp + d * m.base.pir t.m) (m.base.pbs t.m) }
    { m with sw := ({ m.sw with meters := m.sw.meters.map fill } : Switch).wheelAt m.base.tick }

/-- The ticks since the last command pass, and what counts by time is counted, while the core clock runs on. -/
def Mod.passTime (m : Mod) (before : Mod) : Mod :=
  if !(m.base.coreOn && before.base.coreOn && before.pl.bootAt == m.pl.bootAt) then
    { m with sw := { m.sw with lastTick := m.base.tick } }
  else
    let t0 := before.base.now
    let t1 := m.base.now
    let d := m.base.tick - m.sw.lastTick
    let m := ((m.countTime before (t1 - t0) (t1 / us - t0 / us) (t1 / sec - t0 / sec)).countTicks before d).passTicks d
    { m with sw := { m.sw with lastTick := m.base.tick } }

/-- Time goes on to the next 64 ns tick (R67, R71). -/
def Mod.nextTick (m : Mod) : Mod := { m with base := { m.base with now := m.base.now + (64 - m.base.ns % 64) } }

/-! ### Work that a command set going -/

/-- Reads that the module ended itself are handled by their owners; `n` bounds the rounds. -/
def Mod.endReads : Nat → Mod → Mod
  | 0, m => m
  | n + 1, m =>
    match m.ended with
    | [] => m
    | l => Mod.endReads n (l.foldl (fun m x => m.ownerDone x.1 x.2) { m with ended := [] })

/-- The hods' runs go on where they wait for nothing but a tag or their crossbar port. -/
def Mod.pumpAll (m : Mod) : Mod :=
  m.hod.runs.foldl (fun m r => if r.waiting then m else m.pump r.h) m

/-- The engines go on in stage READY (R332): jobs are handed over, reads that waited for a tag are tried, sweeps and the plan run. -/
def Mod.engines (m : Mod) : Mod :=
  let m := (Mod.malformedDue m.qe.descs.length m).fences.handJobs.pumpAll.imgPump
  if m.base.stage == 6 then Mod.runPlan 3 (Mod.sweepAll 64 m.parkPump) else m

/-- A TLP that a command sent on an upstream link starts its idle count over (R221). -/
def Mod.linksBusy (m : Mod) : Mod :=
  let port := fun (p : Nat) => (m.base.upstreamPort p).toList
  let ps := m.base.out.flatMap (fun o => match o with
    | .hostRead p _ _ _ _ => port p
    | .hostWrite p _ _ _ => port p
    | .msi p _ _ => port p
    | .cplData p _ _ => port p
    | .cplErr p _ => port p
    | .frame p _ => [p]
    | _ => [])
  { m with base := ps.eraseDups.foldl Base.restartL1 m.base }

/-- What waits for a point of time without a command of its own has come: boot steps, M2, the repairs of R308. -/
def Mod.timeDue (m : Mod) : Mod :=
  let m := m.bootDue.linksDue.m2Due
  if m.pl.dieOn then m.dueRecommits else m

/-- The die's part of the end of a command. -/
def Mod.dieSettle (m : Mod) : Mod :=
  if !m.pl.dieOn then m
  else
    let m := (Mod.endReads 4 m).agentAccesses
    let m := if m.base.coreOn then (Mod.endReads 4 m.engines).bondSettle.agentAccesses else m
    let m := (List.range 8).foldl (fun m k => m.sendRecords k) m
    m.refreshPorts.linksBusy.wakeTiles

/-- Events are reported; a fatal one starts its sequence (R298), whose own events are reported with it. -/
def Mod.reportAll (m : Mod) : Mod :=
  let m := { m with base := m.base.vcSamples.flush }
  if m.base.fatal then
    let m := m.fatalSequence
    { m with base := m.base.flush }
  else m

/-- The end of a command that began in `before`. -/
def Mod.settle (before m : Mod) : Mod := ((m.timeDue.dieSettle.showClkReq).passTime before).reportAll

/-! ### The frame of every command -/

/-- A command acts on the module: what left at the last command has left, and without power nothing happens but the arrival of
power (R344). -/
def Mod.run (m : Mod) (op : Mod → Mod) : Mod :=
  let m := { m with base := { m.base with out := [] } }
  if m.pl.powered then m.settle (op m) else m

/-- A command of the state: the module acts, the queue of waiting commands stands. -/
def State.run (s : State) (op : Mod → Mod) : State := { s with mod := s.mod.run op }

/-- Nothing is commanded: one nanosecond passes, with what time brings (DESIGN CHOICE, log entry 2). -/
def State.idle (s : State) : State := s.run (fun m => { m with base := { m.base with now := m.base.now + 1 } })

/-- An operation of the switch die: nothing while the die is without power or halted (R330). -/
def Mod.onDie (m : Mod) (f : Mod → Mod) : Mod := if m.pl.dieOn && m.base.stage != 8 then f m else m

/-- An operation of the clocked core: nothing while the core clock stands (R327). -/
def Mod.onCore (m : Mod) (f : Mod → Mod) : Mod := if m.pl.dieOn && m.base.stage != 8 && m.base.coreOn then f m else m

/-- An armed timer of the plinth ends: time is at least when it was due, and its effect follows. -/
def Mod.onTimer (m : Mod) (k : TimerKey) (f : Mod → Mod) : Mod :=
  match m.base.due k with
  | none => m
  | some d =>
    let b := m.base.disarm k
    f { m with base := { b with now := max b.now d } }

/-- An armed timer of the core ends; it does not run in M2. -/
def Mod.onCoreTimer (m : Mod) (k : TimerKey) (f : Mod → Mod) : Mod := m.onCore (fun m => m.onTimer k f)

end Sys2Proof.Machine
end

