-- ==== Sys2Proof/Machine/ExecSwitch.lean ====
section
/-! DEFINITION. The meanings of the commands of the register map, the switch core and the egress scheduler. -/

namespace Sys2Proof.Machine

/-- The outcome of every command: a next state. -/
abbrev Answer := Host.Outcome State Fault Refusal

/-- REGISTER_WRITE (R13, R16, R380-R383): a register takes a write of 4 or 8 bytes by its access codes and its own rule. -/
def execRegisterWrite (who : Who) (off : Nat) (wide : Bool) (v : W64) (s : State) : Answer :=
  .next (s.run (fun m => m.rowWrite who off wide v.toNat))

/-- REFUSED_REGISTER_ACCESS (R16): an access of a wrong size or alignment is not made, and is logged. -/
def execRefusedRegisterAccess (who : Who) (off : Nat) (isWrite : Bool) (width : Fin 4) (s : State) : Answer :=
  .next (s.run (fun m => m.rowRefused who off isWrite width.val))

/-- COUNTER_READ_LATCH (R61): a 32-bit read of a counter's lower word latches its upper word. -/
def execCounterReadLatch (who : Who) (off : Nat) (s : State) : Answer :=
  .next (s.run (fun m => m.rowRead who off false))

/-- COUNTER_WRITE (R316): a counter of software's takes a write as one piece. -/
def execCounterWrite (who : Who) (off : Nat) (wide : Bool) (v : W64) (s : State) : Answer :=
  .next (s.run (fun m => m.rowWrite who off wide v.toNat))

/-- HWM_CLEAR (R72): a high-water mark takes the present depth. -/
def execHwmClear (who : Who) (off : Nat) (v : W32) (s : State) : Answer :=
  .next (s.run (fun m => m.rowWrite who off false v.toNat))

/-- TLP_RECEIVE (R40): a frame arrives at an ingress port. -/
def execTlpReceive (port : Fin 64) (tlp : Tlp) (check : LinkCheck) (s : State) : Answer :=
  .next (s.run (fun m => m.onCore (fun m => m.tlpReceive port.val tlp check)))

/-- CELL_SLOT_MATCH (R44): one cell time: the matching, and one cell crosses per matched pair. -/
def execCellSlotMatch (s : State) : Answer :=
  .next (s.run (fun m => m.onCore (fun m => ({ m with base := { m.base with now := m.base.now + 2 } } : Mod).cellSlot)))

/-- PTR_RESET: a write of XBR_CTRL.ptr_reset zeroes the matcher's pointers before the next matching. -/
def execPtrReset (who : Who) (v : W32) (s : State) : Answer :=
  .next (s.run (fun m => m.rowWrite who Reg.XBR_CTRL false v.toNat))

/-- BUF_ECC_ERROR (R41): an ECC error is found in a stored frame. -/
def execBufEccError (frame : Nat) (kind : EccKind) (s : State) : Answer :=
  .next (s.run (fun m => m.onCore (fun m => m.eccError frame kind)))

/-- BUF_COMMIT_GO (R53): the staged minimums take effect if they fit. -/
def execBufCommitGo (who : Who) (v : W32) (s : State) : Answer :=
  .next (s.run (fun m => m.rowWrite who Reg.BUF_COMMIT false v.toNat))

/-- BUF_COMMIT_DONE (R53): the commit ends, within 1 µs. -/
def execBufCommitDone (s : State) : Answer :=
  .next (s.run (fun m => m.onCoreTimer .bufCommit (fun m => { m with base := m.base.wr Reg.BUF_COMMIT F.BUF_COMMIT_done 1 })))

/-- Does the link partner have credit for a frame (R64): a header credit of its virtual channel, copies being posted (R58), and data
credits for its payload? -/
def partnerCredit (c : PartnerCredit) (f : Frame) : Bool :=
  match (match f.vc with
    | 1 => c.np
    | 2 => c.cpl
    | _ => c.p) with
  | none => false
  | some d => decide (cdiv (f.bytes - f.tlp.hdr) 16 ≤ d)

/-- EGRESS_SEND (R65): an egress port picks and sends one frame, or disposes of one that it cannot deliver. -/
def execEgressSend (port : Fin 64) (creditP creditNp creditCpl : Option Nat) (s : State) : Answer :=
  .next (s.run (fun m => m.onCore (fun m =>
    if m.base.portRole port.val == 4 then
      match (List.range 8).find? (fun k => m.base.camPort k == some port.val) with
      | some k => m.sendCam k port.val
      | none => m
    else m.sendPcie port.val (partnerCredit ⟨creditP, creditNp, creditCpl⟩))))

/-- METER_TICK (R67): the next 64 ns tick comes, and every bucket takes its increment. -/
def execMeterTick (s : State) : Answer := .next (s.run (fun m => m.onCore Mod.nextTick))

/-- WHEEL_TICK (R71): the next 64 ns tick comes, and queues in its slot of the wheel become eligible. -/
def execWheelTick (s : State) : Answer := .next (s.run (fun m => m.onCore (fun m => m.nextTick)))

/-- METER_WRITE (R68): a register of a meter is written: 0 CIR, 1 PIR, 2 CBS, 3 PBS. -/
def execMeterWrite (who : Who) (meter : Fin 4096) (reg : Fin 4) (v : W32) (s : State) : Answer :=
  .next (s.run (fun m => m.rowWrite who (Reg.SCH_METER_CIR meter.val + 4 * reg.val) false v.toNat))

end Sys2Proof.Machine
end

