-- ==== Sys2Proof/Machine/ExecQueue.lean ====
section
/-! DEFINITION. The meanings of the commands of the control endpoint and the queue engines, and of the descriptors they route. -/

namespace Sys2Proof.Machine

/-- SQ_DOORBELL (R167): a submission tail is written. -/
def execSqDoorbell (who : Who) (slice : Fin 1024) (q : Fin 64) (v : W32) (s : State) : Answer :=
  .next (s.run (fun m => m.rowWrite who (Reg.SLC_SQ_DB slice.val q.val) false v.toNat))

/-- CQ_DOORBELL (R167): a completion head is written. -/
def execCqDoorbell (who : Who) (slice : Fin 1024) (q : Fin 64) (v : W32) (s : State) : Answer :=
  .next (s.run (fun m => m.rowWrite who (Reg.SLC_CQ_DB slice.val q.val) false v.toNat))

/-- EQ_DOORBELL (R173): an event ring's head is written. -/
def execEqDoorbell (who : Who) (slice : Fin 1024) (v : W32) (s : State) : Answer :=
  .next (s.run (fun m => m.rowWrite who (Reg.SLC_EQ_DB slice.val) false v.toNat))

/-- QP_ENABLE (R161): SLC_QP_CFG is written with enable 1. -/
def execQpEnable (who : Who) (slice : Fin 1024) (q : Fin 64) (v : W32) (s : State) : Answer :=
  .next (s.run (fun m => m.rowWrite who (Reg.SLC_QP_CFG slice.val q.val) false v.toNat))

/-- QP_DISABLE (R161): SLC_QP_CFG is written with enable 0. -/
def execQpDisable (who : Who) (slice : Fin 1024) (q : Fin 64) (v : W32) (s : State) : Answer :=
  .next (s.run (fun m => m.rowWrite who (Reg.SLC_QP_CFG slice.val q.val) false v.toNat))

/-- EQ_ENABLE (R173): SLC_EQ_CFG is written. -/
def execEqEnable (who : Who) (slice : Fin 1024) (v : W32) (s : State) : Answer :=
  .next (s.run (fun m => m.rowWrite who (Reg.SLC_EQ_CFG slice.val) false v.toNat))

/-- DESCRIPTOR_FETCH (R168): a queue engine serves the next queue pair with work. -/
def execDescriptorFetch (p : Fin 8) (s : State) : Answer := .next (s.run (fun m => m.onCore (fun m => m.fetchNext p.val)))

/-- A read of the module's own ends: its owner takes the completion, if the read is still out. -/
def Mod.answered (m : Mod) (o : TagOwner) (c : Cpl) : Mod := if (m.tagOf o).isSome then m.ownerDone o c else m

/-- FETCH_READ_COMPLETION (R168): a fetch read completes. -/
def execFetchReadCompletion (p : Fin 8) (id : Nat) (cpl : Cpl) (s : State) : Answer :=
  .next (s.run (fun m => m.onCore (fun m => m.answered (.fetch p.val id) cpl)))

/-- MOVE (R25, R163): the descriptor at the front of a pair becomes a hod job. -/
def execMove (gqp : Fin 4096) (s : State) : Answer :=
  .next (s.run (fun m => m.onCore (fun m => match m.frontOp gqp.val 1 with
    | some d => m.routeMove d
    | none => m)))

/-- PARK_WRITE (R25, R26, R164). -/
def execParkWrite (gqp : Fin 4096) (s : State) : Answer :=
  .next (s.run (fun m => m.onCore (fun m => match m.frontOp gqp.val 2 with
    | some d => m.routePark d
    | none => m)))

/-- PARK_READ (R25, R26, R164). -/
def execParkRead (gqp : Fin 4096) (s : State) : Answer :=
  .next (s.run (fun m => m.onCore (fun m => match m.frontOp gqp.val 3 with
    | some d => m.routePark d
    | none => m)))

/-- FENCE (R132, R133): the queue engine takes up a fence. -/
def execFence (gqp : Fin 4096) (s : State) : Answer := .next (s.run (fun m => m.onCore (fun m => m.beginFence gqp.val)))

/-- NOP (R165): completes at once with OK. -/
def execNop (gqp : Fin 4096) (s : State) : Answer :=
  .next (s.run (fun m => m.onCore (fun m => match m.frontOp gqp.val 5 with
    | some d => (m.complete d.id 0).fences
    | none => m)))

/-- GUARD_COMMIT (R148, R149). -/
def execGuardCommit (gqp : Fin 4096) (s : State) : Answer :=
  .next (s.run (fun m => m.onCore (fun m => match m.frontOp gqp.val 0x11 with
    | some d => m.routeCommit d
    | none => m)))

/-- IRQ_TIME_EXPIRY (R177): time_us has passed since a ring's oldest unsignalled entry. -/
def execIrqTimeExpiry (gqp : Fin 4096) (s : State) : Answer :=
  .next (s.run (fun m => m.onCoreTimer (.irqTime gqp.val) (fun m => match m.base.qpOwner gqp.val with
    | some (sl, q) => m.ringMessage sl q gqp.val
    | none => m)))

/-- MSI_UNMASK (R178): the host clears the mask of a vector, or of the function; a pending message is sent once. -/
def execMsiUnmask (p : Fin 8) (vector : Option (Fin 2048)) (s : State) : Answer :=
  .next (s.run (fun m => if m.cfgAlive && m.base.fnThere p.val then m.msiUnmask p.val (vector.map Fin.val) else m))

/-- BME_CLEAR (R179, R211): Bus Master Enable of a control endpoint is cleared. -/
def execBmeClear (p : Fin 8) (s : State) : Answer :=
  .next (s.run (fun m => if m.cfgAlive && m.base.fnThere p.val then m.bmeClear p.val else m))

/-- BME_SET (R179): Bus Master Enable of a control endpoint is set. -/
def execBmeSet (p : Fin 8) (s : State) : Answer :=
  .next (s.run (fun m => if m.cfgAlive && m.base.fnThere p.val then m.bmeSet p.val else m))

/-- FUNCTION_LEVEL_RESET (R180, R212). -/
def execFunctionLevelReset (p : Fin 8) (s : State) : Answer :=
  .next (s.run (fun m => if m.cfgAlive && m.base.fnThere p.val then m.flr p.val else m))

/-- UPSTREAM_LINK_RESET (R180, R216): a hot reset reaches a partition's upstream port. -/
def execUpstreamLinkReset (p : Fin 8) (s : State) : Answer :=
  .next (s.run (fun m => if m.cfgAlive && m.base.fnThere p.val then m.upstreamReset p.val else m))

/-- RESET_DRAIN_EXPIRY (R212): the wait for outstanding host reads ends. -/
def execResetDrainExpiry (p : Fin 8) (s : State) : Answer :=
  .next (s.run (fun m => m.onCoreTimer (.resetDrain p.val) (fun m => m.drainEnd p.val)))

/-- POWER_STATE_WRITE (R156): the control endpoint moves to D3hot or to D0. -/
def execPowerStateWrite (p : Fin 8) (d3hot : Bool) (s : State) : Answer :=
  .next (s.run (fun m => m.powerState p.val d3hot))

/-- The index of the function that a configuration command names. -/
def fnIndex (f : CfgFn) : Nat := cfgIndex f

/-- CONFIGURATION_WRITE (R154-R156, R175, R201, R307): a host writes a word of a function under byte enables. -/
def execConfigurationWrite (fn : CfgFn) (off : Nat) (value : W32) (enables : Fin 16) (s : State) : Answer :=
  .next (s.run (fun m => m.hostCfgWrite (fnIndex fn) off value.toNat enables.val))

end Sys2Proof.Machine
end

