-- ==== Sys2Proof/Machine/ExecSlices.lean ====
section
/-! DEFINITION. The meanings of the commands of slice management, guards and memory ordering. -/

namespace Sys2Proof.Machine

/-! ### Slices (R182-R198) -/

/-- CREATE (R183, R185). -/
def execCreate (s : State) : Answer := .next (s.run (fun m => m.onCore Mod.ctlCreate))
/-- QUIESCE (R185, R190). -/
def execQuiesce (s : State) : Answer := .next (s.run (fun m => m.onCore Mod.ctlQuiesce))
/-- RESET (R185). -/
def execReset (s : State) : Answer := .next (s.run (fun m => m.onCore Mod.ctlReset))
/-- REMOVE (R185, R189). -/
def execRemove (s : State) : Answer := .next (s.run (fun m => m.onCore Mod.ctlRemove))
/-- FREEZE (R193). -/
def execFreeze (s : State) : Answer := .next (s.run (fun m => m.onCore Mod.ctlFreeze))
/-- SAVE (R194, R195). -/
def execSave (s : State) : Answer := .next (s.run (fun m => m.onCore Mod.ctlSave))
/-- RESTORE (R196). -/
def execRestore (s : State) : Answer := .next (s.run (fun m => m.onCore Mod.ctlRestore))
/-- THAW (R197). -/
def execThaw (s : State) : Answer := .next (s.run (fun m => m.onCore Mod.ctlThaw))
/-- SCRUB (R189). -/
def execScrub (s : State) : Answer := .next (s.run (fun m => m.onCore Mod.ctlScrub))

/-- SCRUB_COMPLETE (R189): the scrub walk ends, within 10 ms. -/
def execScrubComplete (slice : Fin 1024) (s : State) : Answer :=
  .next (s.run (fun m => m.onCoreTimer (.scrub slice.val) (fun m => m.scrubDone slice.val)))

/-- BLOB_WRITE_COMPLETION (R195): the blob write of a SAVE ends. -/
def execBlobWriteCompletion (status : CplStatus) (s : State) : Answer :=
  .next (s.run (fun m => m.onCore (fun m => m.blobWritten status)))

/-- BLOB_READ_COMPLETION (R196): a blob read of a RESTORE ends. -/
def execBlobReadCompletion (cpl : Cpl) (s : State) : Answer :=
  .next (s.run (fun m => m.onCore (fun m => m.answered .blob cpl)))

/-- SLICE_AT_REST (R190, R193): a slice that comes to rest has nothing left in flight. -/
def execSliceAtRest (slice : Fin 1024) (s : State) : Answer :=
  .next (s.run (fun m => m.onCore (fun m => m.sliceAtRest slice.val)))

/-- QUIESCE_LIMIT_EXPIRY (R190). -/
def execQuiesceLimitExpiry (slice : Fin 1024) (s : State) : Answer :=
  .next (s.run (fun m => m.onCoreTimer (.quiesceLimit slice.val) (fun m => m.restLimit slice.val)))

/-- FREEZE_DEADLINE (R193). -/
def execFreezeDeadline (slice : Fin 1024) (s : State) : Answer :=
  .next (s.run (fun m => m.onCoreTimer (.freezeDeadline slice.val) (fun m => m.freezeLate slice.val)))

/-- SLICE_FAULT (R192). -/
def execSliceFault (slice : Fin 1024) (s : State) : Answer :=
  .next (s.run (fun m => m.onCore (fun m => m.fault slice.val)))

/-! ### Guards (R138-R152) -/

/-- GRD_COMMIT_GO (R148, R149). -/
def execGrdCommitGo (who : Who) (v : W32) (s : State) : Answer :=
  .next (s.run (fun m => m.rowWrite who Reg.GRD_COMMIT false v.toNat))

/-- GUARD_COMMIT_DONE (R148): a commit ends, within 2 µs. -/
def execGuardCommitDone (s : State) : Answer :=
  .next (s.run (fun m => m.onCoreTimer .guardCommit Mod.commitDone))

/-- GUARD_RULE_WRITE (R145, R147): a staged word of a rule is written; `off` counts its words. -/
def execGuardRuleWrite (who : Who) (g : Fin 41) (r : Fin 64) (off : Fin 8) (wide : Bool) (v : W64) (s : State) : Answer :=
  .next (s.run (fun m => m.rowWrite who (Reg.GRD_RULE_BASE g.val r.val + 4 * off.val) wide v.toNat))

/-- GUARD_PARITY_ERROR (R152). -/
def execGuardParityError (g : Fin 41) (s : State) : Answer :=
  .next (s.run (fun m => m.onCore (fun m => { m with base := m.base.guardParity g.val })))

/-- DEBUG_ACCESS (R141, R146): the debug master reads or writes. -/
def execDebugAccess (isWrite : Bool) (addr : Nat) (wide : Bool) (v : W64) (s : State) : Answer :=
  .next (s.run (fun m => m.debugAccess isWrite addr wide v.toNat))

/-! ### Ordering (R122-R137) -/

/-- PARK_WINDOW_STORE (R128): a host store to the park window. -/
def execParkWindowStore (p : Fin 8) (pasid : Option (Fin 1048576)) (off : Nat) (data : List Byte) (s : State) : Answer :=
  .next (s.run (fun m => m.onCore (fun m => m.bar2Store p.val (pasid.map Fin.val) off data false false)))

/-- PARK_WINDOW_LOAD (R129): a host read, AtomicOp or poisoned write of the park window, or a control-window access. -/
def execParkWindowLoad (p : Fin 8) (pasid : Option (Fin 1048576)) (acc : PathAccess) (s : State) : Answer :=
  .next (s.run (fun m => m.onCore (fun m => m.bar2Access p.val (pasid.map Fin.val) acc)))

/-- MERGE_WINDOW_EXPIRY (R129): 1 µs has passed since a path's oldest line was opened. -/
def execMergeWindowExpiry (p : Fin 8) (s : State) : Answer :=
  .next (s.run (fun m => m.onCoreTimer (.mergeWindow p.val) (fun m =>
    m.drainWhere p.val (fun l => decide (l.openedAt + us ≤ m.base.now)))))

/-- SLC_FENCE_GO (R134). -/
def execSlcFenceGo (who : Who) (slice : Fin 1024) (v : W32) (s : State) : Answer :=
  .next (s.run (fun m => m.rowWrite who (Reg.SLC_FENCE slice.val) false v.toNat))

/-- LOAD_RESERVED (R135): a read of SLC_RSV_LR. -/
def execLoadReserved (who : Who) (slice : Fin 1024) (s : State) : Answer :=
  .next (s.run (fun m => m.rowRead who (Reg.SLC_RSV_LR slice.val) true))

/-- CONDITIONAL_STORE (R136): a read of SLC_RSV_SC. -/
def execConditionalStore (who : Who) (slice : Fin 1024) (s : State) : Answer :=
  .next (s.run (fun m => m.rowRead who (Reg.SLC_RSV_SC slice.val) false))

/-- RSV_ADDR_WRITE (R137): a write of SLC_RSV_ADDR takes the slice's reservation away. -/
def execRsvAddrWrite (who : Who) (slice : Fin 1024) (off : Fin 2) (wide : Bool) (v : W64) (s : State) : Answer :=
  .next (s.run (fun m => m.rowWrite who (Reg.SLC_RSV_ADDR slice.val + 4 * off.val) wide v.toNat))

/-- RESERVATION_EXPIRY (R137): 100 µs have passed since the load-reserved. -/
def execReservationExpiry (slice : Fin 1024) (s : State) : Answer :=
  .next (s.run (fun m => m.onCoreTimer (.reservation slice.val) (fun m => m.loseRsv (fun r => r.slice == slice.val) 3)))

end Sys2Proof.Machine
end

