-- ==== Sys2Proof/Machine/ExecHod.lean ====
section
/-! DEFINITION. The meanings of the commands of the hods, and of the reads that the module issues. -/

namespace Sys2Proof.Machine

/-- HOD_GO (R103, R104): HOD_CH_CTL.go is written 1. -/
def execHodGo (who : Who) (h : Fin 16) (c : Fin 64) (s : State) : Answer :=
  .next (s.run (fun m => m.rowWrite who (Reg.HOD_CH_CTL h.val c.val) false 1))

/-- HOD_ABORT (R118): HOD_CH_CTL.abort is written 1, with go or without. -/
def execHodAbort (who : Who) (h : Fin 16) (c : Fin 64) (go : Bool) (s : State) : Answer :=
  .next (s.run (fun m => m.rowWrite who (Reg.HOD_CH_CTL h.val c.val) false (2 + b2n go)))

/-- HOD_SHADOW_WRITE (R119): a shadow register other than seal is written, at an offset in the channel's shadow set. -/
def execHodShadowWrite (who : Who) (h : Fin 16) (c : Fin 64) (off : Nat) (wide : Bool) (v : W64) (s : State) : Answer :=
  .next (s.run (fun m => if off < 0x30 then m.rowWrite who (Reg.HOD_CH_SH_SRC h.val c.val + off) wide v.toNat else m))

/-- HOD_SEAL_WRITE (R119). -/
def execHodSealWrite (who : Who) (h : Fin 16) (c : Fin 64) (v : W32) (s : State) : Answer :=
  .next (s.run (fun m => m.rowWrite who (Reg.HOD_CH_SH_SEAL h.val c.val) false v.toNat))

/-- HOD_HOLD_WRITE (R121). -/
def execHodHoldWrite (who : Who) (h : Fin 16) (v : W32) (s : State) : Answer :=
  .next (s.run (fun m => m.rowWrite who (Reg.HOD_CTL h.val) false v.toNat))

/-- HOD_PICK (R107): a free hod picks the earliest-latched channel. -/
def execHodPick (h : Fin 16) (s : State) : Answer := .next (s.run (fun m => m.onCore (fun m => m.hodPick h.val)))

/-- HOD_RESERVATION_ADMIT (R113): a read that waits for its completion cells is tried again. -/
def execHodReservationAdmit (h : Fin 16) (s : State) : Answer := .next (s.run (fun m => m.onCore (fun m => m.pump h.val)))

/-- HOD_READ_COMPLETION (R114, R116): a read of a hod completes under its tag. -/
def execHodReadCompletion (h : Fin 16) (tag : Nat) (cpl : Cpl) (s : State) : Answer :=
  .next (s.run (fun m => m.onCore (fun m =>
    match m.tags.find? (fun t => t.tag == tag && (match t.owner with
      | some (.hod g _) => g == h.val
      | _ => false)) with
    | some { owner := some o, .. } => m.ownerDone o cpl
    | _ => { m with base := m.base.late h.val tag (hodStatus cpl.status).1 })))

/-- RETRY_GAP_EXPIRY (R116): the gap before a retry has passed. -/
def execRetryGapExpiry (h : Fin 16) (s : State) : Answer :=
  .next (s.run (fun m => match m.hod.run h.val with
    | some r => m.onCoreTimer (.retryGap h.val r.c) (fun m => m.retry h.val)
    | none => m))

/-- HOD_FLUSH_COMPLETION (R114, R115). -/
def execHodFlushCompletion (h : Fin 16) (status : CplStatus) (s : State) : Answer :=
  .next (s.run (fun m => m.onCore (fun m => m.flushDone h.val status)))

/-- COMPLETION_TIMEOUT (R208, R210): a read of the module's own times out. -/
def execCompletionTimeout (port : Fin 64) (tag : Nat) (s : State) : Answer :=
  .next (s.run (fun m => m.onCoreTimer (.cplTimeout port.val tag) (fun m => m.readTimedOut port.val tag)))

/-- TAG_QUARANTINE_EXPIRY (R210). -/
def execTagQuarantineExpiry (port : Fin 64) (tag : Nat) (s : State) : Answer :=
  .next (s.run (fun m => m.onCoreTimer (.quarantine port.val tag) (fun m => m.tagBack port.val tag)))

/-- LATE_COMPLETION (R210-R213): a completion that no work waits for arrives. -/
def execLateCompletion (port : Fin 64) (tag : Nat) (header : List W32) (s : State) : Answer :=
  .next (s.run (fun m => m.onCore (fun m => m.lateCpl port.val tag header)))

end Sys2Proof.Machine
end

