-- ==== Sys2Proof/Machine/ExecPark.lean ====
section
/-! DEFINITION. The meanings of the commands of the park store, shelf wake and park DRAM. -/

namespace Sys2Proof.Machine

/-! ### Ingest and admission (R81, R84) -/

/-- INGEST_COMPLETION (R84): a host read for ingest completes. -/
def execIngestCompletion (entry off : Nat) (cpl : Cpl) (s : State) : Answer :=
  .next (s.run (fun m => m.onCore (fun m => m.answered (.ingest entry off) cpl)))

/-- ADMISSION_RESUME (R81): admissions that wait try again. -/
def execAdmissionResume (s : State) : Answer := .next (s.run (fun m => m.onCore Mod.admissionResume))

/-- The admission wait that ends first. -/
def Mod.firstWait (m : Mod) : Option (AdmWait × Nat) :=
  m.prk.waits.foldl (fun (best : Option (AdmWait × Nat)) w =>
    match m.base.due (.admissionWait w.desc), best with
    | some d, some (_, e) => if d < e then some (w, d) else best
    | some d, none => some (w, d)
    | none, _ => best) none

/-- ADMISSION_WAIT_EXPIRY (R81): the wait of the admission whose deadline comes first has run out. -/
def execAdmissionWaitExpiry (s : State) : Answer :=
  .next (s.run (fun m => match m.firstWait with
    | some (w, _) => m.onCoreTimer (.admissionWait w.desc) (fun m => m.admissionExpired w)
    | none => m))

/-- ENTRY_EXPIRY (R84): a retain-mode entry's age passes expire_s. -/
def execEntryExpiry (entry : Nat) (s : State) : Answer :=
  .next (s.run (fun m => m.onCoreTimer (.entryExpiry entry) (fun m => m.expire entry)))

/-- PEEK_GO (R80): PRK_PEEK_IDX is written. -/
def execPeekGo (who : Who) (v : W32) (s : State) : Answer :=
  .next (s.run (fun m => m.rowWrite who Reg.PRK_PEEK_IDX false v.toNat))

/-! ### The wake plan (R89-R92) -/

/-- Something of R91 came about that runs the plan. -/
def Mod.planNow (m : Mod) : Mod := { m with prk := { m.prk with planDue := true } }

/-- PLAN_TICK (R91): the plan runs. -/
def execPlanTick (s : State) : Answer := .next (s.run (fun m => m.onCore Mod.planNow))

/-- BATCH_WINDOW_EXPIRY (R91): the oldest entry of a slot has waited batch_s. -/
def execBatchWindowExpiry (slot : Fin 56) (s : State) : Answer :=
  .next (s.run (fun m => m.onCoreTimer (.batch slot.val) Mod.planNow))

/-- PROMOTE_EXPIRY (R91): a slot has waited promote_s. -/
def execPromoteExpiry (slot : Fin 56) (s : State) : Answer :=
  .next (s.run (fun m => m.onCoreTimer (.promote slot.val) (fun m => m.planNow)))

/-- LEDGER_BUDGET_WRITE (R89, R91). -/
def execLedgerBudgetWrite (who : Who) (v : W32) (s : State) : Answer :=
  .next (s.run (fun m => m.rowWrite who Reg.PRK_LEDGER_BUDGET false v.toNat))

/-- SHELF_PIN_WRITE (R91): PRK_SHELF_CTL is written. -/
def execShelfPinWrite (who : Who) (slot : Fin 56) (v : W32) (s : State) : Answer :=
  .next (s.run (fun m => m.rowWrite who (Reg.PRK_SHELF_CTL slot.val) false v.toNat))

/-- WAKE_NOW (R91): PRK_SHELF_CTL.wake_now is written 1, pin as it stands. -/
def execWakeNow (who : Who) (slot : Fin 56) (s : State) : Answer :=
  .next (s.run (fun m =>
    m.rowWrite who (Reg.PRK_SHELF_CTL slot.val) false (2 + b2n (m.base.isSet (Reg.PRK_SHELF_CTL slot.val) F.PRK_SHELF_CTL_pin))))

/-- CLEAR_FAIL (R95): PRK_SHELF_CTL.clear_fail is written 1, pin as it stands. -/
def execClearFail (who : Who) (slot : Fin 56) (s : State) : Answer :=
  .next (s.run (fun m =>
    m.rowWrite who (Reg.PRK_SHELF_CTL slot.val) false (4 + b2n (m.base.isSet (Reg.PRK_SHELF_CTL slot.val) F.PRK_SHELF_CTL_pin))))

/-! ### A shelf's power and link (R93-R96) -/

/-- A shelf's power-good line, which the plinth sees whatever the die does. -/
def Mod.pgLine (m : Mod) (n : Nat) (pg : Bool) (f : Mod → Mod) : Mod :=
  if m.pl.dieOn && m.base.stage != 8 && m.base.coreOn then f m
  else { m with prk := m.prk.setSlot { (m.prk.slot n) with pg := pg } }

/-- SHELF_PG_ASSERT (R94 step 2). -/
def execShelfPgAssert (slot : Fin 56) (s : State) : Answer :=
  .next (s.run (fun m => m.pgLine slot.val true (fun m => m.pgAssert slot.val)))

/-- SHELF_PG_DEASSERT (R94 step 8, R95, R96). -/
def execShelfPgDeassert (slot : Fin 56) (s : State) : Answer :=
  .next (s.run (fun m => m.pgLine slot.val false (fun m => m.pgDeassert slot.val)))

/-- PERST_RELEASE_EXPIRY (R94 step 3): 100 ms after SHELF_PG_n. -/
def execPerstReleaseExpiry (slot : Fin 56) (s : State) : Answer :=
  .next (s.run (fun m => m.onCoreTimer (.perstRelease slot.val) (fun m => m.perstOff slot.val)))

/-- SHELF_LINK_UP (R94 step 4): the shelf's link reaches L0. -/
def execShelfLinkUp (came : SlotLink) (s : State) : Answer :=
  .next (s.run (fun m => m.onCore (fun m => m.slotLinkUp came.slot.val came.link m.mayTrain)))

/-- SHELF_LINK_DOWN (R95): the shelf's link leaves L0 and L1. -/
def execShelfLinkDown (slot : Fin 56) (s : State) : Answer :=
  .next (s.run (fun m => m.onCore (fun m => m.slotLinkDown slot.val)))

/-- READY_DELAY_EXPIRY (R94 step 5). -/
def execReadyDelayExpiry (slot : Fin 56) (s : State) : Answer :=
  .next (s.run (fun m => m.onCoreTimer (.readyDelay slot.val) (fun m => m.shelfReady slot.val)))

/-- READY_POLL_TIMER (R94 step 5): the shelf is polled. -/
def execReadyPollTimer (slot : Fin 56) (s : State) : Answer :=
  .next (s.run (fun m => m.onCoreTimer (.readyPoll slot.val) (fun m => m.pollShelf slot.val)))

/-- READY_POLL_COMPLETION (R94 step 5). -/
def execReadyPollCompletion (slot : Fin 56) (cpl : Cpl) (s : State) : Answer :=
  .next (s.run (fun m => m.onCore (fun m => m.answered (.poll slot.val) cpl)))

/-- SWEEP_FLUSH_COMPLETION (R84, R86). -/
def execSweepFlushCompletion (entry : Nat) (status : CplStatus) (s : State) : Answer :=
  .next (s.run (fun m => m.onCore (fun m => m.answered (.sweepFlush entry) ⟨status, []⟩)))

/-- SWEEP_READ_COMPLETION (R86): a shelf read for a park read completes. -/
def execSweepReadCompletion (entry off : Nat) (cpl : Cpl) (s : State) : Answer :=
  .next (s.run (fun m => m.onCore (fun m => m.answered (.sweepRead entry off) cpl)))

/-- REFETCH_COMPLETION (R87): a host read for an evicted write completes. -/
def execRefetchCompletion (entry off : Nat) (cpl : Cpl) (s : State) : Answer :=
  .next (s.run (fun m => m.onCore (fun m => m.answered (.refetch entry off) cpl)))

/-- SWEEP_HOLD_EXPIRY (R101): the 2 ms of a slice's sweep entries have passed. -/
def execSweepHoldExpiry (slice : Fin 1024) (s : State) : Answer :=
  .next (s.run (fun m => m.onCoreTimer (.sweepHold slice.val) (fun m => m.sweepHoldDone slice.val)))

/-- IDLE_HOLD_EXPIRY (R92). -/
def execIdleHoldExpiry (slot : Fin 56) (s : State) : Answer :=
  .next (s.run (fun m => m.onCoreTimer (.idleHold slot.val) (fun m => m.idleDone slot.val)))

/-- PWRREQ_RELEASE_EXPIRY (R94 step 7, R353): 1 ms after SHELF_PERST_n# asserted; with the die off the plinth just drops the line. -/
def execPwrreqReleaseExpiry (slot : Fin 56) (s : State) : Answer :=
  .next (s.run (fun m => m.onTimer (.pwrreqRelease slot.val) (fun m =>
    if m.pl.dieOn && m.base.coreOn then m.pwrreqOff slot.val
    else { m with prk := m.prk.setSlot { (m.prk.slot slot.val) with pwrreq := false } })))

/-- MIN_OFF_EXPIRY (R94 step 9, R95). -/
def execMinOffExpiry (slot : Fin 56) (s : State) : Answer :=
  .next (s.run (fun m => m.onCoreTimer (.minOff slot.val) (fun m => m.minOffDone slot.val)))

/-- PG_TIMEOUT (R95): SHELF_PG_n did not assert in time. -/
def execPgTimeout (slot : Fin 56) (s : State) : Answer :=
  .next (s.run (fun m => m.onCoreTimer (.pgTimeout slot.val) (fun m => m.wakeFailure slot.val)))

/-- LINK_TIMEOUT (R95): the link did not reach L0 in time. -/
def execLinkTimeout (slot : Fin 56) (s : State) : Answer :=
  .next (s.run (fun m => m.onCoreTimer (.linkTimeout slot.val) (fun m => m.wakeFailure slot.val)))

/-- READY_TIMEOUT (R95): the shelf did not report ready in time. -/
def execReadyTimeout (slot : Fin 56) (s : State) : Answer :=
  .next (s.run (fun m => m.onCoreTimer (.readyTimeout slot.val) (fun m => m.wakeFailure slot.val)))

/-- PG_OFF_TIMEOUT (R96): SHELF_PG_n is still asserted. -/
def execPgOffTimeout (slot : Fin 56) (s : State) : Answer :=
  .next (s.run (fun m => m.onCoreTimer (.pgOff slot.val) (fun m => m.pgStuck slot.val)))

/-! ### Park DRAM (R85, R99, R385, R386) -/

/-- DRAM_UNCORRECTABLE_ERROR (R85, R99, R130). -/
def execDramUncorrectableError (addr : Nat) (tableBoth : Bool) (s : State) : Answer :=
  .next (s.run (fun m => m.onCore (fun m => m.dramError addr tableBoth)))

/-- DRAM_CORRECTED_ERROR (R99, R386). -/
def execDramCorrectedError (c : Fin 8) (s : State) : Answer :=
  .next (s.run (fun m => m.onCore (fun m => m.corrected c.val)))

/-- PATROL_SCRUB (R99). -/
def execPatrolScrub (corrected : List (Fin 8)) (bad : List Nat) (s : State) : Answer :=
  .next (s.run (fun m => m.onCore (fun m => m.patrol (corrected.map Fin.val) bad)))

/-- DRAM_CHANNEL_FAILURE (R385): a channel fails in training, or in service. -/
def execDramChannelFailure (c : Fin 8) (_training : Bool) (s : State) : Answer :=
  .next (s.run (fun m => m.onCore (fun m => m.channelFail c.val)))

/-- SRAM_UNCORRECTABLE_ERROR (R85, R299). -/
def execSramUncorrectableError (kind : SramKind) (s : State) : Answer :=
  .next (s.run (fun m => m.onCore (fun m => { m with base := m.base.sramError kind })))

end Sys2Proof.Machine
end

