-- ==== Sys2Proof/Machine/ExecPorts.lean ====
section
/-! DEFINITION. The meanings of the commands of the PCI Express ports, lanes and tiles. -/

namespace Sys2Proof.Machine

/-! ### Ports (R199-R223) -/

/-- PORT_LINK_UP (R199, R207, R214, R219): a PCI Express link comes up. -/
def execPortLinkUp (p : Fin 64) (width rate : Nat) (modes : LinkModes) (s : State) : Answer :=
  .next (s.run (fun m => m.onCore (fun m =>
    if m.mayTrain p.val then m.portUp p.val { modes with width := width, rate := rate } else m)))

/-- PORT_LINK_DOWN (R95, R180, R244, R296): a PCI Express link goes down, to Loopback where its partner has become a loopback master. -/
def execPortLinkDown (went : LinkLoss) (s : State) : Answer :=
  .next (s.run (fun m => m.onCore (fun m =>
    let m := m.portDown went.port.val
    if went.loopback then m.loopbackSlave went.port.val else m)))

/-- DPC_TRIGGER (R217): a trigger that the host has enabled. -/
def execDpcTrigger (error : LinkError) (s : State) : Answer :=
  .next (s.run (fun m => m.onCore (fun m => m.linkError error.port.val (dpcBit error.cause) [])))

/-- PORT_CONTAIN (R217): PRT_CTL is written. -/
def execPortContain (who : Who) (p : Fin 64) (v : W32) (s : State) : Answer :=
  .next (s.run (fun m => m.rowWrite who (Reg.PRT_CTL p.val) false v.toNat))

/-- PORT_RELEASE (R219): PRT_CTL is written. -/
def execPortRelease (who : Who) (p : Fin 64) (v : W32) (s : State) : Answer :=
  .next (s.run (fun m => m.rowWrite who (Reg.PRT_CTL p.val) false v.toNat))

/-- DPC_STATUS_CLEAR (R219): the host clears DPC Trigger Status. -/
def execDpcStatusClear (p : Fin 64) (s : State) : Answer :=
  .next (s.run (fun m => if m.cfgAlive then m.dpcClear p.val else m))

/-- SLOT_PRESENT_WRITE (R215): PRT_SLOT is written. -/
def execSlotPresentWrite (who : Who) (p : Fin 64) (v : W32) (s : State) : Answer :=
  .next (s.run (fun m => m.rowWrite who (Reg.PRT_SLOT p.val) false v.toNat))

/-- SECONDARY_BUS_RESET (R216): the host sets or clears it on a shelf's virtual port. -/
def execSecondaryBusReset (p : Fin 64) (set : Bool) (s : State) : Answer :=
  .next (s.run (fun m => if m.cfgAlive then m.busReset p.val set else m))

/-- MC_RECEIVE_WRITE (R206): the host writes an MC_Receive bit. -/
def execMcReceiveWrite (p : Fin 64) (group : Fin 64) (v : Bool) (s : State) : Answer :=
  .next (s.run (fun m => if m.cfgAlive then m.mcReceive p.val group.val v else m))

/-- L1_IDLE_EXPIRY (R221): an upstream link has been idle for l1_idle_us. -/
def execL1IdleExpiry (p : Fin 64) (s : State) : Answer :=
  .next (s.run (fun m => m.onCoreTimer (.l1Idle p.val) (fun m => m.l1Expiry p.val)))

/-- Does HOST_PERST_k# act: partition k's upstream port is on T0-T23 (R365)? -/
def Base.perstActs (b : Base) (k : Nat) : Bool :=
  match b.upstreamPort k with
  | some p => (b.tilesOf p).any (fun t => decide (t < 24))
  | none => false

/-- HOST_PERST_ASSERT (R223, R365): a link-down reset of the port; on the held port a wake event as well. -/
def execHostPerstAssert (k : Fin 8) (s : State) : Answer :=
  .next (s.run (fun m =>
    let m := { m with pl := { m.pl with hostReset := m.pl.hostReset.filter (· != k.val) } }
    m.onDie (fun m =>
      if !m.base.perstActs k.val then m
      else
        let held := m.base.heldPort.isSome && m.base.heldPort == m.base.upstreamPort k.val
        (if held then m.wakeEvent 1 else m).onCore (fun m => m.perstDown k.val))))

/-- HOST_PERST_DEASSERT (R332, R365): the port starts to train. -/
def execHostPerstDeassert (k : Fin 8) (s : State) : Answer :=
  .next (s.run (fun m =>
    let m := { m with pl := { m.pl with hostReset := m.pl.hostReset.filter (· != k.val) ++ [k.val] } }
    m.onCore (fun m => if m.base.perstActs k.val then m.perstUp k.val else m)))

/-! ### Lanes and tiles (R224-R246) -/

/-- SIGNAL_DETECT (R238, R240). -/
def execSignalDetect (lane : Fin 256) (s : State) : Answer :=
  .next (s.run (fun m => m.onCore (fun m => m.signalDetect lane.val)))

/-- ADAPTATION_DONE (R238). -/
def execAdaptationDone (lane : Fin 256) (lock : Bool) (coarse : List (List SubEye)) (again : List SubEye) (beside : List (List SubEye))
    (taps : List Byte) (scan : List SubEye) (s : State) : Answer :=
  .next (s.run (fun m => m.onCore (fun m => m.adaptDone lane.val ⟨lock, coarse, again, beside, taps, scan⟩)))

/-- EYE_MEASUREMENT_DONE (R237, R240). -/
def execEyeMeasurementDone (lane : Fin 256) (scan : List SubEye) (taps : List Byte) (s : State) : Answer :=
  .next (s.run (fun m => m.onCore (fun m => { m with base := m.base.eyeDone lane.val scan taps })))

/-- TX_COEF_WRITE (R234, R235). -/
def execTxCoefWrite (who : Who) (lane : Fin 256) (v : W32) (s : State) : Answer :=
  .next (s.run (fun m => m.rowWrite who (Reg.SER_TX_COEF lane.val) false v.toNat))

/-- TILE_TEST_WRITE (R242). -/
def execTileTestWrite (who : Who) (t : Fin 32) (v : W32) (s : State) : Answer :=
  .next (s.run (fun m => m.rowWrite who (Reg.SER_TILE_CTL t.val) false v.toNat))

/-- CAMTEX_RATE_WRITE (R265). -/
def execCamtexRateWrite (who : Who) (t : Fin 32) (v : W32) (s : State) : Answer :=
  .next (s.run (fun m => m.rowWrite who (Reg.SER_TILE_CFG t.val) false v.toNat))

/-- MARGIN_COMMAND (R245). -/
def execMarginCommand (lane : Fin 256) (cmd : MarginCmd) (s : State) : Answer :=
  .next (s.run (fun m => m.onCore (fun m => m.marginCommand lane.val cmd)))

/-- TILE_GATE (R246). -/
def execTileGate (t : Fin 32) (s : State) : Answer := .next (s.run (fun m => m.onCore (fun m => m.tileGate t.val)))

/-- TILE_UNGATE (R246). -/
def execTileUngate (t : Fin 32) (s : State) : Answer :=
  .next (s.run (fun m => m.onCore (fun m => { m with base := m.base.tileUngate t.val })))

/-- TILE_PLL_LOSS (R227). -/
def execTilePllLoss (t : Fin 32) (s : State) : Answer := .next (s.run (fun m => m.onCore (fun m => m.pllLoss t.val)))

/-- TILE_PLL_LOCK (R227, R332): tile PLLs start at stage LINKS. -/
def execTilePllLock (t : Fin 32) (s : State) : Answer :=
  .next (s.run (fun m => m.onCore (fun m =>
    if decide (3 ≤ m.base.stage) && decide (m.base.stage ≤ 6) then m.pllLock t.val else m)))

/-- PRBS_CHECKER_LOCK (R242-R244): bits come in on a lane, and its checker gains lock, counts errors or loses lock by them. -/
def execPrbsCheckerLock (lane : Fin 256) (bits : List Bool) (s : State) : Answer :=
  .next (s.run (fun m => m.onCore (fun m => m.lineBits lane.val bits)))

end Sys2Proof.Machine
end

