-- ==== Sys2Proof/Machine/ExecLink.lean ====
section
/-! DEFINITION. The meanings of the commands of the Camtex links. -/

namespace Sys2Proof.Machine

/-- FRAMING_LOSS (R229-R233): codewords arrive on a lane, and the one that completes 16 invalid headers in 64 blocks loses the framing. -/
def execFramingLoss (came : LaneWords) (s : State) : Answer :=
  .next (s.run (fun m => m.onCore (fun m => m.wordsIn came.lane.val came.words)))

/-- AM_RECEIVE (R229-R232, R250, R264 step 7): codewords arrive on a lane, and the block in its next alignment-marker slot is taken; the
AMs of the port's lanes came from block time `first` to block time `last`. -/
def execAmReceive (lane : Fin 256) (words : List (List (Fin 4))) (first last : Nat) (s : State) : Answer :=
  .next (s.run (fun m => m.onCore (fun m => ((m.wordsIn lane.val words).amTake lane.val).deskew lane.val (last - first))))

/-- FLIT_SEND (R254, R257, R258, R260). -/
def execFlitSend (k : Fin 8) (s : State) : Answer := .next (s.run (fun m => m.onCore (fun m => m.flitSend k.val)))

/-- FLIT_RECEIVE (R229-R232, R252, R253, R255, R257-R260): codewords arrive, each on one of the port's lanes, and the next flit of its stream is taken. -/
def execFlitReceive (k : Fin 8) (lanes : List (Fin 8)) (words : List (List (Fin 4))) (s : State) : Answer :=
  .next (s.run (fun m => m.onCore (fun m =>
    ((lanes.zip words).foldl (fun m w => m.wordIn (camLaneNo k.val w.1.val) w.2) m).flitTake k.val)))

/-- REPLAY_TIMER_EXPIRY (R260, R261). -/
def execReplayTimerExpiry (k : Fin 8) (s : State) : Answer :=
  .next (s.run (fun m => m.onCoreTimer (.replay k.val) (fun m => m.replayEnd k.val)))

/-- LR_RECEIVE (R262, R267). -/
def execLrReceive (k : Fin 8) (reason : Byte) (s : State) : Answer :=
  .next (s.run (fun m => m.onCore (fun m => m.lrIn k.val reason.toNat)))

/-- FAB_RESET (R262): FAB_CTL is written. -/
def execFabReset (who : Who) (k : Fin 8) (v : W32) (s : State) : Answer :=
  .next (s.run (fun m => m.rowWrite who (Reg.FAB_CTL k.val) false v.toNat))

/-- RESET_HOLD_EXPIRY (R264 step 3). -/
def execResetHoldExpiry (k : Fin 8) (s : State) : Answer :=
  .next (s.run (fun m => m.onCoreTimer (.resetHold k.val) (fun m => m.resetHoldEnd k.val)))

/-- TRAINING_RECORD_RECEIVE (R263): raw blocks arrive on a lane in training. -/
def execTrainingRecordReceive (k lane : Fin 8) (blocks : List (BitVec 66)) (s : State) : Answer :=
  .next (s.run (fun m => m.onCore (fun m => m.tsAll k.val lane.val blocks)))

/-- TUNE_SETTLE_EXPIRY (R266): the settle after a tuning step is over, with the quick index measured. -/
def execTuneSettleExpiry (k lane : Fin 8) (scan : List SubEye) (s : State) : Answer :=
  .next (s.run (fun m => m.onCoreTimer (.tuneSettle k.val lane.val) (fun m => m.tuneSettled k.val lane.val scan)))

/-- TUNE_TIMEOUT (R264 step 5). -/
def execTuneTimeout (k : Fin 8) (s : State) : Answer :=
  .next (s.run (fun m => m.onCoreTimer (.tune k.val) (fun m => m.tuneTimeout k.val)))

/-- TRAIN_TIMEOUT (R264). -/
def execTrainTimeout (k : Fin 8) (s : State) : Answer :=
  .next (s.run (fun m => m.onCoreTimer (.train k.val) (fun m => m.trainTimeout k.val)))

/-- BACKOFF_EXPIRY (R264). -/
def execBackoffExpiry (k : Fin 8) (s : State) : Answer :=
  .next (s.run (fun m => m.onCoreTimer (.backoff k.val) (fun m => m.backoffEnd k.val)))

/-- BLOCK_LOCK (R264 step 3): a receiver takes the headers of raw blocks. -/
def execBlockLock (k : Fin 8) (came : LaneHeaders) (s : State) : Answer :=
  .next (s.run (fun m => m.onCore (fun m => m.blockLock k.val came.lane.val came.headers)))

/-- WAKE_PATTERN_DETECT (R35, R268): a sleeping module sees a bond partner's wake pattern. -/
def execWakePatternDetect (k : Fin 8) (s : State) : Answer :=
  .next (s.run (fun m => m.onDie (fun m => if (m.base.camPort k.val).isSome then m.wakeEvent 5 else m)))

/-- WAKE_PATTERN_END (R284): the wake pattern that this module sends is over. -/
def execWakePatternEnd (k : Fin 8) (s : State) : Answer :=
  .next (s.run (fun m => m.onCoreTimer (.wakePattern k.val) (fun m => m.wakeSent k.val)))

/-- SLEEPER_SIGNAL_DETECT (R284): the sleeper's lanes show signal. -/
def execSleeperSignalDetect (k : Fin 8) (s : State) : Answer :=
  .next (s.run (fun m => m.onCore (fun m => m.sleeperSeen k.val)))

end Sys2Proof.Machine
end

