-- ==== Sys2Proof/Machine/ExecBond.lean ====
section
/-! DEFINITION. The meanings of the commands of bonds. -/

namespace Sys2Proof.Machine

/-- SEGMENT_RECEIVE (R270, R271, R274): a segment arrives on a Camtex port. -/
def execSegmentReceive (k : Fin 8) (seg : Segment) (s : State) : Answer :=
  .next (s.run (fun m => m.onCore (fun m => m.segmentIn k.val seg)))

/-- SYNC (R278): a stream starts afresh. -/
def execSync (k : Fin 8) (seg : Segment) (s : State) : Answer :=
  .next (s.run (fun m => m.onCore (fun m => m.syncRow k.val seg)))

/-- CACK_RECEIVE (R275, R276). -/
def execCackReceive (k : Fin 8) (seg : Segment) (s : State) : Answer :=
  .next (s.run (fun m => m.onCore (fun m => m.cackRow k.val seg)))

/-- CACK_DELAY_EXPIRY (R275): 1 µs after an acceptance that no CACK covers. -/
def execCackDelayExpiry (path : Fin 4096) (cls : SegClass) (s : State) : Answer :=
  .next (s.run (fun m => m.onCoreTimer (.cackDelay path.val cls) (fun m => m.cackDelayEnd path.val cls)))

/-- RESEND_INTERVAL_EXPIRY (R276). -/
def execResendIntervalExpiry (path : Fin 4096) (cls : SegClass) (s : State) : Answer :=
  .next (s.run (fun m => m.onCoreTimer (.resend path.val cls) (fun m => m.resendEnd path.val cls)))

/-- STREAM_TIMEOUT (R277): the oldest held segment has been held for 1 ms. -/
def execStreamTimeout (path : Fin 4096) (cls : SegClass) (s : State) : Answer :=
  .next (s.run (fun m => m.onCoreTimer (.stream path.val cls) (fun m => m.streamEnd path.val cls)))

/-- CANDIDATE (R279, R280). -/
def execCandidate (level : Fin 4) (term : Fin 65536) (prio : Byte) (serial : W64) (path : Fin 4096) (s : State) : Answer :=
  .next (s.run (fun m => m.onCore (fun m => m.candidateIn level.val term.val (prio.toNat, serial.toNat) path.val)))

/-- HEARTBEAT (R280, R281, R283). -/
def execHeartbeat (level : Fin 4) (term : Fin 65536) (prio : Byte) (serial : W64) (path : Fin 4096) (s : State) : Answer :=
  .next (s.run (fun m => m.onCore (fun m => m.heartbeatIn level.val term.val (prio.toNat, serial.toNat) path.val)))

/-- HEARTBEAT_ACK (R281, R282, R284). -/
def execHeartbeatAck (level : Fin 4) (ack : HbAck) (s : State) : Answer :=
  .next (s.run (fun m => m.onCore (fun m => m.ackIn level.val ack)))

/-- HEARTBEAT_TIMER (R280, R281). -/
def execHeartbeatTimer (level : Fin 4) (s : State) : Answer :=
  .next (s.run (fun m => m.onCoreTimer (.heartbeat level.val) (fun m => m.heartbeatTimer level.val)))

/-- ELECTION_COLLECT_EXPIRY (R280). -/
def execElectionCollectExpiry (level : Fin 4) (s : State) : Answer :=
  .next (s.run (fun m => m.onCoreTimer (.collect level.val) (fun m => m.collectEnd level.val)))

/-- KEYSTONE_LOSS_TIMEOUT (R280). -/
def execKeystoneLossTimeout (level : Fin 4) (s : State) : Answer :=
  .next (s.run (fun m => m.onCoreTimer (.ksLoss level.val) (fun m => m.ksLost level.val)))

/-- MEMBER_LOST (R277, R281, R291, R292). -/
def execMemberLost (path : Fin 4096) (s : State) : Answer := .next (s.run (fun m => m.onCore (fun m => m.memberLost path.val)))

/-- ORPHAN_EXPIRY (R292). -/
def execOrphanExpiry (entry : Nat) (s : State) : Answer :=
  .next (s.run (fun m => m.onCoreTimer (.orphan entry) (fun m => m.orphanEnd entry)))

/-- ALERT (R285, R289). -/
def execAlert (srcPath : Fin 4096) (srcPort : Fin 64) (level : Bool) (s : State) : Answer :=
  .next (s.run (fun m => m.onCore (fun m => m.alertIn srcPath.val srcPort.val level)))

/-- RESET_REQ (R216, R289). -/
def execResetReq (srcPath : Fin 4096) (port : Fin 64) (set : Bool) (s : State) : Answer :=
  .next (s.run (fun m => m.onCore (fun m => m.resetReqIn srcPath.val port.val set)))

/-- LINK_STATE (R214, R289). -/
def execLinkState (srcPath : Fin 4096) (srcPort : Fin 64) (present contained failed : Bool) (s : State) : Answer :=
  .next (s.run (fun m => m.onCore (fun m => m.linkStateIn srcPath.val srcPort.val present contained failed)))

/-- POWER_GOOD (R285, R289). -/
def execPowerGood (srcPath : Fin 4096) (srcPort : Fin 64) (pg : Bool) (s : State) : Answer :=
  .next (s.run (fun m => m.onCore (fun m => m.powerGoodIn srcPath.val srcPort.val pg)))

/-- WAKE_REQ (R284): whichever module asks, the keystone acts alike. -/
def execWakeReq (_srcPath : Fin 4096) (sleeper : Fin 4096) (s : State) : Answer :=
  .next (s.run (fun m => m.onCore (fun m => m.wakeReq sleeper.val)))

/-- ERR_REPORT (R290, R304). -/
def execErrReport (srcPath : Fin 4096) (cause : Fin 16) (origin : Fin 128) (header : List W32) (s : State) : Answer :=
  .next (s.run (fun m => m.onCore (fun m => m.errIn srcPath.val cause.val origin.val (header.map BitVec.toNat))))

/-- PARK (R98, R289, R292). -/
def execPark (srcPath : Fin 4096) (msg : ParkMsg) (s : State) : Answer :=
  .next (s.run (fun m => m.onCore (fun m => m.parkIn srcPath.val msg)))

/-- LEND_REQ (R285, R286). -/
def execLendReq (req : LendReq) (s : State) : Answer := .next (s.run (fun m => m.onCore (fun m => m.lendIn req)))

/-- LEND_GO (R285): BND_LEND_CTL is written. -/
def execLendGo (who : Who) (v : W32) (s : State) : Answer :=
  .next (s.run (fun m => m.rowWrite who Reg.BND_LEND_CTL false v.toNat))

/-- UNLEND_SETTLE_EXPIRY (R285). -/
def execUnlendSettleExpiry (s : State) : Answer := .next (s.run (fun m => m.onCoreTimer .unlendSettle (fun m => m.unlendEnd)))

/-- RT_WORD_WRITE (R293): a word of a routing entry is written. -/
def execRtWordWrite (who : Who) (entry : Fin 65536) (word : Fin 8) (v : W32) (s : State) : Answer :=
  .next (s.run (fun m => m.rowWrite who (rtOff entry.val word.val) false v.toNat))

/-- RT_ENTRY_COMMIT (R293): word 0 puts the staged entry into the table. -/
def execRtEntryCommit (who : Who) (entry : Fin 65536) (v : W32) (s : State) : Answer :=
  .next (s.run (fun m => m.rowWrite who (rtOff entry.val 0) false v.toNat))

/-- STREAM_PEEK (R272). -/
def execStreamPeek (who : Who) (v : W32) (s : State) : Answer :=
  .next (s.run (fun m => m.rowWrite who Reg.BND_STREAM_IDX false v.toNat))

end Sys2Proof.Machine
end

