-- ==== Sys2Proof/Machine/ExecRecover.lean ====
section
/-! DEFINITION. The meanings of the commands of recovery and of counters. -/

namespace Sys2Proof.Machine

/-- EVENT_STORM_END (R302). -/
def execEventStormEnd (group : Fin 32) (bit : Fin 32) (s : State) : Answer :=
  .next (s.run (fun m => m.onDie (fun m => { m with base := m.base.stormEnd group.val bit.val })))

/-- QUEUE_ENGINE_WATCHDOG (R308, R309). -/
def execQueueEngineWatchdog (p : Fin 8) (s : State) : Answer :=
  .next (s.run (fun m => m.onCore (fun m => m.queueWatchdog p.val)))

/-- PARK_ENGINE_WATCHDOG (R308, R309). -/
def execParkEngineWatchdog (e : Fin 4) (s : State) : Answer := .next (s.run (fun m => m.onCore (fun m => m.parkWatchdog e.val)))

/-- MGMT_CORE_WATCHDOG (R308, R309). -/
def execMgmtCoreWatchdog (c : Fin 4) (s : State) : Answer := .next (s.run (fun m => m.onCore (fun m => m.coreWatchdog c.val)))

/-- CSR_WATCHDOG_EXPIRY (R308, R327). -/
def execCsrWatchdogExpiry (who : Who) (off : Nat) (isWrite : Bool) (s : State) : Answer :=
  .next (s.run (fun m => m.onDie (fun m => ({ m with base := m.base.csrWatchdog who off isWrite } : Mod).agentHung who off isWrite)))

/-- PMC_RUN_WRITE (R315): PMC_GLOBAL is written. -/
def execPmcRunWrite (who : Who) (v : W32) (s : State) : Answer :=
  .next (s.run (fun m => m.rowWrite who Reg.PMC_GLOBAL false v.toNat))

/-- COUNTER_WRAP (R61, R317). -/
def execCounterWrap (off : Nat) (incr : Nat) (s : State) : Answer :=
  .next (s.run (fun m => m.onDie (fun m => { m with base := m.base.counterWrap off incr })))

/-- SAMPLE_POINT (R319, R320). -/
def execSamplePoint (off : Nat) (s : State) : Answer :=
  .next (s.run (fun m => m.onDie (fun m => { m with base := m.base.samplePoint off })))

end Sys2Proof.Machine
end

