-- ==== Sys2Proof/Machine/ExecReset.lean ====
section
/-! DEFINITION. The meanings of the commands of reset, boot, the lifecycle, stored images and M2. -/

namespace Sys2Proof.Machine

/-- CLK_RESET_WARM (R329): CLK_RESET is written. -/
def execClkResetWarm (who : Who) (v : W32) (s : State) : Answer :=
  .next (s.run (fun m => m.rowWrite who Reg.CLK_RESET false v.toNat))

/-- CLK_RESET_COLD (R329): CLK_RESET is written. -/
def execClkResetCold (who : Who) (v : W32) (s : State) : Answer :=
  .next (s.run (fun m => m.rowWrite who Reg.CLK_RESET false v.toNat))

/-- CLK_RESET_OFF (R343): CLK_RESET is written. -/
def execClkResetOff (who : Who) (v : W32) (s : State) : Answer :=
  .next (s.run (fun m => m.rowWrite who Reg.CLK_RESET false v.toNat))

/-- RESET_TAKEDOWN_EXPIRY (R298, R329, R330, R343, R359). -/
def execResetTakedownExpiry (s : State) : Answer := .next (s.run (fun m => m.onTimer .takedown (fun m => m.takedownEnd)))

/-- BLOCK_RESET (R331): CLK_BLK_RESET is written. -/
def execBlockReset (who : Who) (v : W32) (s : State) : Answer :=
  .next (s.run (fun m => m.rowWrite who Reg.CLK_BLK_RESET false v.toNat))

/-- BLOCK_RESET_DONE (R331). -/
def execBlockResetDone (s : State) : Answer :=
  .next (s.run (fun m => m.onCoreTimer .blockReset (fun m => { m with base := m.base.blkDone })))

/-- DRAM_TRAINING_DONE (R332 step 8, R385): which channels trained. -/
def execDramTrainingDone (cal : List Bool) (s : State) : Answer := .next (s.run (fun m => m.onDie (fun m => m.dramTrained cal)))

/-- WIPE_DONE (R332 step 10, R340). -/
def execWipeDone (s : State) : Answer := .next (s.run (fun m => m.onDie (fun m => m.wipeDone)))

/-- LIFECYCLE_COMMAND (R338, R339): CLK_LC_CMD is written. -/
def execLifecycleCommand (who : Who) (v : W32) (s : State) : Answer :=
  .next (s.run (fun m => m.rowWrite who Reg.CLK_LC_CMD false v.toNat))

/-- IMAGE_UPDATE_GO (R334): CLK_IMG_CTL is written. -/
def execImageUpdateGo (who : Who) (v : W32) (s : State) : Answer :=
  .next (s.run (fun m => m.rowWrite who Reg.CLK_IMG_CTL false v.toNat))

/-- IMAGE_UPDATE_DONE (R334). -/
def execImageUpdateDone (result : Fin 16) (s : State) : Answer :=
  .next (s.run (fun m => m.onDie (fun m => m.imgDone result.val)))

/-- CAL_SAVE (R335): CLK_CAL_CTL is written. -/
def execCalSave (who : Who) (v : W32) (s : State) : Answer :=
  .next (s.run (fun m => m.rowWrite who Reg.CLK_CAL_CTL false v.toNat))

/-- CAL_SAVE_DONE (R335). -/
def execCalSaveDone (s : State) : Answer := .next (s.run (fun m => m.onTimer .calSave (fun m => m.calSaved)))

/-- M2_ENTRY (R34, R341). -/
def execM2Entry (s : State) : Answer := .next (s.run (fun m => m.onCore (fun m => m.m2Entry)))

/-- WAKE_TIMER (R35). -/
def execWakeTimer (s : State) : Answer := .next (s.run (fun m => m.onDie (fun m => m.wakeTimer)))

/-- HELD_PORT_LEAVE_L12 (R35). -/
def execHeldPortLeaveL12 (s : State) : Answer := .next (s.run (fun m => m.onDie (fun m => m.heldPortWake)))

/-- HOST_TRAINING_START (R35). -/
def execHostTrainingStart (p : Fin 64) (s : State) : Answer := .next (s.run (fun m => m.onDie (fun m => m.hostTraining p.val)))

/-- CORE_PLL_LOSS (R298, R303, R324): fatal. -/
def execCorePllLoss (s : State) : Answer := .next (s.run (fun m => m.onDie (fun m => m.corePllLoss)))

/-- DRAM_CLOCK_LOSS (R298, R303, R324): fatal. -/
def execDramClockLoss (s : State) : Answer := .next (s.run (fun m => m.onDie (fun m => m.dramClockLoss)))

/-- FIRMWARE_CHECK_DONE (R332 step 4). -/
def execFirmwareCheckDone (check : SlotCheck) (s : State) : Answer :=
  .next (s.run (fun m => m.onDie (fun m => m.firmwareDone check)))

/-- IMAGE_CHECK_DONE (R332 step 5, R333). -/
def execImageCheckDone (img : ImageLoad) (s : State) : Answer := .next (s.run (fun m => m.onDie (fun m => m.imageDone img)))

end Sys2Proof.Machine
end

