-- ==== Sys2Proof/Machine/ExecPower.lean ====
section
/-! DEFINITION. The meanings of the commands of the power front end, which the plinth runs with or without the die. -/

namespace Sys2Proof.Machine

/-- PLINTH_POWER_UP (R344, R355, R360): the plinth has power again. -/
def execPlinthPowerUp (s : State) : Answer :=
  .next (if s.mod.pl.powered then s.run (fun m => m) else { s with mod := s.mod.settle ({ s.mod with base := { s.mod.base with out := [] } } : Mod).plinthUp })

/-- TELEMETRY_SAMPLE (R360). -/
def execTelemetrySample (v i t : Nat) (cages : List Nat) (s : State) : Answer :=
  .next (s.run (fun m => m.telemetry v i t cages))

/-- DIP_RESUME_EXPIRY (R348). -/
def execDipResumeExpiry (s : State) : Answer := .next (s.run (fun m => m.onTimer .dipResume (fun m => m.dipEnd)))

/-- SUPPLY_RESET_DETECT (R346, R348). -/
def execSupplyResetDetect (v : Nat) (s : State) : Answer := .next (s.run (fun m => m.supplyReset v))

/-- OVER_VOLTAGE_DETECT (R346, R353). -/
def execOverVoltageDetect (v : Nat) (s : State) : Answer := .next (s.run (fun m => m.overVoltage v))

/-- PRESENCE_CHANGE (R349, R355): the two presence pins as they now are. -/
def execPresenceChange (a b : Bool) (s : State) : Answer := .next (s.run (fun m => m.presence a b))

/-- INSERTION_DEBOUNCE_EXPIRY (R349). -/
def execInsertionDebounceExpiry (s : State) : Answer := .next (s.run (fun m => m.onTimer .debounce (fun m => m.debounceEnd)))

/-- INPUT_QUALIFIED (R349). -/
def execInputQualified (s : State) : Answer := .next (s.run (fun m => m.onTimer .inputQual (fun m => m.inputOk)))

/-- GATE_FULLY_ENHANCED (R350). -/
def execGateFullyEnhanced (s : State) : Answer := .next (s.run (fun m => m.gateFull))

/-- POWER_GOOD_QUALIFIED (R351, R332): the load has power, and the boot starts. -/
def execPowerGoodQualified (cal : CalLoad) (s : State) : Answer := .next (s.run (fun m => m.powerGood cal))

/-- INRUSH_TIMEOUT (R350). -/
def execInrushTimeout (s : State) : Answer := .next (s.run (fun m => m.onTimer .inrush (fun m => m.inrushEnd)))

/-- CURRENT_LIMIT_ENGAGE (R351, R352). -/
def execCurrentLimitEngage (s : State) : Answer := .next (s.run (fun m => m.limitOn))

/-- CURRENT_LIMIT_RELEASE (R351, R352). -/
def execCurrentLimitRelease (s : State) : Answer := .next (s.run (fun m => m.limitOff))

/-- LIMIT_TIMER_CLEAR (R352). -/
def execLimitTimerClear (s : State) : Answer := .next (s.run (fun m => m.onTimer .limitClear (fun m => m.limitClear)))

/-- FAULT_TIMER_EXPIRY (R352, R353). -/
def execFaultTimerExpiry (s : State) : Answer := .next (s.run (fun m => m.onTimer .faultTimer (fun m => m.faultEnd)))

/-- GATE_OFF_EXPIRY (R353). -/
def execGateOffExpiry (s : State) : Answer := .next (s.run (fun m => m.onTimer .gateOff (fun m => m.gateOffEnd)))

/-- FUSE_TRIP (R353). -/
def execFuseTrip (s : State) : Answer := .next (s.run (fun m => m.fuseTrip))

/-- RETRY_TIMER_EXPIRY (R354). -/
def execRetryTimerExpiry (s : State) : Answer := .next (s.run (fun m => m.onTimer .retry (fun m => m.retryEnd)))

/-- RETRY_COUNT_CLEAR (R354): POWER_GOOD has stayed asserted for 60 s. -/
def execRetryCountClear (s : State) : Answer :=
  .next (s.run (fun m => m.onTimer .retryClear (fun m => { m with base := m.base.retryCountClear })))

/-- POWER_ON_COMMAND (R343, R349): PWR_CTL is written. -/
def execPowerOnCommand (who : Who) (v : W32) (s : State) : Answer :=
  .next (s.run (fun m => m.rowWrite who Reg.PWR_CTL false v.toNat))

/-- RETRY_CLEAR (R354): PWR_CTL is written. -/
def execRetryClear (who : Who) (v : W32) (s : State) : Answer :=
  .next (s.run (fun m => m.rowWrite who Reg.PWR_CTL false v.toNat))

/-- AUX_LOW_SAVE (R360). -/
def execAuxLowSave (s : State) : Answer := .next (s.run (fun m => m.auxLow))

/-- PLINTH_POWER_LOSS (R344). -/
def execPlinthPowerLoss (s : State) : Answer := .next (s.run (fun m => m.plinthLoss))

/-- CAGE_OVERCURRENT (R357). -/
def execCageOvercurrent (c : Fin 8) (s : State) : Answer := .next (s.run (fun m => m.cageOver c.val))

/-- CAGE_PRESENCE_CHANGE (R357, R366). -/
def execCagePresenceChange (c : Fin 8) (present : Bool) (s : State) : Answer :=
  .next (s.run (fun m => m.cagePresence c.val present))

/-- CAGE_RESET_RELEASE (R357). -/
def execCageResetRelease (c : Fin 8) (s : State) : Answer :=
  .next (s.run (fun m => m.onTimer (.cageReset c.val) (fun m => m.cageReleased c.val)))

/-- CAGE_INTERRUPT (R366). -/
def execCageInterrupt (c : Fin 8) (s : State) : Answer :=
  .next (s.run (fun m => m.onDie (fun m => { m with base := m.base.cageInt c.val })))

/-- TEMP_WARNING (R358). -/
def execTempWarning (t : Nat) (s : State) : Answer := .next (s.run (fun m => m.tempWarn t))

/-- TEMP_CRITICAL (R359). -/
def execTempCritical (t : Nat) (s : State) : Answer := .next (s.run (fun m => m.tempCrit t))

/-- SHELF_ALERT_CHANGE (R365). -/
def execShelfAlertChange (slot : Fin 56) (level : Bool) (s : State) : Answer :=
  .next (s.run (fun m => m.onDie (fun m => m.alertChange slot.val level)))

end Sys2Proof.Machine
end

