-- ==== Sys2Proof/Machine/ExecMgmt.lean ====
section
/-! DEFINITION. The meanings of the commands of the management connector: SMBus, and the boundary-scan port. -/

namespace Sys2Proof.Machine

/-- REG_ADDR (R368, R369). -/
def execRegAddr (data : List Byte) (pecOk : Bool) (s : State) : Answer :=
  .next (s.run (fun m => m.withPec pecOk (fun m => m.smbAddr data)))

/-- REG_READ (R368-R370). -/
def execRegRead (pecOk : Bool) (s : State) : Answer := .next (s.run (fun m => m.withPec pecOk (fun m => m.smbRead)))

/-- REG_WRITE (R368-R370). -/
def execRegWrite (data : List Byte) (pecOk : Bool) (s : State) : Answer :=
  .next (s.run (fun m => m.withPec pecOk (fun m => m.smbWrite data)))

/-- WAKE (R35, R369). -/
def execWake (pecOk : Bool) (s : State) : Answer := .next (s.run (fun m => m.withPec pecOk (fun m => m.wakeEvent 4)))

/-- WARM_RESET (R329, R369). -/
def execWarmReset (data : List Byte) (pecOk : Bool) (s : State) : Answer :=
  .next (s.run (fun m => m.withPec pecOk (fun m => m.smbReset data false)))

/-- COLD_RESET (R329, R369). -/
def execColdReset (data : List Byte) (pecOk : Bool) (s : State) : Answer :=
  .next (s.run (fun m => m.withPec pecOk (fun m => m.smbReset data true)))

/-- IMG_BEGIN (R334, R369). -/
def execImgBegin (data : List Byte) (pecOk : Bool) (s : State) : Answer :=
  .next (s.run (fun m => m.withPec pecOk (fun m => m.smbImgBegin data)))

/-- IMG_DATA (R334, R369). -/
def execImgData (data : List Byte) (pecOk : Bool) (result : Fin 16) (s : State) : Answer :=
  .next (s.run (fun m => m.withPec pecOk (fun m => m.smbImgData data result.val)))

/-- IMG_END (R334, R369). -/
def execImgEnd (pecOk : Bool) (result : Fin 16) (s : State) : Answer :=
  .next (s.run (fun m => m.withPec pecOk (fun m => m.smbImgEnd result.val)))

/-- ALERT_RESPONSE (R371). -/
def execAlertResponse (s : State) : Answer := .next (s.run (fun m => m.alertResponse))

/-- JTAG_BYPASS (R372). -/
def execJtagBypass (s : State) : Answer := .next (s.run (fun m => m.tap' (fun m => m.bypass)))

/-- JTAG_IDCODE (R372). -/
def execJtagIdcode (s : State) : Answer := .next (s.run (fun m => m.tap' (fun m => m.idcode)))

/-- JTAG_SAMPLE_PRELOAD (R372). -/
def execJtagSamplePreload (pins preload : List Bool) (s : State) : Answer :=
  .next (s.run (fun m => m.tap' (fun m => m.samplePreload pins preload)))

/-- JTAG_EXTEST (R372). -/
def execJtagExtest (s : State) : Answer := .next (s.run (fun m => m.tap' (fun m => m.extest 0)))

/-- JTAG_EXTEST_PULSE (R372). -/
def execJtagExtestPulse (s : State) : Answer := .next (s.run (fun m => m.tap' (fun m => m.extest 1)))

/-- JTAG_EXTEST_TRAIN (R372). -/
def execJtagExtestTrain (s : State) : Answer := .next (s.run (fun m => m.tap' (fun m => m.extest 2)))

/-- JTAG_DEBUG (R372). -/
def execJtagDebug (s : State) : Answer := .next (s.run (fun m => m.tap' (fun m => m.debugOpen)))

end Sys2Proof.Machine
end

