-- ==== Sys2Proof/Machine/Dispatch.lean ====
section
/-! DEFINITION. The dispatch: one arm per command, each one direct call of the command's meaning. -/

namespace Sys2Proof.Machine

/-- The effect of a command on everything but the queue of waiting commands. -/
def exec (i : Instr) (s : State) : Host.Outcome State Fault Refusal :=
  match i with
  | .registerWrite who off wide v => Sys2Proof.Machine.execRegisterWrite who off wide v s
  | .refusedRegisterAccess who off isWrite width => Sys2Proof.Machine.execRefusedRegisterAccess who off isWrite width s
  | .counterReadLatch who off => Sys2Proof.Machine.execCounterReadLatch who off s
  | .counterWrite who off wide v => Sys2Proof.Machine.execCounterWrite who off wide v s
  | .hwmClear who off v => Sys2Proof.Machine.execHwmClear who off v s
  | .tlpReceive port tlp check => Sys2Proof.Machine.execTlpReceive port tlp check s
  | .ptrReset who v => Sys2Proof.Machine.execPtrReset who v s
  | .bufEccError frame kind => Sys2Proof.Machine.execBufEccError frame kind s
  | .bufCommitGo who v => Sys2Proof.Machine.execBufCommitGo who v s
  | .egressSend port creditP creditNp creditCpl => Sys2Proof.Machine.execEgressSend port creditP creditNp creditCpl s
  | .meterWrite who meter reg v => Sys2Proof.Machine.execMeterWrite who meter reg v s
  | .sqDoorbell who slice q v => Sys2Proof.Machine.execSqDoorbell who slice q v s
  | .cqDoorbell who slice q v => Sys2Proof.Machine.execCqDoorbell who slice q v s
  | .eqDoorbell who slice v => Sys2Proof.Machine.execEqDoorbell who slice v s
  | .qpEnable who slice q v => Sys2Proof.Machine.execQpEnable who slice q v s
  | .qpDisable who slice q v => Sys2Proof.Machine.execQpDisable who slice q v s
  | .eqEnable who slice v => Sys2Proof.Machine.execEqEnable who slice v s
  | .descriptorFetch p => Sys2Proof.Machine.execDescriptorFetch p s
  | .fetchReadCompletion p id cpl => Sys2Proof.Machine.execFetchReadCompletion p id cpl s
  | .move gqp => Sys2Proof.Machine.execMove gqp s
  | .parkWrite gqp => Sys2Proof.Machine.execParkWrite gqp s
  | .parkRead gqp => Sys2Proof.Machine.execParkRead gqp s
  | .fence gqp => Sys2Proof.Machine.execFence gqp s
  | .nop gqp => Sys2Proof.Machine.execNop gqp s
  | .guardCommit gqp => Sys2Proof.Machine.execGuardCommit gqp s
  | .scrubComplete slice => Sys2Proof.Machine.execScrubComplete slice s
  | .blobWriteCompletion status => Sys2Proof.Machine.execBlobWriteCompletion status s
  | .blobReadCompletion cpl => Sys2Proof.Machine.execBlobReadCompletion cpl s
  | .sliceAtRest slice => Sys2Proof.Machine.execSliceAtRest slice s
  | .quiesceLimitExpiry slice => Sys2Proof.Machine.execQuiesceLimitExpiry slice s
  | .freezeDeadline slice => Sys2Proof.Machine.execFreezeDeadline slice s
  | .sliceFault slice => Sys2Proof.Machine.execSliceFault slice s
  | .hodGo who h c => Sys2Proof.Machine.execHodGo who h c s
  | .hodAbort who h c go => Sys2Proof.Machine.execHodAbort who h c go s
  | .hodShadowWrite who h c off wide v => Sys2Proof.Machine.execHodShadowWrite who h c off wide v s
  | .hodSealWrite who h c v => Sys2Proof.Machine.execHodSealWrite who h c v s
  | .hodHoldWrite who h v => Sys2Proof.Machine.execHodHoldWrite who h v s
  | .hodPick h => Sys2Proof.Machine.execHodPick h s
  | .hodReservationAdmit h => Sys2Proof.Machine.execHodReservationAdmit h s
  | .hodReadCompletion h tag cpl => Sys2Proof.Machine.execHodReadCompletion h tag cpl s
  | .retryGapExpiry h => Sys2Proof.Machine.execRetryGapExpiry h s
  | .hodFlushCompletion h status => Sys2Proof.Machine.execHodFlushCompletion h status s
  | .irqTimeExpiry gqp => Sys2Proof.Machine.execIrqTimeExpiry gqp s
  | .msiUnmask p vector => Sys2Proof.Machine.execMsiUnmask p vector s
  | .completionTimeout port tag => Sys2Proof.Machine.execCompletionTimeout port tag s
  | .tagQuarantineExpiry port tag => Sys2Proof.Machine.execTagQuarantineExpiry port tag s
  | .lateCompletion port tag header => Sys2Proof.Machine.execLateCompletion port tag header s
  | .parkWindowStore p pasid off data => Sys2Proof.Machine.execParkWindowStore p pasid off data s
  | .parkWindowLoad p pasid acc => Sys2Proof.Machine.execParkWindowLoad p pasid acc s
  | .mergeWindowExpiry p => Sys2Proof.Machine.execMergeWindowExpiry p s
  | .slcFenceGo who slice v => Sys2Proof.Machine.execSlcFenceGo who slice v s
  | .loadReserved who slice => Sys2Proof.Machine.execLoadReserved who slice s
  | .conditionalStore who slice => Sys2Proof.Machine.execConditionalStore who slice s
  | .rsvAddrWrite who slice off wide v => Sys2Proof.Machine.execRsvAddrWrite who slice off wide v s
  | .reservationExpiry slice => Sys2Proof.Machine.execReservationExpiry slice s
  | .grdCommitGo who v => Sys2Proof.Machine.execGrdCommitGo who v s
  | .guardRuleWrite who g r off wide v => Sys2Proof.Machine.execGuardRuleWrite who g r off wide v s
  | .guardParityError g => Sys2Proof.Machine.execGuardParityError g s
  | .debugAccess isWrite addr wide v => Sys2Proof.Machine.execDebugAccess isWrite addr wide v s
  | .ingestCompletion entry off cpl => Sys2Proof.Machine.execIngestCompletion entry off cpl s
  | .batchWindowExpiry slot => Sys2Proof.Machine.execBatchWindowExpiry slot s
  | .promoteExpiry slot => Sys2Proof.Machine.execPromoteExpiry slot s
  | .entryExpiry entry => Sys2Proof.Machine.execEntryExpiry entry s
  | .ledgerBudgetWrite who v => Sys2Proof.Machine.execLedgerBudgetWrite who v s
  | .shelfPinWrite who slot v => Sys2Proof.Machine.execShelfPinWrite who slot v s
  | .wakeNow who slot => Sys2Proof.Machine.execWakeNow who slot s
  | .clearFail who slot => Sys2Proof.Machine.execClearFail who slot s
  | .peekGo who v => Sys2Proof.Machine.execPeekGo who v s
  | .shelfPgAssert slot => Sys2Proof.Machine.execShelfPgAssert slot s
  | .perstReleaseExpiry slot => Sys2Proof.Machine.execPerstReleaseExpiry slot s
  | .shelfLinkUp came => Sys2Proof.Machine.execShelfLinkUp came s
  | .readyDelayExpiry slot => Sys2Proof.Machine.execReadyDelayExpiry slot s
  | .readyPollTimer slot => Sys2Proof.Machine.execReadyPollTimer slot s
  | .readyPollCompletion slot cpl => Sys2Proof.Machine.execReadyPollCompletion slot cpl s
  | .sweepFlushCompletion entry status => Sys2Proof.Machine.execSweepFlushCompletion entry status s
  | .sweepReadCompletion entry off cpl => Sys2Proof.Machine.execSweepReadCompletion entry off cpl s
  | .refetchCompletion entry off cpl => Sys2Proof.Machine.execRefetchCompletion entry off cpl s
  | .sweepHoldExpiry slice => Sys2Proof.Machine.execSweepHoldExpiry slice s
  | .idleHoldExpiry slot => Sys2Proof.Machine.execIdleHoldExpiry slot s
  | .pwrreqReleaseExpiry slot => Sys2Proof.Machine.execPwrreqReleaseExpiry slot s
  | .shelfPgDeassert slot => Sys2Proof.Machine.execShelfPgDeassert slot s
  | .minOffExpiry slot => Sys2Proof.Machine.execMinOffExpiry slot s
  | .pgTimeout slot => Sys2Proof.Machine.execPgTimeout slot s
  | .linkTimeout slot => Sys2Proof.Machine.execLinkTimeout slot s
  | .readyTimeout slot => Sys2Proof.Machine.execReadyTimeout slot s
  | .pgOffTimeout slot => Sys2Proof.Machine.execPgOffTimeout slot s
  | .shelfLinkDown slot => Sys2Proof.Machine.execShelfLinkDown slot s
  | .dramUncorrectableError addr tableBoth => Sys2Proof.Machine.execDramUncorrectableError addr tableBoth s
  | .patrolScrub corrected bad => Sys2Proof.Machine.execPatrolScrub corrected bad s
  | .dramChannelFailure c training => Sys2Proof.Machine.execDramChannelFailure c training s
  | .portLinkUp p width rate modes => Sys2Proof.Machine.execPortLinkUp p width rate modes s
  | .portLinkDown went => Sys2Proof.Machine.execPortLinkDown went s
  | .dpcTrigger error => Sys2Proof.Machine.execDpcTrigger error s
  | .portContain who p v => Sys2Proof.Machine.execPortContain who p v s
  | .portRelease who p v => Sys2Proof.Machine.execPortRelease who p v s
  | .dpcStatusClear p => Sys2Proof.Machine.execDpcStatusClear p s
  | .slotPresentWrite who p v => Sys2Proof.Machine.execSlotPresentWrite who p v s
  | .secondaryBusReset p set => Sys2Proof.Machine.execSecondaryBusReset p set s
  | .mcReceiveWrite p group v => Sys2Proof.Machine.execMcReceiveWrite p group v s
  | .l1IdleExpiry p => Sys2Proof.Machine.execL1IdleExpiry p s
  | .hostPerstAssert k => Sys2Proof.Machine.execHostPerstAssert k s
  | .hostPerstDeassert k => Sys2Proof.Machine.execHostPerstDeassert k s
  | .bmeClear p => Sys2Proof.Machine.execBmeClear p s
  | .bmeSet p => Sys2Proof.Machine.execBmeSet p s
  | .functionLevelReset p => Sys2Proof.Machine.execFunctionLevelReset p s
  | .upstreamLinkReset p => Sys2Proof.Machine.execUpstreamLinkReset p s
  | .resetDrainExpiry p => Sys2Proof.Machine.execResetDrainExpiry p s
  | .powerStateWrite p d3hot => Sys2Proof.Machine.execPowerStateWrite p d3hot s
  | .signalDetect lane => Sys2Proof.Machine.execSignalDetect lane s
  | .adaptationDone lane lock coarse again beside taps scan => Sys2Proof.Machine.execAdaptationDone lane lock coarse again beside taps scan s
  | .eyeMeasurementDone lane scan taps => Sys2Proof.Machine.execEyeMeasurementDone lane scan taps s
  | .txCoefWrite who lane v => Sys2Proof.Machine.execTxCoefWrite who lane v s
  | .tileTestWrite who t v => Sys2Proof.Machine.execTileTestWrite who t v s
  | .camtexRateWrite who t v => Sys2Proof.Machine.execCamtexRateWrite who t v s
  | .marginCommand lane cmd => Sys2Proof.Machine.execMarginCommand lane cmd s
  | .tileGate t => Sys2Proof.Machine.execTileGate t s
  | .tileUngate t => Sys2Proof.Machine.execTileUngate t s
  | .tilePllLoss t => Sys2Proof.Machine.execTilePllLoss t s
  | .framingLoss came => Sys2Proof.Machine.execFramingLoss came s
  | .amReceive lane words first last => Sys2Proof.Machine.execAmReceive lane words first last s
  | .flitSend k => Sys2Proof.Machine.execFlitSend k s
  | .flitReceive k lanes words => Sys2Proof.Machine.execFlitReceive k lanes words s
  | .replayTimerExpiry k => Sys2Proof.Machine.execReplayTimerExpiry k s
  | .lrReceive k reason => Sys2Proof.Machine.execLrReceive k reason s
  | .fabReset who k v => Sys2Proof.Machine.execFabReset who k v s
  | .resetHoldExpiry k => Sys2Proof.Machine.execResetHoldExpiry k s
  | .trainingRecordReceive k lane blocks => Sys2Proof.Machine.execTrainingRecordReceive k lane blocks s
  | .tuneSettleExpiry k lane scan => Sys2Proof.Machine.execTuneSettleExpiry k lane scan s
  | .tuneTimeout k => Sys2Proof.Machine.execTuneTimeout k s
  | .trainTimeout k => Sys2Proof.Machine.execTrainTimeout k s
  | .backoffExpiry k => Sys2Proof.Machine.execBackoffExpiry k s
  | .segmentReceive k seg => Sys2Proof.Machine.execSegmentReceive k seg s
  | .sync k seg => Sys2Proof.Machine.execSync k seg s
  | .cackReceive k seg => Sys2Proof.Machine.execCackReceive k seg s
  | .cackDelayExpiry path cls => Sys2Proof.Machine.execCackDelayExpiry path cls s
  | .resendIntervalExpiry path cls => Sys2Proof.Machine.execResendIntervalExpiry path cls s
  | .streamTimeout path cls => Sys2Proof.Machine.execStreamTimeout path cls s
  | .candidate level term prio serial path => Sys2Proof.Machine.execCandidate level term prio serial path s
  | .heartbeat level term prio serial path => Sys2Proof.Machine.execHeartbeat level term prio serial path s
  | .heartbeatAck level ack => Sys2Proof.Machine.execHeartbeatAck level ack s
  | .heartbeatTimer level => Sys2Proof.Machine.execHeartbeatTimer level s
  | .electionCollectExpiry level => Sys2Proof.Machine.execElectionCollectExpiry level s
  | .keystoneLossTimeout level => Sys2Proof.Machine.execKeystoneLossTimeout level s
  | .memberLost path => Sys2Proof.Machine.execMemberLost path s
  | .orphanExpiry entry => Sys2Proof.Machine.execOrphanExpiry entry s
  | .alert srcPath srcPort level => Sys2Proof.Machine.execAlert srcPath srcPort level s
  | .resetReq srcPath port set => Sys2Proof.Machine.execResetReq srcPath port set s
  | .linkState srcPath srcPort present contained failed => Sys2Proof.Machine.execLinkState srcPath srcPort present contained failed s
  | .powerGood srcPath srcPort pg => Sys2Proof.Machine.execPowerGood srcPath srcPort pg s
  | .wakeReq srcPath sleeper => Sys2Proof.Machine.execWakeReq srcPath sleeper s
  | .errReport srcPath cause origin header => Sys2Proof.Machine.execErrReport srcPath cause origin header s
  | .park srcPath msg => Sys2Proof.Machine.execPark srcPath msg s
  | .lendReq req => Sys2Proof.Machine.execLendReq req s
  | .lendGo who v => Sys2Proof.Machine.execLendGo who v s
  | .rtWordWrite who entry word v => Sys2Proof.Machine.execRtWordWrite who entry word v s
  | .rtEntryCommit who entry v => Sys2Proof.Machine.execRtEntryCommit who entry v s
  | .streamPeek who v => Sys2Proof.Machine.execStreamPeek who v s
  | .wakePatternDetect k => Sys2Proof.Machine.execWakePatternDetect k s
  | .sleeperSignalDetect k => Sys2Proof.Machine.execSleeperSignalDetect k s
  | .eventStormEnd group bit => Sys2Proof.Machine.execEventStormEnd group bit s
  | .queueEngineWatchdog p => Sys2Proof.Machine.execQueueEngineWatchdog p s
  | .parkEngineWatchdog e => Sys2Proof.Machine.execParkEngineWatchdog e s
  | .mgmtCoreWatchdog c => Sys2Proof.Machine.execMgmtCoreWatchdog c s
  | .csrWatchdogExpiry who off isWrite => Sys2Proof.Machine.execCsrWatchdogExpiry who off isWrite s
  | .pmcRunWrite who v => Sys2Proof.Machine.execPmcRunWrite who v s
  | .counterWrap off incr => Sys2Proof.Machine.execCounterWrap off incr s
  | .samplePoint off => Sys2Proof.Machine.execSamplePoint off s
  | .clkResetWarm who v => Sys2Proof.Machine.execClkResetWarm who v s
  | .clkResetCold who v => Sys2Proof.Machine.execClkResetCold who v s
  | .clkResetOff who v => Sys2Proof.Machine.execClkResetOff who v s
  | .blockReset who v => Sys2Proof.Machine.execBlockReset who v s
  | .dramTrainingDone cal => Sys2Proof.Machine.execDramTrainingDone cal s
  | .lifecycleCommand who v => Sys2Proof.Machine.execLifecycleCommand who v s
  | .imageUpdateGo who v => Sys2Proof.Machine.execImageUpdateGo who v s
  | .imageUpdateDone result => Sys2Proof.Machine.execImageUpdateDone result s
  | .calSave who v => Sys2Proof.Machine.execCalSave who v s
  | .hostTrainingStart p => Sys2Proof.Machine.execHostTrainingStart p s
  | .telemetrySample v i' t cages => Sys2Proof.Machine.execTelemetrySample v i' t cages s
  | .supplyResetDetect v => Sys2Proof.Machine.execSupplyResetDetect v s
  | .overVoltageDetect v => Sys2Proof.Machine.execOverVoltageDetect v s
  | .presenceChange a b => Sys2Proof.Machine.execPresenceChange a b s
  | .powerGoodQualified cal => Sys2Proof.Machine.execPowerGoodQualified cal s
  | .powerOnCommand who v => Sys2Proof.Machine.execPowerOnCommand who v s
  | .retryClear who v => Sys2Proof.Machine.execRetryClear who v s
  | .cageOvercurrent c => Sys2Proof.Machine.execCageOvercurrent c s
  | .cagePresenceChange c present => Sys2Proof.Machine.execCagePresenceChange c present s
  | .cageResetRelease c => Sys2Proof.Machine.execCageResetRelease c s
  | .cageInterrupt c => Sys2Proof.Machine.execCageInterrupt c s
  | .tempWarning t => Sys2Proof.Machine.execTempWarning t s
  | .tempCritical t => Sys2Proof.Machine.execTempCritical t s
  | .shelfAlertChange slot level => Sys2Proof.Machine.execShelfAlertChange slot level s
  | .regAddr data pecOk => Sys2Proof.Machine.execRegAddr data pecOk s
  | .regRead pecOk => Sys2Proof.Machine.execRegRead pecOk s
  | .regWrite data pecOk => Sys2Proof.Machine.execRegWrite data pecOk s
  | .wake pecOk => Sys2Proof.Machine.execWake pecOk s
  | .warmReset data pecOk => Sys2Proof.Machine.execWarmReset data pecOk s
  | .coldReset data pecOk => Sys2Proof.Machine.execColdReset data pecOk s
  | .imgBegin data pecOk => Sys2Proof.Machine.execImgBegin data pecOk s
  | .imgData data pecOk result => Sys2Proof.Machine.execImgData data pecOk result s
  | .imgEnd pecOk result => Sys2Proof.Machine.execImgEnd pecOk result s
  | .jtagSamplePreload pins preload => Sys2Proof.Machine.execJtagSamplePreload pins preload s
  | .configurationWrite fn off value enables => Sys2Proof.Machine.execConfigurationWrite fn off value enables s
  | .tilePllLock t => Sys2Proof.Machine.execTilePllLock t s
  | .sramUncorrectableError kind => Sys2Proof.Machine.execSramUncorrectableError kind s
  | .dramCorrectedError c => Sys2Proof.Machine.execDramCorrectedError c s
  | .blockLock k came => Sys2Proof.Machine.execBlockLock k came s
  | .prbsCheckerLock lane bits => Sys2Proof.Machine.execPrbsCheckerLock lane bits s
  | .wakePatternEnd k => Sys2Proof.Machine.execWakePatternEnd k s
  | .firmwareCheckDone check => Sys2Proof.Machine.execFirmwareCheckDone check s
  | .imageCheckDone img => Sys2Proof.Machine.execImageCheckDone img s
  | .cellSlotMatch => Sys2Proof.Machine.execCellSlotMatch s
  | .bufCommitDone => Sys2Proof.Machine.execBufCommitDone s
  | .meterTick => Sys2Proof.Machine.execMeterTick s
  | .wheelTick => Sys2Proof.Machine.execWheelTick s
  | .create => Sys2Proof.Machine.execCreate s
  | .quiesce => Sys2Proof.Machine.execQuiesce s
  | .reset => Sys2Proof.Machine.execReset s
  | .remove => Sys2Proof.Machine.execRemove s
  | .freeze => Sys2Proof.Machine.execFreeze s
  | .save => Sys2Proof.Machine.execSave s
  | .restore => Sys2Proof.Machine.execRestore s
  | .thaw => Sys2Proof.Machine.execThaw s
  | .scrub => Sys2Proof.Machine.execScrub s
  | .guardCommitDone => Sys2Proof.Machine.execGuardCommitDone s
  | .admissionResume => Sys2Proof.Machine.execAdmissionResume s
  | .admissionWaitExpiry => Sys2Proof.Machine.execAdmissionWaitExpiry s
  | .planTick => Sys2Proof.Machine.execPlanTick s
  | .unlendSettleExpiry => Sys2Proof.Machine.execUnlendSettleExpiry s
  | .resetTakedownExpiry => Sys2Proof.Machine.execResetTakedownExpiry s
  | .blockResetDone => Sys2Proof.Machine.execBlockResetDone s
  | .wipeDone => Sys2Proof.Machine.execWipeDone s
  | .calSaveDone => Sys2Proof.Machine.execCalSaveDone s
  | .m2Entry => Sys2Proof.Machine.execM2Entry s
  | .wakeTimer => Sys2Proof.Machine.execWakeTimer s
  | .heldPortLeaveL12 => Sys2Proof.Machine.execHeldPortLeaveL12 s
  | .dipResumeExpiry => Sys2Proof.Machine.execDipResumeExpiry s
  | .insertionDebounceExpiry => Sys2Proof.Machine.execInsertionDebounceExpiry s
  | .inputQualified => Sys2Proof.Machine.execInputQualified s
  | .gateFullyEnhanced => Sys2Proof.Machine.execGateFullyEnhanced s
  | .inrushTimeout => Sys2Proof.Machine.execInrushTimeout s
  | .currentLimitEngage => Sys2Proof.Machine.execCurrentLimitEngage s
  | .currentLimitRelease => Sys2Proof.Machine.execCurrentLimitRelease s
  | .limitTimerClear => Sys2Proof.Machine.execLimitTimerClear s
  | .faultTimerExpiry => Sys2Proof.Machine.execFaultTimerExpiry s
  | .gateOffExpiry => Sys2Proof.Machine.execGateOffExpiry s
  | .fuseTrip => Sys2Proof.Machine.execFuseTrip s
  | .retryTimerExpiry => Sys2Proof.Machine.execRetryTimerExpiry s
  | .retryCountClear => Sys2Proof.Machine.execRetryCountClear s
  | .auxLowSave => Sys2Proof.Machine.execAuxLowSave s
  | .plinthPowerLoss => Sys2Proof.Machine.execPlinthPowerLoss s
  | .plinthPowerUp => Sys2Proof.Machine.execPlinthPowerUp s
  | .alertResponse => Sys2Proof.Machine.execAlertResponse s
  | .jtagBypass => Sys2Proof.Machine.execJtagBypass s
  | .jtagIdcode => Sys2Proof.Machine.execJtagIdcode s
  | .jtagExtest => Sys2Proof.Machine.execJtagExtest s
  | .jtagExtestPulse => Sys2Proof.Machine.execJtagExtestPulse s
  | .jtagExtestTrain => Sys2Proof.Machine.execJtagExtestTrain s
  | .jtagDebug => Sys2Proof.Machine.execJtagDebug s
  | .corePllLoss => Sys2Proof.Machine.execCorePllLoss s
  | .dramClockLoss => Sys2Proof.Machine.execDramClockLoss s

end Sys2Proof.Machine
end

