-- ==== Sys2Proof/Safety.lean ====
section
/-! DEFINITION. What a state must keep, and the terms that claims about every command speak in: the module as a command finds it, the
state that a command ends in, and when the switch die, its clocked core and a register access let a command act. -/

namespace Sys2Proof.Machine

/-- Every event that a command raised has been reported (R300): none waits between commands. -/
def State.reported (s : State) : Bool := s.mod.base.evq.isEmpty

/-- Park DRAM and management memory are in their canonical form: addresses rising, and no byte listed that reads as unlisted. -/
def State.memOk (s : State) : Bool := Memory.wf s.mod.dram.mem && Memory.wf s.mod.dram.mgmt

/-- The module as a command finds it: what left it at the last command has left. -/
def Mod.begun (m : Mod) : Mod := { m with base := { m.base with out := [] } }

/-- The state that a command of `s` ends in, once its own effect has made the module `m`: the work that it set going runs on, time is
counted and events are reported. The queue of waiting commands stands. -/
def State.ends (s : State) (m : Mod) : State := { s with mod := Mod.settle s.mod.begun m }

/-- The switch die has power and is not halted (R330). -/
def State.dieLive (s : State) : Bool := s.mod.pl.powered && s.mod.pl.dieOn && s.mod.base.stage != 8

/-- The clocked core of the switch die runs (R327). -/
def State.coreLive (s : State) : Bool := s.dieLive && s.mod.base.coreOn

/-- The module when timer `k`, due at `d`, ends: the timer is stopped, and time is at least `d`. -/
def Mod.timerAt (m : Mod) (k : TimerKey) (d : Nat) : Mod :=
  let b := m.base.disarm k
  { m with base := { b with now := max b.now d } }

/-- A command of the clocked core finds it running, and the module as `m`. -/
def State.coreIs (s : State) (m : Mod) : Prop := s.coreLive = true ∧ m = s.mod.begun

/-- A command of the switch die finds it running, and the module as `m`. -/
def State.dieIs (s : State) (m : Mod) : Prop := s.dieLive = true ∧ m = s.mod.begun

/-- A command finds the plinth with power, and the module as `m`. -/
def State.powerIs (s : State) (m : Mod) : Prop := s.mod.pl.powered = true ∧ m = s.mod.begun

/-- Timer `k` of the clocked core is armed; the module is `m` when it ends. -/
def State.coreDue (s : State) (k : TimerKey) (m : Mod) : Prop :=
  s.coreLive = true ∧ ∃ d, s.mod.base.due k = some d ∧ m = s.mod.begun.timerAt k d

/-- Timer `k` is armed and the plinth has power; the module is `m` when it ends. -/
def State.plinthDue (s : State) (k : TimerKey) (m : Mod) : Prop :=
  s.mod.pl.powered = true ∧ ∃ d, s.mod.base.due k = some d ∧ m = s.mod.begun.timerAt k d

/-- A host may reach configuration function `fn`, and finds the module as `m`. -/
def State.cfgIs (s : State) (fn : Nat) (m : Mod) : Prop :=
  s.mod.pl.powered = true ∧ m = s.mod.begun ∧ m.cfgAlive = true ∧ m.base.fnThere fn = true

/-! ### Accesses to the control window, by conditions on the state and the access alone -/

/-- `w` can make an access: the plinth has power, SMBus has the die to answer it, a host its endpoint in D0 (R156, R370). -/
def State.asks (s : State) (w : Who) : Bool :=
  s.mod.pl.powered && !(w == .smbus && s.mod.begun.plinthOnly) && s.mod.begun.canAccess w

/-- The module as an access finds it: a host's open merge lines have drained (R129). -/
def State.drained (s : State) (w : Who) : Mod := s.mod.begun.drainFor w

/-- The access hangs (R327). -/
def State.hangs (s : State) (w : Who) (off : Nat) : Bool := s.asks w && (s.drained w).base.hangs w off

/-- What the accessor's guard decides of the access (R141, R143), and the records that it makes; SMBus passes unchecked before the image has
loaded the guards (log entry 18). -/
def State.check (s : State) (w : Who) (off len : Nat) (wr : Bool) : Base × Option Denial :=
  let b := (s.drained w).base
  if b.unguarded w then (b, none) else b.guard (whoGuard w) (b.ctlAccess w off len none wr)

/-- The module after the check. -/
def State.found (s : State) (w : Who) (off len : Nat) (wr : Bool) : Mod := { s.drained w with base := (s.check w off len wr).1 }

/-- The access neither hangs nor is denied. -/
def State.allows (s : State) (w : Who) (off len : Nat) (wr : Bool) : Bool :=
  s.asks w && !(s.drained w).base.hangs w off && (s.check w off len wr).2.isNone

/-- The guard denies the access (R150). -/
def State.denies (s : State) (w : Who) (off len : Nat) (wr : Bool) : Bool :=
  s.asks w && !(s.drained w).base.hangs w off && (s.check w off len wr).2.isSome

/-- The size and alignment of R16: 4 or 8 bytes, aligned. -/
def accessSized (off len : Nat) : Bool := (decide (len = 4) && decide (off % 4 = 0)) || (decide (len = 8) && decide (off % 8 = 0))

/-- The access reaches the decoder. -/
def State.lets (s : State) (w : Who) (off len : Nat) (wr : Bool) : Bool := s.allows w off len wr && accessSized off len

/-- The access is refused under R16. -/
def State.refuses (s : State) (w : Who) (off len : Nat) (wr : Bool) : Bool := s.allows w off len wr && !accessSized off len

/-- An access of `len` bytes that `w` makes to offset `off` of the control window reaches the decoder, and the module is then `m`. -/
def State.reaches (s : State) (w : Who) (off len : Nat) (wr : Bool) (m : Mod) : Prop :=
  s.lets w off len wr = true ∧ m = s.found w off len wr

/-- The module that a 32-bit write meets at the decoder: a counter word held for its other half is dropped (R316). -/
def State.atWrite (s : State) (w : Who) (off : Nat) : Mod :=
  let n := s.found w off 4 true
  { n with base := n.base.dropHold off }

/-- A 32-bit write reaches register word `off`, which is `h`, visibility lets it through (R380), and the module is then `m`. -/
def State.writes (s : State) (w : Who) (off : Nat) (m : Mod) (h : RegHit) : Prop :=
  s.lets w off 4 true = true ∧ regAt off = some h ∧ m = s.atWrite w off ∧ m.base.sight w off h = .full

/-- Has a register no rule of its own beyond its access codes when it is written? -/
def RegName.ordinary (n : RegName) : Bool :=
  match n with
  | .GLB_BADACC | .GRD_FAULT_INFO | .BND_FAR_INFO | .BND_RT_MISS | .PMC_CFG | .PMC_PERIOD | .PMC_CNT | .SLC_VC_CNT
  | .SLC_VC_SEL | .SLC_VC_PERIOD | .PWR_CTL | .PWR_UV_CFG | .PWR_OV_CFG | .PWR_SHED | .PWR_TEMP_CFG | .PWR_PEAK
  | .PWR_CAGE | .CLK_RESET | .CLK_BLK_RESET | .CLK_LC_CMD | .CLK_IMG_CTL | .CLK_CAL_CTL | .SER_TX_COEF | .SER_PRBS
  | .SER_TILE_CTL | .SER_TILE_CFG | .PRT_CTL | .PRT_CPL_TO | .PRT_SLOT | .XBR_CTRL | .XBR_MIR_CFG | .BUF_CFG | .BUF_COMMIT
  | .SCH_Q_HWM | .SCH_BUF_HWM | .BND_HOLD_HWM | .SCH_METER_CIR | .SCH_METER_PIR | .SCH_METER_CBS | .SCH_METER_PBS
  | .PRK_LEDGER_BUDGET | .PRK_PEEK_IDX | .PRK_CLASS_EXPIRE | .PRK_SHELF_CTL | .HOD_CTL | .HOD_CH_SH_SRC | .HOD_CH_SH_DST
  | .HOD_CH_SH_COUNT | .HOD_CH_SH_SPACE | .HOD_CH_SH_PASID | .HOD_CH_SH_JOB | .HOD_CH_SH_TAG | .HOD_CH_SH_SEAL
  | .HOD_CH_CTL | .GRD_RULE_BASE | .GRD_RULE_LIMIT | .GRD_RULE_ATTR | .GRD_RULE_MATCH | .GRD_COMMIT | .SLC_FENCE
  | .SLC_RSV_ADDR | .SLC_SQ_DB | .SLC_CQ_DB | .SLC_EQ_DB | .SLC_QP_SQ_BASE | .SLC_QP_CQ_BASE | .SLC_QP_CFG | .SLC_QP_IRQ
  | .SLC_EQ_BASE | .SLC_EQ_CFG | .FAB_CFG | .FAB_TIME | .FAB_CTL | .BND_TIME | .BND_STREAM_IDX | .BND_LEND
  | .BND_PORT_LEND | .BND_LEND_CTL | .BND_RT0 | .BND_RT1 | .BND_RT2 | .BND_RT3 | .BND_RT4 | .BND_RT5 | .BND_RT6 | .BND_RT7 => false
  | _ => true

/-- Is `off` the first word of the count that a register of software's counts at (R316)? -/
def RegHit.countsAt (h : RegHit) (off : Nat) : Prop :=
  (h.row.name = .PMC_CNT ∧ off = Reg.PMC_CNT h.i1) ∨ (h.row.name = .SLC_VC_CNT ∧ off = Reg.SLC_VC_CNT h.i1 h.i2)

end Sys2Proof.Machine
end

