-- ==== Sys2Proof/Certificates/Slice0/Obligations.lean ====
section
/-! DEFINITION. The statements for the provers: what a step is, what every command does where it acts, and the rules of the spec
that say what the machine does. Where a command acts, its own effect makes a module of which `State.ends` is the state that the
command answers: the record written there says what changes, and that the rest stands. -/

open Sys2Proof Sys2Proof.Machine

/-! ### The step and the queue -/

/-- A step takes the command at the front of the queue and runs it on the state with the queue's rest. -/
def Obligations.StepRunsTheFrontCommand : Prop :=
  ∀ (s : State) (c : Instr) (rest : List Instr),
    s.pending = c :: rest → step s = exec c { s with pending := rest }

/-- Every command, in every state, answers a next state, and leaves the waiting commands as they are. -/
def Obligations.EveryCommandAnswersNext : Prop :=
  ∀ (c : Instr) (s : State), ∃ t, exec c s = .next t ∧ t.pending = s.pending

/-- With nothing commanded, one nanosecond passes while the plinth has power, and nothing but the outputs' clearing happens
without it: the model's choice (DESIGN CHOICE, log entry 2). -/
def Obligations.EmptyQueuePassesTime : Prop :=
  ∀ (s : State), s.pending = [] →
    (s.mod.pl.powered = true →
      step s = .next (s.ends { s.mod.begun with base := { s.mod.begun.base with now := s.mod.base.now + 1 } })) ∧
    (s.mod.pl.powered = false → step s = .next { s with mod := s.mod.begun })

/-- After `n` steps of a state with at least `n` commands waiting, the first `n` have been taken, in order, and the rest wait. -/
def Obligations.QueueDrainsInOrder : Prop :=
  ∀ (n : Nat) (s : State), n ≤ s.pending.length →
    ∃ t, Sys2Proof.core.run n s = .next t ∧ t.pending = s.pending.drop n

/-- The plinth without power (R344): no command but the arrival of power has any effect. -/
def Obligations.NothingHappensWithoutPlinthPower : Prop :=
  ∀ (c : Instr) (s : State), s.mod.pl.powered = false → c ≠ .plinthPowerUp →
    exec c s = .next { s with mod := s.mod.begun }

/-- A run of any length without plinth power, in which power does not arrive, leaves the module as it is, its outputs cleared. -/
def Obligations.RunsWithoutPowerStandStill : Prop :=
  ∀ (n : Nat) (s t : State), s.mod.pl.powered = false → Instr.plinthPowerUp ∉ s.pending →
    Sys2Proof.core.run n s = .next t → t.mod.begun = s.mod.begun

/-- Every step, from every state in which every raised event has been reported, leaves it so (R300). -/
def Obligations.StepsReportEveryEvent : Prop :=
  ∀ (s t : State), s.reported = true → step s = .next t → t.reported = true

/-- The state at plinth power-up has every event reported and its memories in their canonical form. -/
def Obligations.ResetKeepsTheInvariants : Prop :=
  State.reset.reported = true ∧ State.reset.memOk = true

/-- The state at plinth power-up (R321, R328, R344): nothing waits, the die is off with every clock stopped, nothing is parked,
running, queued or timed, and every register but GLB_PRODUCT_ID reads its reset value; that one holds the order code of the
assembly, which the model sets to 1 (DESIGN CHOICE, log entry 3). -/
def Obligations.ResetState : Prop :=
  State.reset.pending = [] ∧ State.reset.mod.pl.dieOn = false ∧ State.reset.mod.base.coreOn = false ∧
  State.reset.mod.dram.mem = [] ∧ State.reset.mod.dram.mgmt = [] ∧ State.reset.mod.prk.entries = [] ∧
  State.reset.mod.hod.runs = [] ∧ State.reset.mod.sw.frames = [] ∧ State.reset.mod.tags = [] ∧
  State.reset.mod.base.timers = [] ∧ State.reset.mod.base.now = 0 ∧
  (∀ a, a ≠ Reg.GLB_PRODUCT_ID → State.reset.mod.base.word a = regReset a) ∧
  State.reset.mod.base.word Reg.GLB_PRODUCT_ID = 0x25600101#32

/-! ### The register map and the access codes -/

/-- The register map is unambiguous (R378): the decoder finds every word of every instance of every register of the index at
its own offset, base plus instance times stride. -/
def Obligations.RegisterMapFindsEveryRegister : Prop :=
  ∀ r ∈ allRows, ∀ i1 i2 w : Nat, i1 < r.n1 → i2 < r.n2 → w < r.words →
    regAt (r.base + r.s1 * i1 + r.s2 * i2 + 4 * w) = some ⟨r, i1, i2, w⟩

/-- Bit by bit, what the access codes of R13 make of a write to a word of a register of the index: a bit of code rw takes the value,
one of w1c is cleared by a 1, one of w1s is set by a 1, and every other bit stands. -/
def Obligations.AccessCodesBitByBit : Prop :=
  ∀ (off : Nat) (h : RegHit) (old v i : Nat), regAt off = some h → i < 32 →
    (codedWord h old v).testBit i =
      let k := 32 * h.word + i
      if h.row.rw.testBit k then v.testBit i
      else if h.row.w1c.testBit k then old.testBit i && !v.testBit i
      else if h.row.w1s.testBit k then old.testBit i || v.testBit i
      else old.testBit i

/-- An offset that no register of the index occupies reads as zero and ignores writes, with no event; the access rules of R16 apply to
it as to any register offset: the way of an access to the decoder asks nothing of the register index but what hangs, and an
access that R16 refuses there is refused. -/
def Obligations.ReservedOffsets : Prop :=
  (∀ (m : Mod) (w : Who) (off v : Nat) (wide : Bool), regAt off = none →
    m.readWord w off wide = (m, 0) ∧
    m.decodeWrite w off v = { m with base := m.base.dropHold off } ∧
    (m.decodeWrite w off v).base.evq = m.base.evq) ∧
  (∀ (s : State) (w : Who) (off : Nat) (wr : Bool) (width : Fin 4),
    regAt off = none → s.refuses w off (accessBytes width.val) wr = true →
    let n := s.found w off (accessBytes width.val) wr
    exec (.refusedRegisterAccess w off wr width) s = .next (s.ends
      { n with base := if wr then n.base.badAccess w off width.val wr
                       else (n.base.badAccess w off width.val wr).emit
                         (.readData w (BitVec.ofNat 64 (2 ^ (8 * accessBytes width.val) - 1))) }))

/-- A write that visibility takes away raises advisory event 16:(24 + p) for the writing partition p and changes nothing else; a read
that it hides returns zero and raises no event. -/
def Obligations.IgnoredWritesRaiseHiddenReadsDoNot : Prop :=
  ∀ (m : Mod) (p : Fin 8) (off v : Nat) (wide : Bool) (h : RegHit), regAt off = some h →
    ((({ m with base := m.base.dropHold off } : Mod).base.sight (.host p) off h = .hidden ∨
      ({ m with base := m.base.dropHold off } : Mod).base.sight (.host p) off h = .readOnly) →
      m.decodeWrite (.host p) off v =
        { m with base := (m.base.dropHold off).raise { group := 16, bit := 24 + p.val, sev := 0, scope := .part p.val } }) ∧
    (m.base.sight (.host p) off h = .hidden → m.readWord (.host p) off wide = (m, 0))

/-- An access of a wrong size or alignment (R16) that its guard allows: a read returns all ones, a write is discarded, and in both
cases an advisory event is raised; GLB_BADACC keeps the first since its valid bit was cleared. -/
def Obligations.RefusedAccessesAreLogged : Prop :=
  ∀ (s : State) (w : Who) (off : Nat) (wr : Bool) (width : Fin 4), s.refuses w off (accessBytes width.val) wr = true →
    let n := s.found w off (accessBytes width.val) wr
    let b := if bitOf (n.base.word (Reg.GLB_BADACC + 4)).toNat 31 then n.base.wr (Reg.GLB_BADACC + 4) ⟨1, 1⟩ 1
      else n.base.setWord64 Reg.GLB_BADACC
        (off % 2 ^ 27 + 2 ^ 27 * b2n wr + 2 ^ 28 * (whoPart w).getD 0 + 2 ^ 31 * (width.val % 4) + 2 ^ 63)
    let b := b.raise (match whoPart w with
      | some p => { group := 16, bit := 24 + p, scope := .part p }
      | none => { group := 0, bit := 6 })
    exec (.refusedRegisterAccess w off wr width) s = .next (s.ends
      { n with base := if wr then b else b.emit (.readData w (BitVec.ofNat 64 (2 ^ (8 * accessBytes width.val) - 1))) })

/-! ### Commands that write or read a register -/

/-- A 32-bit read of a counter's lower word latches the upper word and the next read of the upper word returns that latched value; a
64-bit read returns both words from one instant. -/
def Obligations.CounterReadsLatchTheUpperWord : Prop :=
  ∀ (s : State) (w : Who) (off : Nat) (m : Mod) (h : RegHit),
    regAt off = some h → isCounter h.row.name = true → (m.base.sight w off h = .full ∨ m.base.sight w off h = .readOnly) →
    (h.word = 0 → s.reaches w off 4 false m → exec (.counterReadLatch w off) s = .next (s.ends
      { m with base := ({ m.base with latches := m.base.latches.set (off + 4) (m.base.word (off + 4)) } : Base).emit
                         (.readData w (BitVec.ofNat 64 (m.base.word off).toNat)) })) ∧
    (∀ v, h.word = 1 → m.base.latches.lookup off = some v → s.reaches w off 4 false m →
      exec (.counterReadLatch w off) s = .next (s.ends
        { m with base := ({ m.base with latches := m.base.latches.filter (fun x => x.1 != off) } : Base).emit
                           (.readData w (BitVec.ofNat 64 v.toNat)) })) ∧
    (h.word = 0 → regAt (off + 4) = some { h with word := 1 } →
      (m.base.sight w (off + 4) { h with word := 1 } = .full ∨ m.base.sight w (off + 4) { h with word := 1 } = .readOnly) →
      s.reaches w off 8 false m →
        s.mod.begun.readAccess w off 8 none = (m, some ((m.base.word off).toNat + 2 ^ 32 * (m.base.word (off + 4)).toNat)))

/-- A register with no rule of its own takes a 32-bit write by its access codes and nothing else changes; a 64-bit write that covers
two such words acts on the lower offset first. -/
def Obligations.OrdinaryRegisterWrites : Prop :=
  ∀ (s : State) (w : Who) (off : Nat) (v : W64) (m : Mod) (h : RegHit),
    (s.writes w off m h → h.row.name.ordinary = true → exec (.registerWrite w off false v) s = .next (s.ends
      { m with base := m.base.setWord off (BitVec.ofNat 32 (codedWord h (m.base.word off).toNat v.toNat)) })) ∧
    (s.reaches w off 8 true m → regAt off = some h → h.row.name.ordinary = true →
      exec (.registerWrite w off true v) s = .next (s.ends
        ((m.decodeWrite w off (v.toNat % 2 ^ 32)).decodeWrite w (off + 4) (v.toNat / 2 ^ 32))))

/-- A counter of software's as it is written (R316): a 64-bit write replaces the count as one piece and clears ovf where bit 63 is
written as 1; a write of the lower word is only held; one of the upper word takes the held lower word with it, or the present one. A
high-water mark's clear bit puts the present depth into the mark (R72). -/
def Obligations.CountersAndMarksAreWritten : Prop :=
  ∀ (s : State) (w : Who) (off : Nat) (m : Mod) (h : RegHit),
    (∀ v : W64, s.writes w off m h → h.countsAt off → h.word = 0 →
      exec (.counterWrite w off false v) s = .next (s.ends
        { m with base := { m.base with cntHold := some (off, BitVec.ofNat 32 v.toNat) } })) ∧
    (∀ v : W64, s.writes w (off + 4) m h → h.countsAt off → h.word = 1 →
      let lo := match m.base.cntHold with
        | some (a, x) => if a = off then x.toNat else (m.base.word off).toNat
        | none => (m.base.word off).toNat
      let b : Base := { m.base with cntHold := none }
      let b := if bitOf v.toNat 31 then b.wr off F.CNT_ovf 0 else b
      exec (.counterWrite w (off + 4) false v) s = .next (s.ends
        { m with base := (b.wr off F.CNT_count (lo + 2 ^ 32 * (v.toNat % 65536))).newPoint off })) ∧
    (∀ (v : W64) (n : Mod), s.reaches w off 8 true n → regAt off = some h → h.word = 0 →
      h.countsAt off → n.base.sight w off h = .full →
      let b : Base := { n.base.dropHold off with cntHold := none }
      let b := if v.msb then b.wr off F.CNT_ovf 0 else b
      exec (.counterWrite w off true v) s = .next (s.ends
        { n with base := (b.wr off F.CNT_count (v.toNat % 2 ^ 48)).newPoint off })) ∧
    (∀ v : W32, s.writes w off m h → h.row.name = .SCH_Q_HWM → v.msb = true →
      exec (.hwmClear w off v) s = .next (s.ends { m with base := m.base.wr off F.SCH_Q_HWM_mark (m.depthAt off) })) ∧
    (∀ v : W32, s.writes w off m h → h.row.name = .SCH_BUF_HWM → v.msb = true →
      exec (.hwmClear w off v) s = .next (s.ends { m with base := m.base.wr off F.SCH_BUF_HWM_mark (m.depthAt off) })) ∧
    (∀ v : W32, s.writes w off m h → h.row.name = .BND_HOLD_HWM → v.msb = true →
      exec (.hwmClear w off v) s = .next (s.ends { m with base := m.base.wr off F.BND_HOLD_HWM_mark m.holdUsed }))

/-- Writes to the matcher, the buffer commit and the meters. XBR_CTRL: rounds takes a value that is not 0, and ptr_reset is kept for the
next cell time. BUF_COMMIT.go (R53): if the staged minimums and the mirror pool fit in the buffer they take effect, else error is
set and event 3:8 raised; the mark of the shared cells follows what they hold (R72); done reads 0 until the commit ends, at most 1 us later. A meter register takes the value, and an enable
from 0 to 1 fills both buckets (R68). -/
def Obligations.SwitchCoreWrites : Prop :=
  ∀ (s : State) (w : Who) (m : Mod) (h : RegHit) (v : W32),
    (s.writes w Reg.XBR_CTRL m h → exec (.ptrReset w v) s = .next (s.ends
      { m with base := if v.toNat % 4 = 0 then m.base else m.base.wr Reg.XBR_CTRL F.XBR_CTRL_rounds (v.toNat % 4),
               sw := { m.sw with ptrReset := m.sw.ptrReset || bitOf v.toNat 2 } })) ∧
    (s.writes w Reg.BUF_COMMIT m h → bitOf v.toNat 0 = true → bitOf v.toNat 2 = false →
      m.base.isSet Reg.BUF_COMMIT F.BUF_COMMIT_done = true →
      let b := m.base.wr Reg.BUF_COMMIT F.BUF_COMMIT_error 0
      let n : Mod := { m with base := b }
      let b := (b.wr Reg.BUF_COMMIT F.BUF_COMMIT_done 0).arm .bufCommit us
      let total := n.base.stagedMin.foldl (fun k x => k + x.2) 0 + n.base.rd Reg.BUF_MIRROR_POOL F.BUF_MIRROR_POOL_cells
      (total ≤ 262144 → exec (.bufCommitGo w v) s = .next (s.ends
        (let w : Switch := { m.sw with gmin := n.base.stagedMin, gMirror := n.base.rd Reg.BUF_MIRROR_POOL F.BUF_MIRROR_POOL_cells }
         ({ m with base := b.mark (Reg.SCH_BUF_HWM 219) F.SCH_BUF_HWM_mark w.sharedUse, sw := w } : Mod).afterRelease))) ∧
      (262144 < total → exec (.bufCommitGo w v) s = .next (s.ends
        ({ m with base := (b.wr Reg.BUF_COMMIT F.BUF_COMMIT_error 1).raise { group := 3, bit := 8 } } : Mod).afterRelease))) ∧
    (∀ (i : Fin 4096) (r : Fin 4), s.writes w (Reg.SCH_METER_CIR i.val + 4 * r.val) m h →
      let off := Reg.SCH_METER_CIR i.val + 4 * r.val
      let n : Mod := { m with base := m.base.setWord off (BitVec.ofNat 32 (codedWord h (m.base.word off).toNat v.toNat)) }
      exec (.meterWrite w i r v) s = .next (s.ends
        (if n.base.meterOn i.val && !m.base.meterOn i.val then
          { n with sw := n.sw.setMeter { m := i.val, tc := n.base.cbs i.val, tp := n.base.pbs i.val } }
         else n)))

/-- Doorbell writes act, are recorded or are ignored by the state of the slot (R167, R191); a write of SLC_QP_CFG that enables a pair
with legal sizes starts it IDLE with its pointers zero, and one that clears enable stops it; a write of SLC_EQ_CFG that enables the
event ring starts it empty. -/
def Obligations.QueueRegisterWrites : Prop :=
  ∀ (s : State) (w : Who) (m : Mod) (h : RegHit) (v : W32) (sl : Fin 1024) (q : Fin 64),
    (s.writes w (Reg.SLC_SQ_DB sl.val q.val) m h →
      exec (.sqDoorbell w sl q v) s = .next (s.ends (m.doorbell w sl.val q.val (v.toNat % 65536)))) ∧
    (s.writes w (Reg.SLC_CQ_DB sl.val q.val) m h →
      exec (.cqDoorbell w sl q v) s = .next (s.ends (m.doorbell w sl.val (64 + q.val) (v.toNat % 65536)))) ∧
    (s.writes w (Reg.SLC_EQ_DB sl.val) m h →
      exec (.eqDoorbell w sl v) s = .next (s.ends (m.doorbell w sl.val 128 (v.toNat % 65536)))) ∧
    (let a := Reg.SLC_QP_CFG sl.val q.val
     let st := Reg.SLC_QP_STATUS sl.val q.val
     let sq := bits v.toNat F.SLC_QP_CFG_sq_log2
     let cq := bits v.toNat F.SLC_QP_CFG_cq_log2
     s.writes w a m h → bitOf v.toNat 14 = false → bitOf v.toNat 0 = true → m.base.isSet a F.SLC_QP_CFG_enable = false →
      m.base.isSet st F.SLC_QP_STATUS_busy = false → sizeOk sq = true → sizeOk cq = true →
      let b := ((m.base.wr a F.SLC_QP_CFG_burst (bits v.toNat F.SLC_QP_CFG_burst)).wr a F.SLC_QP_CFG_sq_log2 sq).wr a
        F.SLC_QP_CFG_cq_log2 cq
      let b' := ((b.wr a F.SLC_QP_CFG_enable 1).wr st F.SLC_QP_STATUS_state 1).wr st F.SLC_QP_STATUS_cause 0
      exec (.qpEnable w sl q v) s = .next (s.ends
        { m with base := b'.setWord (Reg.SLC_QP_PTR sl.val q.val) 0#32,
                 qe := m.qe.setQp { gqp := b.qpBase sl.val + q.val, unsignalled := (m.qe.qp (b.qpBase sl.val + q.val)).unsignalled } })) ∧
    (let a := Reg.SLC_QP_CFG sl.val q.val
     s.writes w a m h → bitOf v.toNat 0 = false → bitOf v.toNat 14 = false → m.base.isSet a F.SLC_QP_CFG_enable = true →
      bits v.toNat F.SLC_QP_CFG_sq_log2 = (m.base.wr a F.SLC_QP_CFG_burst (bits v.toNat F.SLC_QP_CFG_burst)).rd a F.SLC_QP_CFG_sq_log2 →
      bits v.toNat F.SLC_QP_CFG_cq_log2 = (m.base.wr a F.SLC_QP_CFG_burst (bits v.toNat F.SLC_QP_CFG_burst)).rd a F.SLC_QP_CFG_cq_log2 →
      let b := m.base.wr a F.SLC_QP_CFG_burst (bits v.toNat F.SLC_QP_CFG_burst)
      exec (.qpDisable w sl q v) s = .next (s.ends
        (({ m with base := b.wr a F.SLC_QP_CFG_enable 0, qe := m.qe.noLost (b.qpBase sl.val + q.val) } : Mod).refreshBusy
          (b.qpBase sl.val + q.val)))) ∧
    (let a := Reg.SLC_EQ_CFG sl.val
     let st := Reg.SLC_EQ_STATUS sl.val
     s.writes w a m h → bitOf v.toNat 0 = true → bitOf v.toNat 17 = true → m.base.isSet a F.SLC_EQ_CFG_enable = false →
      sizeOk (bits v.toNat F.SLC_EQ_CFG_log2) = true → m.base.vectorOk sl.val (bits v.toNat F.SLC_EQ_CFG_vector) = true →
      let b := m.base.wr a F.SLC_EQ_CFG_vector (bits v.toNat F.SLC_EQ_CFG_vector)
      let b := (b.wr a F.SLC_EQ_CFG_irq_en (bits v.toNat F.SLC_EQ_CFG_irq_en)).wr a F.SLC_EQ_CFG_log2
        (bits v.toNat F.SLC_EQ_CFG_log2)
      let b := ((b.wr a F.SLC_EQ_CFG_enable 1).wr st F.SLC_EQ_STATUS_tail 0).wr st F.SLC_EQ_STATUS_enabled 1
      exec (.eqEnable w sl v) s = .next (s.ends { m with base := b.setEq { slice := sl.val } }))

/-- Writes to ordering and guard registers: SLC_FENCE.go covers what the slice has not finished (R134); a write of SLC_RSV_ADDR
takes the value and loses the slice's reservation with cause 0b110 (R137); GRD_COMMIT.go starts the commit of the masked guards (R148),
and is refused, guard by guard, while one runs (R149); a staged rule takes the value unless the active rule is locked, when the write is
ignored, counted and raised (R145). -/
def Obligations.OrderingAndGuardWrites : Prop :=
  ∀ (s : State) (w : Who) (m : Mod) (h : RegHit) (sl : Fin 1024),
    (∀ v : W32, s.writes w (Reg.SLC_FENCE sl.val) m h → bitOf v.toNat 0 = true →
      m.base.isSet (Reg.SLC_FENCE sl.val) F.SLC_FENCE_done = true →
      let cov := (m.qe.descs.filter (fun d => d.slice == sl.val && (bitOf v.toNat 1 || d.first.isNone))).map Desc.id
      exec (.slcFenceGo w sl v) s = .next (s.ends
        ({ m with base := m.base.wr (Reg.SLC_FENCE sl.val) F.SLC_FENCE_done 0,
                  qe := { m.qe with fences := m.qe.fences ++
                    [{ desc := none, slice := sl.val, gqp := none, covered := cov, final := bitOf v.toNat 1 }] } } : Mod).fences)) ∧
    (∀ (i : Fin 2) (v : W64), let off := Reg.SLC_RSV_ADDR sl.val + 4 * i.val
      s.writes w off m h → exec (.rsvAddrWrite w sl i false v) s = .next (s.ends
        (({ m with base := m.base.setWord off (BitVec.ofNat 32 (codedWord h (m.base.word off).toNat v.toNat)) } : Mod).loseRsv
          (fun r => r.slice == sl.val) 6))) ∧
    (∀ (i : Fin 2) (v : W64) (n : Mod), s.reaches w (Reg.SLC_RSV_ADDR sl.val + 4 * i.val) 8 true n →
      exec (.rsvAddrWrite w sl i true v) s = .next (s.ends (n.decodeWide w (Reg.SLC_RSV_ADDR sl.val + 4 * i.val) v.toNat))) ∧
    (∀ v : W32, s.writes w Reg.GRD_COMMIT m h → bitOf v.toNat 0 = true → bitOf v.toNat 2 = false →
      let mask := m.base.word64 Reg.GRD_COMMIT_MASK % 2 ^ 41
      (m.base.isSet Reg.GRD_COMMIT F.GRD_COMMIT_done = true →
        exec (.grdCommitGo w v) s = .next (s.ends (m.startCommit mask none))) ∧
      (m.base.isSet Reg.GRD_COMMIT F.GRD_COMMIT_done = false →
        exec (.grdCommitGo w v) s = .next (s.ends
          { m with base := (maskGuards mask).foldl (fun b g => b.raise (guardEv g 4 0 0))
                             (m.base.wr Reg.GRD_COMMIT F.GRD_COMMIT_refused 1) }))) ∧
    (∀ (g : Fin 41) (r : Fin 64) (o : Fin 8) (v : W64), let off := Reg.GRD_RULE_BASE g.val r.val + 4 * o.val
      s.writes w off m h →
      (m.base.ruleLocked g.val r.val = false → exec (.guardRuleWrite w g r o false v) s = .next (s.ends
        { m with base := m.base.setWord off (BitVec.ofNat 32 (codedWord h (m.base.word off).toNat v.toNat)) })) ∧
      (m.base.ruleLocked g.val r.val = true → exec (.guardRuleWrite w g r o false v) s = .next (s.ends
        { m with base := (m.base.bump (Reg.GRD_CNT g.val 5)).raise (guardEv g.val 1 0 0) }))) ∧
    (∀ (g : Fin 41) (r : Fin 64) (o : Fin 8) (v : W64) (n : Mod), let off := Reg.GRD_RULE_BASE g.val r.val + 4 * o.val
      s.reaches w off 8 true n → n.base.sight w off h = .full → regAt off = some h → wholeWrite h.row.name = true → h.word = 0 →
      n.base.ruleLocked g.val r.val = false → exec (.guardRuleWrite w g r o true v) s = .next (s.ends
        (let b := n.base.dropHold off
         { n with base := (b.setWord off (BitVec.ofNat 32 (codedWord h (b.word off).toNat (v.toNat % 2 ^ 32)))).setWord (off + 4)
                     (BitVec.ofNat 32 (codedWord { h with word := 1 } (b.word (off + 4)).toNat (v.toNat / 2 ^ 32))) })))

/-- The atomic pair of R135 and R136 by its registers: a 64-bit read of SLC_RSV_LR performs the load-reserved, a read of SLC_RSV_SC
the conditional store, and the accessor gets what each returns. -/
def Obligations.AtomicPairReads : Prop :=
  ∀ (s : State) (w : Who) (m : Mod) (h : RegHit) (sl : Fin 1024),
    (let a := Reg.SLC_RSV_LR sl.val
     regAt a = some h → m.base.sight w a h = .full → s.reaches w a 8 false m →
      let (n, v) := m.loadReserved w sl.val
      let n : Mod := { n with ord := n.ord.setRsv { n.ord.rsv sl.val with latch := BitVec.ofNat 32 (v / 2 ^ 32) } }
      n.base.sight w (a + 4) { h with word := 1 } = .full → regAt (a + 4) = some { h with word := 1 } →
      exec (.loadReserved w sl) s = .next (s.ends
        { n with base := n.base.emit (.readData w (BitVec.ofNat 64 (v % 2 ^ 32 + 2 ^ 32 * (v / 2 ^ 32 % 2 ^ 32)))) })) ∧
    (let a := Reg.SLC_RSV_SC sl.val
     regAt a = some h → m.base.sight w a h = .full → s.reaches w a 4 false m →
      exec (.conditionalStore w sl) s = .next (s.ends
        { (m.conditionalStore w sl.val).1 with
          base := (m.conditionalStore w sl.val).1.base.emit
            (.readData w (BitVec.ofNat 64 (m.conditionalStore w sl.val).2)) }))

/-- Writes to a channel of a hod: on a direct-mode channel, go latches a start (R103), abort ends the run and clears a latched start
(R118), both together abort first; a shadow write stores the value and clears seal, and a write of SEAL sets it (R119);
HOD_CTL.hold takes the value and shows in HOD_STATUS (R121). On a queue-mode channel each is ignored, counted and raised (R104). -/
def Obligations.HodRegisterWrites : Prop :=
  ∀ (s : State) (w : Who) (m : Mod) (r : RegHit) (h : Fin 16) (c : Fin 64),
    (∀ go : Bool, s.writes w (Reg.HOD_CH_CTL h.val c.val) m r → m.base.direct h.val c.val = true → m.base.mayDirect w = true →
      let st : HodStart := { h := h.val, c := c.val, desc := none, mgmt := match w with
        | .mgmt _ => true
        | _ => false }
      exec (.hodGo w h c) s = .next (s.ends (m.start st)) ∧
      exec (.hodAbort w h c go) s = .next (s.ends (if go then (m.abort h.val c.val false).start st else m.abort h.val c.val false))) ∧
    (∀ (o : Fin 12) (v : W64), let off := Reg.HOD_CH_SH_SRC h.val c.val + 4 * o.val
      s.writes w off m r → m.base.direct h.val c.val = true → m.base.mayDirect w = true →
      exec (.hodShadowWrite w h c (4 * o.val) false v) s = .next (s.ends
        { m with base := (m.base.setWord off (BitVec.ofNat 32 (codedWord r (m.base.word off).toNat v.toNat))).wr
                   (Reg.HOD_CH_SH_SEAL h.val c.val) F.HOD_CH_SH_SEAL_seal 0 })) ∧
    (∀ (o : Nat) (v : W64) (n : Mod), o < 0x30 → let off := Reg.HOD_CH_SH_SRC h.val c.val + o
      s.reaches w off 8 true n → n.base.sight w off r = .full → regAt off = some r → wholeWrite r.row.name = true → r.word = 0 →
      n.base.direct h.val c.val = true → n.base.mayDirect w = true → exec (.hodShadowWrite w h c o true v) s = .next (s.ends
        (let b := n.base.dropHold off
         let b' := (b.setWord off (BitVec.ofNat 32 (codedWord r (b.word off).toNat (v.toNat % 2 ^ 32)))).setWord (off + 4)
                     (BitVec.ofNat 32 (codedWord { r with word := 1 } (b.word (off + 4)).toNat (v.toNat / 2 ^ 32)))
         { n with base := b'.wr (Reg.HOD_CH_SH_SEAL h.val c.val) F.HOD_CH_SH_SEAL_seal 0 }))) ∧
    (∀ v : W32, s.writes w (Reg.HOD_CH_SH_SEAL h.val c.val) m r → m.base.direct h.val c.val = true → m.base.mayDirect w = true →
      exec (.hodSealWrite w h c v) s = .next (s.ends
        { m with base := m.base.wr (Reg.HOD_CH_SH_SEAL h.val c.val) F.HOD_CH_SH_SEAL_seal (v.toNat % 2) })) ∧
    (∀ v : W32, s.writes w (Reg.HOD_CTL h.val) m r →
      exec (.hodHoldWrite w h v) s = .next (s.ends
        (({ m with base := m.base.wr (Reg.HOD_CTL h.val) F.HOD_CTL_hold (v.toNat % 2) } : Mod).showHod h.val))) ∧
    (s.writes w (Reg.HOD_CH_CTL h.val c.val) m r → m.base.direct h.val c.val = false →
      exec (.hodGo w h c) s = .next (s.ends
        { m with base := (m.base.bump (Reg.HOD_CNT h.val 5)).misuse w (m.base.rd (Reg.HOD_CH_MODE h.val c.val) F.HOD_CH_MODE_slice) }))

/-- Writes to park registers. PRK_LEDGER_BUDGET (R89) takes the value and the plan runs. PRK_SHELF_CTL (R91, R92, R95): pin takes the
value, holds off the idle hold, and its end starts the idle time anew; wake_now takes effect with a live entry; clear_fail makes a
FAILED slot ASLEEP, unless its park engine is held (R309); and the plan runs. WAKE_NOW and CLEAR_FAIL write their bit with pin as it
stands (the model's reading, log entry 23). A peek (R80) of a live entry copies its 64 bytes into PRK_PEEK_DATA, once the park engine
has its tables (R327). -/
def Obligations.ParkRegisterWrites : Prop :=
  ∀ (s : State) (w : Who) (m : Mod) (h : RegHit) (n : Fin 56),
    (∀ v : W32, s.writes w Reg.PRK_LEDGER_BUDGET m h → exec (.ledgerBudgetWrite w v) s = .next (s.ends
      { m with base := m.base.setWord Reg.PRK_LEDGER_BUDGET
                         (BitVec.ofNat 32 (codedWord h (m.base.word Reg.PRK_LEDGER_BUDGET).toNat v.toNat)),
               prk := { m.prk with planDue := true } })) ∧
    (∀ v : W32, s.writes w (Reg.PRK_SHELF_CTL n.val) m h →
      let a := Reg.PRK_SHELF_CTL n.val
      let was := m.base.isSet a F.PRK_SHELF_CTL_pin
      let x := m.prk.slot n.val
      let b := m.base.wr a F.PRK_SHELF_CTL_pin (v.toNat % 2)
      let b := if bitOf v.toNat 0 then b.disarm (.idleHold n.val)
        else if was && b.slotState n.val == 6 && !x.sweeping then
          b.arm (.idleHold n.val) (b.rd (Reg.PRK_SHELF_TIME n.val) F.PRK_SHELF_TIME_idle_hold_s * sec)
        else b
      let x := if was && !bitOf v.toNat 0 then { x with idleFrom := b.now } else x
      let x := if bitOf v.toNat 1 && !(m.prk.live n.val).isEmpty then { x with wakeNow := true } else x
      (bitOf v.toNat 2 = false → exec (.shelfPinWrite w n v) s = .next (s.ends
        { m with base := b, prk := { (m.prk.setSlot x) with planDue := true } })) ∧
      (bitOf v.toNat 2 = true → b.slotState n.val = 9 → m.pl.parkHeld.contains (n.val % 4) = false →
        exec (.shelfPinWrite w n v) s = .next (s.ends
          { m with base := (b.setSlotState n.val 0).wr (Reg.PRK_SHELF_STATE n.val) F.PRK_SHELF_STATE_fails 0,
                   dirty := m.dirty ++ (m.base.slotPort n.val).toList,
                   prk := { (m.prk.setSlot x) with planDue := true } }))) ∧
    (s.writes w (Reg.PRK_SHELF_CTL n.val) m h →
      let pin := b2n (s.mod.begun.base.isSet (Reg.PRK_SHELF_CTL n.val) F.PRK_SHELF_CTL_pin)
      exec (.wakeNow w n) s = .next (s.ends (m.shelfCtl n.val (2 + pin))) ∧
      exec (.clearFail w n) s = .next (s.ends (m.shelfCtl n.val (4 + pin)))) ∧
    (∀ (v : W32) (e : Entry), s.writes w Reg.PRK_PEEK_IDX m h → m.base.stage = 6 → bitOf v.toNat 31 = true →
      m.prk.entry (v.toNat % 2 ^ 22) = some e → exec (.peekGo w v) s = .next (s.ends
        { m with base := ((List.range 16).foldl (fun b j => b.setWord (Reg.PRK_PEEK_DATA j) (BitVec.ofNat 32 (fieldAt e.raw (4 * j) 4)))
                           (m.base.wr Reg.PRK_PEEK_IDX F.PRK_PEEK_IDX_index (v.toNat % 2 ^ 22))).wr
                           Reg.PRK_PEEK_STATUS F.PRK_PEEK_STATUS_done 1 }))

/-- Writes to ports, lanes and Camtex links. PRT_CTL of a downstream port: contain alone contains it with cause 0b11 (R217), release
alone ends containment (R219). PRT_SLOT (R215): a rise of present sets changed, ends containment and runs the plan; a fall counts in
PRT_CNT[5] and removes the shelf by surprise. SER_TX_COEF (R235): a valid setting with override is used, an invalid one sets bad.
SER_TILE_CTL.test from 0 to 1 (R242) raises event 10:t with cause 1, ungates the tile and takes its PCI Express ports down.
SER_TILE_CFG.camtex_85 (R265) changed on a Camtex tile whose port may train, and FAB_CTL.reset (R262), start a link reset with
cause 0b1001. -/
def Obligations.PortAndLaneRegisterWrites : Prop :=
  ∀ (s : State) (w : Who) (m : Mod) (h : RegHit) (p : Fin 64) (l : Fin 256) (t : Fin 32) (k : Fin 8) (v : W32),
    (s.writes w (Reg.PRT_CTL p.val) m h → m.base.portRole p.val = 2 →
      (bitOf v.toNat 0 = true → bitOf v.toNat 1 = false →
        exec (.portContain w p v) s = .next (s.ends (m.containPort p.val 3))) ∧
      (bitOf v.toNat 0 = false → bitOf v.toNat 1 = true →
        exec (.portRelease w p v) s = .next (s.ends (m.releasePort p.val))) ∧
      (bitOf v.toNat 0 = true → bitOf v.toNat 1 = true →
        exec (.portContain w p v) s = .next (s.ends { m with base := m.base.misuse w 0 }))) ∧
    (s.writes w (Reg.PRT_SLOT p.val) m h → m.base.portRole p.val = 2 →
      let a := Reg.PRT_SLOT p.val
      let b := if bitOf v.toNat 1 then m.base.wr a F.PRT_SLOT_changed 0 else m.base
      (bitOf v.toNat 0 = b.isSet a F.PRT_SLOT_present → exec (.slotPresentWrite w p v) s = .next (s.ends { m with base := b })) ∧
      (bitOf v.toNat 0 = true → b.isSet a F.PRT_SLOT_present = false →
        let n := ({ m with base := (b.wr a F.PRT_SLOT_present 1).wr a F.PRT_SLOT_changed 1, dirty := m.dirty ++ [p.val] } : Mod).releasePort p.val
        exec (.slotPresentWrite w p v) s = .next (s.ends { n with prk := { n.prk with planDue := true } })) ∧
      (bitOf v.toNat 0 = false → b.isSet a F.PRT_SLOT_present = true →
        let b := (b.wr a F.PRT_SLOT_present 0).wr a F.PRT_SLOT_changed 1
        b.rd (Reg.PRT_CFG p.val) F.PRT_CFG_slot < 56 →
        exec (.slotPresentWrite w p v) s = .next (s.ends
          (({ m with base := b.bump (Reg.PRT_CNT p.val 5), dirty := m.dirty ++ [p.val] } : Mod).surpriseRemoval
            (b.rd (Reg.PRT_CFG p.val) F.PRT_CFG_slot))))) ∧
    (s.writes w (Reg.SER_TX_COEF l.val) m h → bitOf v.toNat 17 = false →
      let a := Reg.SER_TX_COEF l.val
      let pre := bits v.toNat F.SER_TX_COEF_pre
      let post := bits v.toNat F.SER_TX_COEF_post
      (bitOf v.toNat 16 = false → exec (.txCoefWrite w l v) s = .next (s.ends
        { m with base := m.base.wr a F.SER_TX_COEF_override 0 })) ∧
      (bitOf v.toNat 16 = true → pre ≤ 12 → pre + post ≤ 16 → exec (.txCoefWrite w l v) s = .next (s.ends
        { m with base := (((m.base.wr a F.SER_TX_COEF_override 1).wr a F.SER_TX_COEF_pre pre).wr a F.SER_TX_COEF_post post).wr a
                   F.SER_TX_COEF_main (48 - pre - post) })) ∧
      (bitOf v.toNat 16 = true → (12 < pre ∨ 16 < pre + post) → exec (.txCoefWrite w l v) s = .next (s.ends
        { m with base := m.base.wr a F.SER_TX_COEF_bad 1 }))) ∧
    (s.writes w (Reg.SER_TILE_CTL t.val) m h → m.base.inTest t.val = false → bitOf v.toNat 0 = true → m.base.camTile t.val = false →
      let a := Reg.SER_TILE_CTL t.val
      let b := (m.base.wr a F.SER_TILE_CTL_test 1).wr a F.SER_TILE_CTL_no_gate (b2n (bitOf v.toNat 1))
      let n : Mod := { m with base := (b.raise { group := 10, bit := t.val, cause := 1 }).tileUngate t.val }
      (n.tileDown t.val).base.camTile t.val = false →
      exec (.tileTestWrite w t v) s = .next (s.ends (n.tileDown t.val))) ∧
    (s.writes w (Reg.SER_TILE_CFG t.val) m h → 24 ≤ t.val →
      let a := Reg.SER_TILE_CFG t.val
      let b := ((m.base.wr a F.SER_TILE_CFG_camtex_85 (b2n (bitOf v.toNat 6))).wr a F.SER_TILE_CFG_good_ei (bits v.toNat ⟨8, 8⟩)).wr a
        F.SER_TILE_CFG_idle_us (bits v.toNat ⟨16, 16⟩)
      (b.camTile t.val = true → b.camMay (t.val - 24) = true → m.base.isSet a F.SER_TILE_CFG_camtex_85 = !bitOf v.toNat 6 →
        exec (.camtexRateWrite w t v) s = .next (s.ends (({ m with base := b } : Mod).linkReset (t.val - 24) 9))) ∧
      (m.base.isSet a F.SER_TILE_CFG_camtex_85 = bitOf v.toNat 6 →
        exec (.camtexRateWrite w t v) s = .next (s.ends { m with base := b }))) ∧
    (s.writes w (Reg.FAB_CTL k.val) m h → bitOf v.toNat 0 = true → m.base.camMay k.val = true →
      exec (.fabReset w k v) s = .next (s.ends (m.linkReset k.val 9)))

/-- Writes to bond registers. BND_LEND_CTL.go (R285) of a lend or unlend in a fabric sends the request and done reads 0 until it is
answered. A write to register 1 to 7 of a routing entry is staged for its writer, and one to register 0 puts the staged words into the
table as one piece (R293). BND_STREAM_IDX.go copies a stream's state into BND_STREAM_DATA (R272). -/
def Obligations.BondRegisterWrites : Prop :=
  ∀ (s : State) (w : Who) (m : Mod) (h : RegHit) (v : W32),
    (s.writes w Reg.BND_LEND_CTL m h → bitOf v.toNat 28 = true → m.base.isSet Reg.BND_LEND_CTL F.BND_LEND_CTL_done = true →
      let a := Reg.BND_LEND_CTL
      let keep := (m.base.word a).toNat
      let b := m.base.setWord a (BitVec.ofNat 32 (v.toNat % 2 ^ 28 + 2 ^ 29 * bits keep ⟨29, 1⟩ +
        2 ^ 30 * (if bitOf v.toNat 30 then 0 else bits keep ⟨30, 1⟩)))
      let op := bits v.toNat F.BND_LEND_CTL_op
      (op = 1 ∨ op = 2) → b.isSet Reg.BND_CFG F.BND_CFG_fabric = true → b.bondOn = true →
      let r : LendReq := { unlend := op == 2, ownerPath := bits v.toNat F.BND_LEND_CTL_owner_path, slot := bits v.toNat F.BND_LEND_CTL_slot,
                           borrowerPath := b.path, partition := bits v.toNat F.BND_LEND_CTL_partition,
                           dev := bits v.toNat F.BND_LEND_CTL_dev }
      exec (.lendGo w v) s = .next (s.ends
        (({ m with base := b.wr a F.BND_LEND_CTL_done 0, bnd := { m.bnd with asks := [r] } } : Mod).askKeystone r))) ∧
    (∀ (e : Fin 65536) (i : Fin 8), s.writes w (rtOff e.val i.val) m h → 0 < i.val →
      let x := m.rtStageOf w e.val
      exec (.rtWordWrite w e i v) s = .next (s.ends
        { m with bnd := { m.bnd with rtStage := m.bnd.rtStage.filter (fun y => y.who != rtWriter w) ++
                            [{ x with words := x.words.filter (fun y => y.1 != i.val) ++ [(i.val, BitVec.ofNat 32 (v.toNat &&& rtMask i.val))] }] } })) ∧
    (∀ e : Fin 65536, s.writes w (rtOff e.val 0) m h → exec (.rtEntryCommit w e v) s = .next (s.ends
      { m with base := ((m.rtStageOf w e.val).words.foldl (fun b x => b.setWord (rtOff e.val x.1) x.2) m.base).setWord (rtOff e.val 0)
                         (BitVec.ofNat 32 (v.toNat &&& rtMask 0)),
               bnd := { m.bnd with rtStage := m.bnd.rtStage.filter (fun y => y.who != rtWriter w) } })) ∧
    (s.writes w Reg.BND_STREAM_IDX m h →
      let b := m.base.setWord Reg.BND_STREAM_IDX (BitVec.ofNat 32 (v.toNat % 2 ^ 14))
      let cls := if bitOf v.toNat 12 then SegClass.response else SegClass.request
      (bitOf v.toNat 31 = false → exec (.streamPeek w v) s = .next (s.ends { m with base := b })) ∧
      (bitOf v.toNat 31 = true → bitOf v.toNat 13 = true →
        let x := m.inStream (v.toNat % 4096) cls
        exec (.streamPeek w v) s = .next (s.ends
          { m with base := b.setWord64 Reg.BND_STREAM_DATA (x.e + 2 ^ 52 * (if x.synced then 2 else 0) + 2 ^ 63) })) ∧
      (bitOf v.toNat 31 = true → bitOf v.toNat 13 = false →
        exec (.streamPeek w v) s = .next (s.ends
          { m with base := b.setWord64 Reg.BND_STREAM_DATA ((match m.bnd.out (v.toNat % 4096) cls with
                     | none => 0
                     | some o => o.next + 2 ^ 32 * o.held.length + 2 ^ 49 * o.port.getD 0 + 2 ^ 52 * o.state) + 2 ^ 63) })))

/-- Writes that command the module as a whole. PMC_GLOBAL.run takes the value (R315). CLK_RESET (R329, R343): with the reset code, warm
and cold request a reset with causes 0b1000 and 0b0010, and power_off a take-down that ends in power off; with another code nothing but
an event. CLK_BLK_RESET.go (R331) resets a block that it may reset, done reading 0 for 1 ms, and refuses another. CLK_LC_CMD (R338,
R339): an allowed transition with the code raises event 2:4, stands pending, and a cold reset follows with cause 0b0100. CLK_IMG_CTL.go
(R334) reads the file from the manager's host memory, at most 4 KiB at a time, with a tag of the manager's port, Bus Master Enable set and
under guard 20. CLK_CAL_CTL.save (R335) copies every cal field. PWR_CTL (R349,
R354): with its code, a power-on command frees state OFF_CMD and retry_clear the count and state LATCHED. -/
def Obligations.ModuleRegisterWrites : Prop :=
  ∀ (s : State) (w : Who) (m : Mod) (h : RegHit) (v : W32),
    (s.writes w Reg.PMC_GLOBAL m h → exec (.pmcRunWrite w v) s = .next (s.ends
      { m with base := m.base.setWord Reg.PMC_GLOBAL
                         (BitVec.ofNat 32 (codedWord h (m.base.word Reg.PMC_GLOBAL).toNat v.toNat)) })) ∧
    (s.writes w Reg.CLK_RESET m h →
      (bits v.toNat F.CLK_RESET_code = Config.resetCode → bitOf v.toNat 2 = false →
        (bitOf v.toNat 1 = false → bitOf v.toNat 0 = true →
          exec (.clkResetWarm w v) s = .next (s.ends (m.requestReset false 8))) ∧
        (bitOf v.toNat 1 = true → exec (.clkResetCold w v) s = .next (s.ends (m.requestReset true 2)))) ∧
      (bits v.toNat F.CLK_RESET_code = Config.resetCode → bitOf v.toNat 2 = true → bitOf v.toNat 1 = false → bitOf v.toNat 0 = false →
        m.pl.dieOn = true → m.base.stage ≠ 8 →
        exec (.clkResetOff w v) s = .next (s.ends (m.requestDown { cold := true, cause := 6, off := 1 }))) ∧
      (bits v.toNat F.CLK_RESET_code ≠ Config.resetCode →
        exec (.clkResetWarm w v) s = .next (s.ends { m with base := m.base.misuse w 0 }))) ∧
    (s.writes w Reg.CLK_BLK_RESET m h → bitOf v.toNat 29 = false → bitOf v.toNat 31 = true →
      let a := Reg.CLK_BLK_RESET
      let i := bits v.toNat F.CLK_BLK_RESET_index
      let b := (m.base.wr a F.CLK_BLK_RESET_kind (v.toNat % 8)).wr a F.CLK_BLK_RESET_index i
      b.isSet a F.CLK_BLK_RESET_done = true →
      (m.blockOk (v.toNat % 8) i = true → exec (.blockReset w v) s = .next (s.ends
        (({ m with base := (b.wr a F.CLK_BLK_RESET_done 0).arm .blockReset ms } : Mod).resetBlock (v.toNat % 8) i))) ∧
      (m.blockOk (v.toNat % 8) i = false → exec (.blockReset w v) s = .next (s.ends
        { m with base := b.wr a F.CLK_BLK_RESET_refused 1 }))) ∧
    (s.writes w Reg.CLK_LC_CMD m h →
      let target := bits v.toNat F.CLK_LC_CMD_target
      (bits v.toNat F.CLK_LC_CMD_code = Config.lifecycleCode → m.pl.lcNext = none → lcAllowed m.pl.lc target m.pl.token = true →
        exec (.lifecycleCommand w v) s = .next (s.ends
          (({ m with base := ((m.base.wr Reg.CLK_LC_STATE F.CLK_LC_STATE_pending 1).raise { group := 2, bit := 4 }).flush,
                     pl := { m.pl with lcNext := some target, token := none } } : Mod).requestReset true 4))) ∧
      ((bits v.toNat F.CLK_LC_CMD_code ≠ Config.lifecycleCode ∨ m.pl.lcNext.isSome = true ∨ lcAllowed m.pl.lc target m.pl.token = false) →
        exec (.lifecycleCommand w v) s = .next (s.ends { m with base := m.base.misuse w 0 }))) ∧
    (s.writes w Reg.CLK_IMG_CTL m h → bitOf v.toNat 2 = true → m.imgBusy = false → m.tagOf .image = none →
      let a := Reg.CLK_IMG_CTL
      let b := (m.base.wr a F.CLK_IMG_CTL_type (v.toNat % 4)).wr a F.CLK_IMG_CTL_len_kib (bits v.toNat F.CLK_IMG_CTL_len_kib)
      let len := b.rd a F.CLK_IMG_CTL_len_kib
      b.isSet Reg.CLK_CAL_STATUS F.CLK_CAL_STATUS_busy = false → 0 < len →
      let n : Mod := { m with base := b.wr a F.CLK_IMG_CTL_done 0, pl := { m.pl with img := some { kind := v.toNat % 4, len := len, smbus := false } } }
      let p := n.base.manager
      let addr := n.base.word64 Reg.CLK_IMG_ADDR / 4096 * 4096
      let pas := some (n.base.slicePasid 0)
      let part := min 4096 (1024 * len)
      let r := n.base.guard 20 { space := 1, sel := p, addr := addr, len := part, rd := true, secure := true, pasid := pas, ident := 20 }
      let failed := fun (b : Base) =>
        ({ n with base := (b.wr a F.CLK_IMG_CTL_done 1).wr a F.CLK_IMG_CTL_result 1, pl := { n.pl with img := none } } : Mod)
      (∀ port t : Nat, n.base.upstreamPort p = some port → n.base.bme p = true → n.freeTag port = some t →
        (r.2 = none → exec (.imageUpdateGo w v) s = .next (s.ends
          (({ n with base := r.1.emit (.hostRead p addr pas part 0) } : Mod).takeTag port t part .image))) ∧
        (r.2.isSome = true → exec (.imageUpdateGo w v) s = .next (s.ends (failed r.1)))) ∧
      (n.base.bme p = false → exec (.imageUpdateGo w v) s = .next (s.ends (failed n.base)))) ∧
    (s.writes w Reg.CLK_CAL_CTL m h → bits v.toNat F.CLK_CAL_CTL_code = Config.calCode → bitOf v.toNat 0 = true →
      m.base.isSet Reg.CLK_CAL_STATUS F.CLK_CAL_STATUS_busy = false → exec (.calSave w v) s = .next (s.ends
        { m with base := (m.base.wr Reg.CLK_CAL_STATUS F.CLK_CAL_STATUS_busy 1).arm .calSave (50 * ms),
                 pl := { m.pl with calCopy := calRegs.filterMap (fun a =>
                           let x := m.base.word a &&& maskWord RegRow.cal a
                           if x = 0#32 then none else some (a, x)) } })) ∧
    (s.writes w Reg.PWR_CTL m h →
      (bits v.toNat F.PWR_CTL_code = 0x5F0A → bitOf v.toNat 0 = true → bitOf v.toNat 1 = false → m.base.feState = 6 →
        exec (.powerOnCommand w v) s = .next (s.ends (({ m with base := m.base.setFe 0 } : Mod).tryPowerUp))) ∧
      (bits v.toNat F.PWR_CTL_code = 0x5F0A → bitOf v.toNat 0 = false → bitOf v.toNat 1 = true →
        let b := m.base.wr Reg.PWR_RETRY F.PWR_RETRY_used 0
        exec (.retryClear w v) s = .next (s.ends (({ m with base := if b.feState = 5 then b.setFe 0 else b } : Mod).tryPowerUp))) ∧
      (bits v.toNat F.PWR_CTL_code ≠ 0x5F0A →
        exec (.powerOnCommand w v) s = .next (s.ends { m with base := m.base.misuse w 0 })))

/-- An access that does not reach the decoder: one that hangs (R327) is recorded until the watchdog ends it, one that its guard denies
(R150) is answered as an error, and a host's to an endpoint in D3hot is an Unsupported Request (R156). While the plinth alone answers (R370), SMBus writes the registers of the front end and is
refused elsewhere. -/
def Obligations.AccessesThatDoNotReachTheDecoder : Prop :=
  ∀ (s : State) (w : Who) (off : Nat) (wide : Bool) (v : W64) (m : Mod),
    (s.hangs w off = true →
      let n := s.drained w
      exec (.registerWrite w off wide v) s = .next (s.ends
        { n with base := { n.base with hung := n.base.hung ++ [(w, off, true)] } })) ∧
    (s.denies w off (if wide then 8 else 4) true = true →
      let n := s.found w off (if wide then 8 else 4) true
      exec (.registerWrite w off wide v) s = .next (s.ends { n with base := n.base.deniedAccess w true })) ∧
    (∀ p : Fin 8, s.dieIs m → m.pl.m2 ≠ 2 → m.base.d3hot p.val = true →
      exec (.registerWrite (.host p) off wide v) s = .next (s.ends { m with base := m.base.hostErr p.val 20 0 [] })) ∧
    (s.powerIs m → m.plinthOnly = true →
      (inPwr off = true → off % 4 = 0 → exec (.registerWrite .smbus off false v) s = .next (s.ends (m.decodeWrite .smbus off v.toNat))) ∧
      (inPwr off = false → exec (.registerWrite .smbus off wide v) s = .next (s.ends { m with base := m.base.emit .nack })))

/-! ### The switch core and the egress scheduler -/

/-- Frames, cells and ticks. A frame that the link layer rejects is gone; an analysis port discards what arrives (R59); else it spends
the credits its sender held, is counted in events 0x200 and 0x201, and goes on as its port and address say (R40, R51). A cell time
(R44) takes 2 ns. An ECC error (R41) is counted and raised, and poisons a stored frame or makes it an error frame for port 40. A commit
of BUF_COMMIT ends with done 1 (R53). A PCI Express egress port sends the frame that R65 picks; one that cannot deliver disposes of
its oldest frame (R54). A tick brings time to the next multiple of 64 ns (R67, R71). -/
def Obligations.SwitchCommands : Prop :=
  ∀ (s : State) (m : Mod),
    (∀ (p : Fin 64) (t : Tlp), s.coreIs m → m.admits p.val = true →
      (m.base.portRole p.val = 3 → exec (.tlpReceive p t .good) s = .next (s.ends { m with base := m.base.bump (Reg.PRT_CNT p.val 1) })) ∧
      (m.base.portRole p.val = 1 ∨ m.base.portRole p.val = 2 →
        (∀ (x : LinkCheck) (e : Nat), linkCheckBit x = some e →
          exec (.tlpReceive p t x) s = .next (s.ends { m with base := m.base.portCor p.val e })) ∧
        (let c := m.sw.credit p.val (tlpVc t)
         let n : Mod := { m with base := ((m.base.occ 0x200 p.val none 1).occ 0x201 p.val none (tlpBytes t)).restartL1 p.val,
                                 sw := m.sw.spendCredit p.val (tlpVc t) (tlpPadded t).length false }
         0 < c.hdrOut → cdiv (tlpPadded t).length 16 ≤ c.dataOut → (tlpPadded t).length ≤ 1024 → n.base.mcGroup p.val t = none →
         exec (.tlpReceive p t .good) s = .next (s.ends
           ((if m.base.portRole p.val = 1 then n.fromHost p.val t else n.fromShelf p.val t).releaseCredit p.val (tlpVc t)))))) ∧
    (s.coreIs m → exec .cellSlotMatch s = .next (s.ends ({ m with base := { m.base with now := m.base.now + 2 } } : Mod).cellSlot)) ∧
    (∀ (id : Nat) (f : Frame), s.coreIs m → m.sw.frame id = some f →
      exec (.bufEccError id .correctable) s = .next (s.ends
        { m with base := (m.base.bump Reg.BUF_ECC_CE).raise { group := 3, bit := 0 } }) ∧
      exec (.bufEccError id .data) s = .next (s.ends
        { m with base := (m.base.bump Reg.BUF_ECC_UE).raise { group := 3, bit := 1, sev := 1 },
                 sw := m.sw.setFrame { f with poison := true } }) ∧
      exec (.bufEccError id .sideband) s = .next (s.ends
        (let x := m.sw.setFrame { f with errFrame := true, refs := 1, dstXp := 40, dstSub := 0 }
         { m with base := (m.base.bump Reg.BUF_ECC_UE).raise { group := 3, bit := 1, sev := 1 },
                  sw := { x with xfers := x.xfers.filter (fun y => y.frame != id) ++ [{ frame := id, eg := 40, sub := 0 }],
                                 egress := x.egress.filter (fun y => y.frame != id) } }))) ∧
    (s.coreDue .bufCommit m → exec .bufCommitDone s = .next (s.ends
      { m with base := m.base.wr Reg.BUF_COMMIT F.BUF_COMMIT_done 1 })) ∧
    (∀ (p : Fin 64) (a : PartnerCredit), s.coreIs m → m.base.portRole p.val ≠ 4 →
      (∀ (d : Bool) (f : Frame), m.base.undeliverable p.val = some d → m.sw.oldestAt p.val = some f →
        exec (.egressSend p a.p a.np a.cpl) s = .next (s.ends (m.dispose p.val f d))) ∧
      (∀ (n : Mod) (q : Nat) (f : Frame), m.base.undeliverable p.val = none → m.hostHeld p.val = none →
        m.pick p.val (partnerCredit a) = (n, some (q, f)) →
        let n := (n.accountSend p.val q f).tap f p.val true
        let x := n.sw.dequeue p.val f.id
        exec (.egressSend p a.p a.np a.cpl) s = .next (s.ends
          (({ n with base := n.base.emit (.frame p.val (n.base.mcOverlay p.val f).marked),
                     sw := if n.base.portRole p.val == 2 && f.vc == 1 && decide (f.src < 64) then
                       { x with forwarded := x.forwarded ++ [(p.val, f)] } else x } : Mod).dropRef f.id)))) ∧
    (∀ (p : Fin 64) (a : PartnerCredit) (k : Nat), s.coreIs m → m.base.portRole p.val = 4 →
      (List.range 8).find? (fun k => m.base.camPort k == some p.val) = some k →
      exec (.egressSend p a.p a.np a.cpl) s = .next (s.ends (m.sendCam k p.val))) ∧
    (s.coreIs m →
      exec .meterTick s = .next (s.ends { m with base := { m.base with now := m.base.now + (64 - m.base.ns % 64) } }) ∧
      exec .wheelTick s = .next (s.ends { m with base := { m.base with now := m.base.now + (64 - m.base.ns % 64) } }))

/-! ### The control endpoints and the queue engines -/

/-- Descriptors. A fetch serves the next pair in round robin (R168), and its completion fills the turn. A MOVE (R25) that its guard
allows completes with TARGET_GONE when a shelf that it names is not awake, else it becomes a hod job; a PARK_WRITE or PARK_READ
becomes a hod job when its shelf is awake with no live entries, else it goes to admission (R25, R26); one that its guard denies
completes with GUARD_FAULT (R169). A FENCE is taken up (R132), a NOP completes with OK (R165), a GUARD_COMMIT starts a commit or
waits for the one that runs (R149). The time of a ring's message ends with the message, and its count starts over (R177). -/
def Obligations.QueueCommands : Prop :=
  ∀ (s : State) (m : Mod) (g : Fin 4096),
    (∀ p : Fin 8, s.coreIs m → exec (.descriptorFetch p) s = .next (s.ends (m.fetchNext p.val))) ∧
    (∀ (p : Fin 8) (id : Nat) (c : Cpl), s.coreIs m → (m.tagOf (.fetch p.val id)).isSome = true →
      exec (.fetchReadCompletion p id c) s = .next (s.ends (m.fetchDone p.val id c))) ∧
    (∀ (d : Desc) (n : Mod), s.coreIs m → m.frontOp g.val 1 = some d →
      (∀ e : Denial, m.routeGuard d = (n, some e) →
        exec (.move g) s = .next (s.ends ((n.completeDenied d.id (24 + n.base.slicePart d.slice) e).fences))) ∧
      (m.routeGuard d = (n, none) →
        (d.awake = false → exec (.move g) s = .next (s.ends ((n.complete d.id 0x21).fences))) ∧
        (d.awake = true → exec (.move g) s = .next (s.ends
          (n.makeJob d (fieldAt d.raw 0x10 8) (fieldAt d.raw 0x18 8) d.length (d.field 0x28 ⟨0, 32⟩) 0))))) ∧
    (∀ (d : Desc) (n : Mod), s.coreIs m → m.routeGuard d = (n, none) → n.parkPort d = none →
      (m.frontOp g.val 2 = some d → exec (.parkWrite g) s = .next (s.ends (n.letIn d))) ∧
      (m.frontOp g.val 3 = some d → exec (.parkRead g) s = .next (s.ends (n.letIn d)))) ∧
    (∀ (d : Desc) (n : Mod) (p : Nat), s.coreIs m → m.routeGuard d = (n, none) → n.parkPort d = some p →
      (m.frontOp g.val 2 = some d → d.opcode = 2 →
        ((d.awake && !d.live) = true → exec (.parkWrite g) s = .next (s.ends
          (n.makeJob d d.hostAddr d.shelfAddr d.length (2 ^ 4 * 1 + 2 ^ 16 * p) 1))) ∧
        ((d.awake && !d.live) = false → exec (.parkWrite g) s = .next (s.ends (n.letIn d)))) ∧
      (m.frontOp g.val 3 = some d → d.opcode = 3 →
        ((d.awake && !d.live) = true → exec (.parkRead g) s = .next (s.ends
          (n.makeJob d d.shelfAddr d.hostAddr d.length (1 + 2 ^ 8 * p) 1))) ∧
        ((d.awake && !d.live) = false → exec (.parkRead g) s = .next (s.ends (n.letIn d))))) ∧
    (∀ d : Desc, s.coreIs m →
      m.qe.descs.find? (fun d => d.gqp == g.val && d.phase == .queued && d.opcode == 4 && !d.bad) = some d →
      exec (.fence g) s = .next (s.ends (({ m with qe := m.qe.setDesc { d with phase := .waiting } } : Mod).fences))) ∧
    (∀ d : Desc, s.coreIs m → m.frontOp g.val 5 = some d → exec (.nop g) s = .next (s.ends ((m.complete d.id 0x00).fences))) ∧
    (∀ d : Desc, s.coreIs m → m.frontOp g.val 0x11 = some d →
      let mask := d.field 0x10 ⟨0, 41⟩
      let n : Mod := { m with qe := m.qe.setDesc { d with phase := .waiting } }
      (m.base.isSet Reg.GRD_COMMIT F.GRD_COMMIT_done = true →
        exec (.guardCommit g) s = .next (s.ends (n.startCommit mask (some (d.gqp, d.id))))) ∧
      (m.base.isSet Reg.GRD_COMMIT F.GRD_COMMIT_done = false →
        exec (.guardCommit g) s = .next (s.ends
          { n with base := { m.base with commitWait := m.base.commitWait ++ [(d.gqp, d.id, mask)] } }))) ∧
    (∀ sl q : Nat, s.coreDue (.irqTime g.val) m → m.base.qpOwner g.val = some (sl, q) →
      let b := m.base.disarm (.irqTime g.val)
      exec (.irqTimeExpiry g) s = .next (s.ends
        { m with base := b.message ⟨b.slicePart sl, b.rd (Reg.SLC_QP_IRQ sl q) F.SLC_QP_IRQ_vector, .qp g.val⟩,
                 qe := m.qe.setQp { m.qe.qp g.val with unsignalled := 0 } }))

/-- What a host does to configuration space. A cleared mask sends what it held back (R178); Bus Master Enable cleared takes fetch
turns back, ends work that needs the host and gives reads up (R179, R211), and set lets held entries and messages go; a function level
reset (R180, R212) and the reset of an upstream link (R216) act on the partition, and the reads that a reset waited for are given up
with reason 0b10 at the end of its drain; a word is written under its byte enables, once stage LINKS is over for a control endpoint
(R332); clearing DPC Trigger Status ends containment (R219); Secondary Bus Reset shows in Bridge Control and goes out as a hot reset
while the link is up (R216); MC_Receive shows in the group's vector (R206). -/
def Obligations.ConfigurationCommands : Prop :=
  ∀ (s : State) (m : Mod) (p : Fin 8) (q : Fin 64),
    (∀ vec : Option (Fin 2048), s.cfgIs p.val m → exec (.msiUnmask p vec) s = .next (s.ends (m.msiUnmask p.val (vec.map Fin.val)))) ∧
    (s.cfgIs p.val m →
      exec (.bmeClear p) s = .next (s.ends (m.bmeClear p.val)) ∧
      exec (.bmeSet p) s = .next (s.ends (m.bmeSet p.val)) ∧
      exec (.functionLevelReset p) s = .next (s.ends (m.flr p.val)) ∧
      exec (.upstreamLinkReset p) s = .next (s.ends (m.upstreamReset p.val))) ∧
    (∀ port : Nat, s.coreDue (.resetDrain p.val) m → m.base.upstreamPort p.val = some port →
      exec (.resetDrainExpiry p) s = .next (s.ends
        (((m.tagsOut port).foldl (fun m t =>
          match t.owner with
          | some .drained => m.quarantineTag t 2
          | some o =>
            let n := m.ownerDone o ⟨.timeout, []⟩
            if n.tags.contains t then n.quarantineTag t 2 else n
          | none => m) m).giveReason (m.tagsOut port) 2))) ∧
    (∀ d3 : Bool, s.cfgIs p.val m →
      (m.base.stage ≠ 3 → exec (.powerStateWrite p d3) s = .next (s.ends (m.cfgWrite p.val 0x44 (if d3 then 3 else 0) 1))) ∧
      (m.base.stage = 3 → exec (.powerStateWrite p d3) s = .next (s.ends { m with base := m.base.emit (.cplErr p.val 2) }))) ∧
    (∀ (f : CfgFn) (off : Nat) (v : W32) (en : Fin 16), s.cfgIs (cfgIndex f) m → (cfgIndex f < 8 → m.base.stage ≠ 3) →
      exec (.configurationWrite f off v en) s = .next (s.ends (m.cfgWrite (cfgIndex f) off v.toNat en.val))) ∧
    (s.powerIs m → m.cfgAlive = true → m.base.portRole q.val = 2 →
      (let x := m.base.cfg (24 + q.val) 0x2A8
       bitOf x 0 = true → exec (.dpcStatusClear q) s = .next (s.ends
         (({ m with base := m.base.setCfg (24 + q.val) 0x2A8 (x - 1) } : Mod).releasePort q.val))) ∧
      (∀ set : Bool,
        let b := m.base.setCfg (24 + q.val) 0x3C (putBits (m.base.cfg (24 + q.val) 0x3C) ⟨22, 1⟩ (b2n set))
        (b.linkUp q.val = false → exec (.secondaryBusReset q set) s = .next (s.ends { m with base := b })) ∧
        (b.linkUp q.val = true →
          let n := b.rd (Reg.PRT_CFG q.val) F.PRT_CFG_slot
          let e := b.emit (.hotReset q.val set)
          (n < 56 → set = true → e.slotState n = 6 → exec (.secondaryBusReset q set) s = .next (s.ends
            (({ m with base := e, prk := m.prk.setSlot { (m.prk.slot n) with paused := true } } : Mod).returnSweep n))) ∧
          (set = false → exec (.secondaryBusReset q set) s = .next (s.ends { m with base := e }))))) ∧
    (∀ (g : Fin 64) (v : Bool), s.powerIs m → m.cfgAlive = true → g.val < m.base.rd (Reg.PRT_MC q.val) F.PRT_MC_mc_count →
      let fn := m.base.portFn q.val
      let c := 0x280 + 4 * (g.val / 32)
      let b := m.base.setCfg fn c (putBits (m.base.cfg fn c) ⟨g.val % 32, 1⟩ (b2n v))
      let k := m.base.rd (Reg.PRT_MC q.val) F.PRT_MC_mc_base + g.val
      exec (.mcReceiveWrite q g v) s = .next (s.ends
        { m with base := b.setWord64 (Reg.XBR_MC_VEC k) (putBits (b.word64 (Reg.XBR_MC_VEC k)) ⟨q.val, 1⟩ (b2n v)) }))

/-! ### Slices -/

/-- SLICE_CTL (R185 to R197): the front descriptor of the operation that passes the checks of R187 is carried out. CREATE builds the
slice with the lowest free resources, or completes with the reason that it lacks them; QUIESCE brings an ACTIVE slice to rest and makes
a FROZEN one QUIESCED; RESET, REMOVE, FREEZE and THAW as their rules say; SAVE writes the blob and RESTORE reads its head, once Bus
Master Enable, the guard and a free tag allow; SCRUB discards what is tagged with the slot and leaves it WORN for up to 10 ms. -/
def Obligations.SliceControlCommands : Prop :=
  ∀ (s : State) (m n : Mod) (d : Desc), s.coreIs m →
    (m.ctlTake 0 = (n, some d) →
      (∀ r, n.resources d.ctlSlice d.ctlPart d.ctlPasid d.ctlVec d.ctlVecs d.ctlQp d.ctlChan d.ctlMeter d.ctlQuota = .ok r →
        exec .create s = .next (s.ends
          (((n.build d.ctlSlice 1 d.ctlPart d.ctlPasid r.2.2.1 d.ctlVec d.ctlVecs d.ctlQp d.ctlMeter d.ctlQuota r).resetPage d.ctlSlice).ctlDone
            d 0 0x00 0 0))) ∧
      (∀ r, n.resources d.ctlSlice d.ctlPart d.ctlPasid d.ctlVec d.ctlVecs d.ctlQp d.ctlChan d.ctlMeter d.ctlQuota = .error r →
        exec .create s = .next (s.ends (n.ctlDone d r (reasonStatus r) 0 0)))) ∧
    (m.ctlTake 1 = (n, some d) →
      (n.base.sliceState d.ctlSlice = 5 → exec .quiesce s = .next (s.ends
        (((({ n with base := n.base.setSliceState d.ctlSlice 3,
                     qe := { n.qe with recorded := n.qe.recorded.filter (fun x => x.1 != d.ctlSlice) } } : Mod).loseRsv
          (fun r => r.slice == d.ctlSlice) 4).drainSlice d.ctlSlice).ctlDone d 0 0x00 0 0))) ∧
      (n.base.sliceState d.ctlSlice = 1 → exec .quiesce s = .next (s.ends
        (({ n with qe := n.qe.setDesc { d with phase := .waiting } } : Mod).bringToRest d.ctlSlice 0 (some d.id))))) ∧
    (m.ctlTake 2 = (n, some d) →
      let x := (n.loseRsv (fun r => r.slice == d.ctlSlice) 4).resetPage d.ctlSlice
      exec .reset s = .next (s.ends
        (({ x with base := ((x.base.setSliceState d.ctlSlice 1).wr (Reg.SLC_STATE d.ctlSlice) F.SLC_STATE_lost 0).wr
                     (Reg.SLC_STATE d.ctlSlice) F.SLC_STATE_stale_blob 0 } : Mod).ctlDone d 0 0x00 0 0))) ∧
    (m.ctlTake 3 = (n, some d) → exec .remove s = .next (s.ends
      ((n.empty d.ctlSlice (if n.base.sliceGen d.ctlSlice = 0xFFFF then 7 else 0)).ctlDone d 0 0x00 0 0))) ∧
    (m.ctlTake 4 = (n, some d) →
      let x : Mod := { n with base := (n.base.setSliceState d.ctlSlice 4).wr (Reg.SLC_STATE d.ctlSlice) F.SLC_STATE_lost 0,
                              qe := n.qe.setDesc { d with phase := .waiting },
                              slc := { n.slc with runs := n.slc.runs ++ [({ slice := d.ctlSlice, kind := 1, desc := some d.id } : SliceRun)] } }
      let x := ((x.stopFetch d.ctlSlice true).loseRsv (fun r => r.slice == d.ctlSlice) 4).drainSlice d.ctlSlice
      exec .freeze s = .next (s.ends
        { x with base := (x.base.arm (.freezeDeadline d.ctlSlice) (98 * ms)).arm (.quiesceLimit d.ctlSlice) (100 * ms) })) ∧
    (m.ctlTake 5 = (n, some d) →
      let p := n.base.slicePart 0
      let data := n.blob d.ctlSlice
      (n.base.bme p = false → exec .save s = .next (s.ends (n.ctlDone d 0xB 0x25 0 0))) ∧
      (n.base.bme p = true → ∀ b, n.base.guard (24 + p) (n.blobAccess d d.ctlBlob data.length true) = (b, none) →
        exec .save s = .next (s.ends
          { n with base := b.emit (.hostWrite p d.ctlBlob (some (b.descPasid d)) data),
                   qe := n.qe.setDesc { d with phase := .waiting },
                   slc := { n.slc with blob := some { desc := d.id, slice := d.ctlSlice, save := true, addr := d.ctlBlob, data := data } } }))) ∧
    (m.ctlTake 6 = (n, some d) →
      (n.base.bme (n.base.slicePart 0) = false → exec .restore s = .next (s.ends (n.ctlDone d 0xB 0x25 0 0))) ∧
      (n.base.bme (n.base.slicePart 0) = true → n.tagsFree ((n.base.upstreamPort (n.base.slicePart 0)).getD 0) 1 = true →
        exec .restore s = .next (s.ends
          (({ n with qe := n.qe.setDesc { d with phase := .waiting } } : Mod).blobRead d
            { desc := d.id, slice := d.ctlSlice, save := false, addr := d.ctlBlob } 0x40)))) ∧
    (m.ctlTake 7 = (n, some d) →
      let x : Mod := { n with base := n.base.setSliceState d.ctlSlice 1,
                              qe := { n.qe with recorded := n.qe.recorded.filter (fun x => x.1 != d.ctlSlice) } }
      let x := (n.qe.recorded.filter (fun x => x.1 == d.ctlSlice)).foldl (fun x y => x.thawDoorbell d.ctlSlice y.2.1 y.2.2) x
      let x := (List.range (x.base.qpCount d.ctlSlice)).foldl (fun x q =>
        let g := x.base.qpBase d.ctlSlice + q
        if decide (0 < (x.qe.qp g).unsignalled) || x.base.pend.any (fun y => y.src == .qp g) then
          (({ x with base := x.base.dropPending (.qp g) } : Mod).ringMessage d.ctlSlice q g)
        else x) x
      let lo := x.base.rd (Reg.SLC_BASE d.ctlSlice) F.SLC_BASE_meter_base
      exec .thaw s = .next (s.ends
        (((List.range (x.base.rd (Reg.SLC_RES d.ctlSlice) F.SLC_RES_meter_count)).foldl
          (fun x i => x.meterChanged (lo + i) false) x).ctlDone d 0 0x00 0 0))) ∧
    (m.ctlTake 8 = (n, some d) →
      let i := d.ctlSlice
      let k := (n.prk.entries.filter (fun e => e.slice == i)).length + (n.hod.runs.filter (fun r => r.slice == i)).length +
        n.heldCount i + (n.qe.descs.filter (fun x => x.slice == i)).length
      let x := ((n.hod.runs.filter (fun r => r.slice == i)).foldl (fun x r => x.abort r.h r.c true) n).dropHeld i
      let x : Mod := { x with prk := { x.prk with entries := x.prk.entries.filter (fun e => e.slice != i) },
                              qe := { x.qe with descs := x.qe.descs.filter (fun y => y.slice != i) } }
      let x : Mod := if k = 0 then x else
        { x with base := x.base.raise { group := 17, bit := 2, scope := .slice i, detail := k } }
      let x := x.empty i 7
      exec .scrub s = .next (s.ends
        { x with slc := { x.slc with scrub := some (d.id, i) }, qe := x.qe.setDesc { d with phase := .waiting },
                 base := x.base.arm (.scrub i) (10 * ms) }))

/-- The ends of what SLICE_CTL began. The scrub walk leaves the slot EMPTY with generation 0 (R189); a SAVE whose write succeeded
clears stale_blob (R195); a read of a RESTORE goes on (R196); a slice at rest gets its state (R190, R193); at the limits of R190 and
R193 what is left is discarded, or treated as under a quiesce; a fault raises 17:0 and brings a running slice to rest (R192). -/
def Obligations.SliceEnds : Prop :=
  ∀ (s : State) (m : Mod) (i : Fin 1024),
    (∀ (id : Nat) (d : Desc), s.coreDue (.scrub i.val) m → m.slc.scrub = some (id, i.val) → m.qe.desc id = some d →
      exec (.scrubComplete i) s = .next (s.ends
        (({ m with slc := { m.slc with scrub := none },
                   base := (m.base.disarm (.scrub i.val)).setWord (Reg.SLC_STATE i.val) 0#32 } : Mod).ctlDone d 0 0x00 0 0))) ∧
    (∀ (x : BlobRun) (d : Desc) (c : CplStatus), s.coreIs m → m.slc.blob = some x → x.save = true → m.qe.desc x.desc = some d →
      (c = .ok → exec (.blobWriteCompletion c) s = .next (s.ends
        (({ m with slc := { m.slc with blob := none }, base := m.base.wr (Reg.SLC_STATE x.slice) F.SLC_STATE_stale_blob 0,
                   qe := { m.qe with saved := x.slice :: m.qe.saved.filter (fun y => y != x.slice) } } : Mod).ctlDone
          d 0 0x00 x.data.length 0))) ∧
      (c ≠ .ok → exec (.blobWriteCompletion c) s = .next (s.ends
        (({ m with slc := { m.slc with blob := none } } : Mod).ctlDone d 0xB (cplToStatus c) 0 0)))) ∧
    (∀ c : Cpl, s.coreIs m → (m.tagOf .blob).isSome = true →
      exec (.blobReadCompletion c) s = .next (s.ends (m.blobReadDone c))) ∧
    (s.coreIs m → exec (.sliceAtRest i) s = .next (s.ends (m.sliceAtRest i.val))) ∧
    (s.coreDue (.quiesceLimit i.val) m → exec (.quiesceLimitExpiry i) s = .next (s.ends (m.restLimit i.val))) ∧
    (∀ r : SliceRun, s.coreDue (.freezeDeadline i.val) m → m.slc.run i.val = some r → r.kind = 1 →
      exec (.freezeDeadline i) s = .next (s.ends
        ((({ m with slc := m.slc.setRun { r with handled := true } } : Mod).abortWork i.val).holdEntries i.val))) ∧
    (s.coreIs m →
      let n : Mod := { m with base := m.base.raise { group := 17, bit := 0, sev := 1, scope := .slice i.val } }
      (m.base.sliceState i.val = 1 ∨ m.base.sliceState i.val = 2 ∨ m.base.sliceState i.val = 4 →
        exec (.sliceFault i) s = .next (s.ends (n.bringToRest i.val 2 ((n.slc.run i.val).bind SliceRun.desc)))) ∧
      (m.base.sliceState i.val = 3 ∨ m.base.sliceState i.val = 5 →
        let x := (n.loseRsv (fun r => r.slice == i.val) 4).discardSliceLines i.val
        let x := if m.base.sliceState i.val = 5 then x.resetRings i.val else x
        exec (.sliceFault i) s = .next (s.ends { x with base := x.base.setSliceState i.val 6 })) ∧
      (m.base.sliceState i.val = 0 ∨ m.base.sliceState i.val = 6 ∨ m.base.sliceState i.val = 7 →
        exec (.sliceFault i) s = .next (s.ends m)))

/-! ### The hods -/

/-- A free, enabled hod that is not held picks the start latched earliest, and a held one shows it (R107, R121). A run goes on with its
reads, writes and flush as far as it can (R112 to R114), a read completion goes to the request that its tag names, the end of a retry
gap issues the failed requests again (R116), and the end of the flush, or the write response of a Mortar target, ends the run with a
pulse of status 0 (R114, R115). -/
def Obligations.HodCommands : Prop :=
  ∀ (s : State) (m : Mod) (h : Fin 16),
    (∀ x : HodStart, s.coreIs m → m.hod.run h.val = none → m.base.isSet (Reg.HOD_CFG h.val) F.HOD_CFG_enable = true →
      m.hod.starts.find? (fun x => x.h == h.val) = some x →
      (m.hodHold h.val = false → exec (.hodPick h) s = .next (s.ends (m.pickStart x))) ∧
      (m.hodHold h.val = true → exec (.hodPick h) s = .next (s.ends
        { m with base := (((m.base.wr (Reg.HOD_STATUS h.val) F.HOD_STATUS_busy 0).flag (Reg.HOD_STATUS h.val) F.HOD_STATUS_held true).wr
                   (Reg.HOD_STATUS h.val) F.HOD_STATUS_resv_cells 0) }))) ∧
    (∀ r : HodRun, s.coreIs m → m.hod.run h.val = some r → r.failed = [] →
      exec (.hodReservationAdmit h) s = .next (s.ends ((Mod.pumpN r.fuel m r).showHod h.val))) ∧
    (∀ (tag id : Nat) (c : Cpl) (t : TagUse), s.coreIs m →
      m.tags.find? (fun t => t.tag == tag && (match t.owner with
        | some (.hod g _) => g == h.val
        | _ => false)) = some t → t.owner = some (.hod h.val id) →
      exec (.hodReadCompletion h tag c) s = .next (s.ends (m.ownerDone (.hod h.val id) c))) ∧
    (∀ r : HodRun, s.mod.hod.run h.val = some r → s.coreDue (.retryGap h.val r.c) m →
      exec (.retryGapExpiry h) s = .next (s.ends (m.retry h.val))) ∧
    (∀ r : HodRun, s.coreIs m → m.hod.run h.val = some r → r.flushing = true →
      let x := (r.reads.find? (fun x => x.flush)).getD { id := 0, dest := true, flush := true, addr := r.lastAddr, len := 0 }
      let k := ((m.endTag (.hod h.val x.id) .ok).keepCells x 0).1
      let r := { r with reads := r.reads.filter (fun y => !y.flush), flushing := false }
      let n : Mod := { k with hod := k.hod.setRun r, base := k.base.bump (Reg.HOD_CNT h.val 0) }
      exec (.hodFlushCompletion h .ok) s = .next (s.ends ((n.endRun r 0 0).runPulse r 0)))

/-- Reads of the module's own that end without their completion. A read that times out is counted and reported, and its owner told
(R208, R210, R220); a quarantined tag returns to use after its time (R210); a late completion returns the tag of a read that was given
up, and is logged with the reason that it was given up for, or 0b11 where no such read is known (R210, R213). -/
def Obligations.LostReadCommands : Prop :=
  ∀ (s : State) (m : Mod) (p : Fin 64) (tag : Nat),
    (∀ (t : TagUse) (o : TagOwner), s.coreDue (.cplTimeout p.val tag) m →
      m.tags.find? (fun t => t.port == p.val && t.tag == tag && t.owner.isSome) = some t → t.owner = some o →
      let n : Mod := { m with base := ((m.base.bump (Reg.PRT_CNT p.val 6)).occ 0x203 p.val none 1).readErr p.val 14 [] }
      let n := n.ownerDone o ⟨.timeout, []⟩
      exec (.completionTimeout p tag) s = .next (s.ends (if n.tags.contains t then n.quarantineTag t 0 else n))) ∧
    (s.coreDue (.quarantine p.val tag) m → exec (.tagQuarantineExpiry p tag) s = .next (s.ends
      { m with tags := m.tags.filter (fun t => !(t.port == p.val && t.tag == tag && t.owner.isNone)) })) ∧
    (∀ hdr : List W32, s.coreIs m →
      (m.tags.find? (fun t => t.port == p.val && t.tag == tag) = none →
        exec (.lateCompletion p tag hdr) s = .next (s.ends { m with base := m.base.logLate p.val tag 3 hdr })) ∧
      (∀ t : TagUse, m.tags.find? (fun t => t.port == p.val && t.tag == tag) = some t → t.owner = none →
        exec (.lateCompletion p tag hdr) s = .next (s.ends
          { m with base := (m.base.disarm (.quarantine p.val tag)).logLate p.val tag t.reason hdr,
                   tags := m.tags.filter (fun x => !(x.port == p.val && x.tag == tag && x.owner.isNone)) })))

/-! ### Ordering, guards and the debug master -/

/-- A host store to the park window that its guard allows enters the merge buffer (R128), and one that it denies is discarded and
reported; a load drains the path's lines and returns what park DRAM then holds (R129); a line drains when its 1 us is over; a
reservation ends after 100 us with cause 0b011 (R137). A commit ends with done 1 once no frame that an old epoch allowed waits (R148), and a parity error makes its guard deny
everything and is repaired within 1 ms (R152, R308). The debug master reads park DRAM through guard 40 while it is open (R146), and
gets its error status otherwise. -/
def Obligations.OrderingAndGuardCommands : Prop :=
  ∀ (s : State) (m : Mod) (p : Fin 8),
    (∀ (pasid : Option (Fin 1048576)) (off : Nat) (data : List Byte) (b : Base) (e : Option Denial), s.coreIs m →
      m.base.d3hot p.val = false → off + data.length ≤ m.base.bar2Size p.val → m.base.stage = 6 → data ≠ [] →
      m.base.guard (24 + p.val) (m.base.hostAccess p.val off data.length (pasid.map Fin.val) false true) = (b, e) →
      (e = none → exec (.parkWindowStore p pasid off data) s = .next (s.ends
        (Mod.mergeStoreN p.val (b.sliceOfPasid p.val (pasid.map Fin.val)) false (data.length / 64 + 2) { m with base := b } off data))) ∧
      (e.isSome = true → exec (.parkWindowStore p pasid off data) s = .next (s.ends { m with base := b.hostErr p.val 20 0 [] }))) ∧
    (∀ (pasid : Option (Fin 1048576)) (off len : Nat) (b : Base), s.coreIs m → m.base.d3hot p.val = false →
      off + len ≤ m.base.bar2Size p.val → m.base.stage = 6 →
      let n := m.drainPath p.val
      n.base.guard (24 + p.val) (n.base.hostAccess p.val off len (pasid.map Fin.val) true false) = (b, none) →
      exec (.parkWindowLoad p pasid (.read off len)) s = .next (s.ends
        { n with base := (b.bursts 0x300 off len).emit (.cplData p.val (n.dram.read off len) (n.dram.poisoned off len)) })) ∧
    (s.coreDue (.mergeWindow p.val) m → exec (.mergeWindowExpiry p) s = .next (s.ends
      (m.drainWhere p.val (fun l => decide (l.openedAt + us ≤ m.base.now))))) ∧
    (∀ sl : Fin 1024, s.coreDue (.reservation sl.val) m →
      exec (.reservationExpiry sl) s = .next (s.ends (m.loseRsv (fun r => r.slice == sl.val) 3))) ∧
    (∀ c : CommitRun, s.coreDue .guardCommit m → m.base.commit = some c → m.oldEpoch c.mask = true →
      exec .guardCommitDone s = .next (s.ends { m with base := m.base.armIfIdle .guardCommit 0 })) ∧
    (∀ c : CommitRun, s.coreDue .guardCommit m → m.base.commit = some c → m.oldEpoch c.mask = false → m.base.commitWait = [] → c.desc = none →
      exec .guardCommitDone s = .next (s.ends
        { m with base := { ((m.base.wr Reg.GRD_COMMIT F.GRD_COMMIT_done 1).disarm .guardCommit) with commit := none } })) ∧
    (∀ g : Fin 41, s.coreIs m → exec (.guardParityError g) s = .next (s.ends
      { m with base := ((m.base.wr (Reg.GRD_STATUS g.val) F.GRD_STATUS_parity 1).raise (guardEv g.val 3 1 0)).arm
                 (.guardRecommit g.val) ms })) ∧
    (∀ (addr : Nat) (wr wide : Bool) (v : W64), s.powerIs m →
      ((m.pl.dieOn && m.pl.debugOpen) = false →
        exec (.debugAccess wr addr wide v) s = .next (s.ends { m with base := m.base.emit (.debug none) })) ∧
      (∀ b : Base, m.pl.dieOn = true → m.pl.debugOpen = true → addr < ctlAddr 0 → addr < mgmtAddr 0 → b.stage = 6 → m.pl.m2 = 0 →
        let len := if wide then 8 else 4
        m.base.guard 40 { space := 0, addr := addr, len := len, rd := true, wr := false, secure := true, ident := 40 } = (b, none) →
        m.dram.poisoned addr len = false → exec (.debugAccess false addr wide v) s = .next (s.ends
          { m with base := (b.bursts 0x300 addr len).emit (.debug (some (BitVec.ofNat 64 (leNat (m.dram.read addr len))))) })))

/-! ### The park store and the shelves -/

/-- Completions of reads for park entries go to the entry that asked (R84, R86, R87), and the flush of a read that another member delivered
ends it with the status that this member told (R131); admissions that wait try again in order, and the
one whose deadline comes first ends (R81); a retain-mode entry past its age ends with EXPIRED (R84); what R91 names runs the plan; and
at the end of its 2 ms a slice's sweep stops (R101). -/
def Obligations.ParkCommands : Prop :=
  ∀ (s : State) (m : Mod) (e off : Nat) (n : Fin 56),
    (∀ c : Cpl, s.coreIs m →
      ((m.tagOf (.ingest e off)).isSome = true → exec (.ingestCompletion e off c) s = .next (s.ends (m.ingestDone e off c))) ∧
      ((m.tagOf (.sweepRead e off)).isSome = true →
        exec (.sweepReadCompletion e off c) s = .next (s.ends (m.sweepData e off c (.sweepRead e off)))) ∧
      ((m.tagOf (.refetch e off)).isSome = true →
        exec (.refetchCompletion e off c) s = .next (s.ends (m.sweepData e off c (.refetch e off)))) ∧
      (∀ x : Entry, (m.tagOf (.sweepFlush e)).isSome = true → (m.freeTagOf (.sweepFlush e)).prk.entry e = some x → x.flushing = true →
        let k := m.freeTagOf (.sweepFlush e)
        (x.far = none → x.state = 6 → exec (.sweepFlushCompletion e .ok) s = .next (s.ends
          (({ k with base := k.base.occ 0x101 (engineOf x.shelf) (some x.slice) (entryGrans x.length) } : Mod).finish x
            (if x.evicted then 0x04 else 0x03)))) ∧
        (∀ st : Nat, x.far = some st → exec (.sweepFlushCompletion e .ok) s = .next (s.ends (k.finish x st))))) ∧
    (s.coreIs m → exec .admissionResume s = .next (s.ends m.admissionResume)) ∧
    (∀ (x : AdmWait) (d : Nat), s.mod.begun.firstWait = some (x, d) → s.coreDue (.admissionWait x.desc) m →
      exec .admissionWaitExpiry s = .next (s.ends (m.admissionExpired x))) ∧
    (∀ x : Entry, s.coreDue (.entryExpiry e) m → m.prk.entry e = some x → x.state ≠ 6 → x.state ≠ 7 → x.release = false →
      m.base.expireNs x.cls ≠ 0 → exec (.entryExpiry e) s = .next (s.ends (m.finish x 0x24))) ∧
    (s.coreIs m → exec .planTick s = .next (s.ends { m with prk := { m.prk with planDue := true } })) ∧
    (s.coreDue (.batch n.val) m → exec (.batchWindowExpiry n) s = .next (s.ends { m with prk := { m.prk with planDue := true } })) ∧
    (s.coreDue (.promote n.val) m → exec (.promoteExpiry n) s = .next (s.ends { m with prk := { m.prk with planDue := true } })) ∧
    (∀ i : Fin 1024, s.coreDue (.sweepHold i.val) m → (m.slc.run i.val).isSome = true →
      exec (.sweepHoldExpiry i) s = .next (s.ends (m.quiesceEntries i.val true)))

/-- A wake, step by step (R94): SHELF_PG_n in POWERING leads to POWERED, its loss between steps 2 and 7 is a wake failure, and with the
die off it is only the line; 100 ms later SHELF_PERST_n# deasserts; the link leads to READYING, with the delay or the poll running; the
end of the delay, or a poll whose masked value matches, makes the shelf AWAKE at its run power. -/
def Obligations.ShelfWakeCommands : Prop :=
  ∀ (s : State) (m : Mod) (n : Fin 56),
    (s.coreIs m → m.base.slotState n.val = 2 → m.base.slotPort n.val = none →
      exec (.shelfPgAssert n) s = .next (s.ends
        { m with base := ((m.base.setSlotState n.val 3).disarm (.pgTimeout n.val)).arm (.perstRelease n.val) (100 * ms),
                 prk := m.prk.setSlot { (m.prk.slot n.val) with pg := true } })) ∧
    (s.coreIs m → m.base.slotPort n.val = none → (3 ≤ m.base.slotState n.val ∧ m.base.slotState n.val ≤ 6) →
      exec (.shelfPgDeassert n) s = .next (s.ends
        (({ m with prk := m.prk.setSlot { (m.prk.slot n.val) with pg := false } } : Mod).wakeFailure n.val))) ∧
    (s.powerIs m → m.pl.dieOn = false →
      exec (.shelfPgAssert n) s = .next (s.ends { m with prk := m.prk.setSlot { (m.prk.slot n.val) with pg := true } }) ∧
      exec (.shelfPgDeassert n) s = .next (s.ends { m with prk := m.prk.setSlot { (m.prk.slot n.val) with pg := false } })) ∧
    (s.coreDue (.perstRelease n.val) m → m.base.slotState n.val = 3 → (m.prk.slot n.val).pg = true →
      exec (.perstReleaseExpiry n) s = .next (s.ends
        { m with base := (m.base.setSlotState n.val 4).arm (.linkTimeout n.val)
                           (m.base.rd Reg.PRK_SIDE_TIME F.PRK_SIDE_TIME_link_timeout_s * sec),
                 prk := m.prk.setSlot { (m.prk.slot n.val) with perst := false } })) ∧
    (∀ (p : Nat) (l : LinkUp), s.coreIs m → m.base.slotPort n.val = some p → m.base.linkUp p = true → m.base.slotState n.val = 4 →
      let b := ((m.base.setSlotState n.val 5).disarm (.linkTimeout n.val)).arm (.readyTimeout n.val)
        (m.base.rd (Reg.PRK_SHELF_TIME n.val) F.PRK_SHELF_TIME_ready_timeout_s * sec)
      exec (.shelfLinkUp ⟨n, l⟩) s = .next (s.ends
        { m with base := if b.rd (Reg.PRK_SHELF_READY n.val) F.PRK_SHELF_READY_mode = 1 then b.arm (.readyPoll n.val) (100 * ms)
                   else b.arm (.readyDelay n.val) (b.rd (Reg.PRK_SHELF_READY n.val) F.PRK_SHELF_READY_delay_s * sec) })) ∧
    (∀ (p : Nat) (l : LinkUp), s.coreIs m → m.base.slotPort n.val = some p → m.base.linkUp p = false →
      (m.mayTrain p = true → exec (.shelfLinkUp ⟨n, l⟩) s = .next (s.ends (m.portUp p l))) ∧
      (m.mayTrain p = false → exec (.shelfLinkUp ⟨n, l⟩) s = .next (s.ends m))) ∧
    (s.coreDue (.readyDelay n.val) m → exec (.readyDelayExpiry n) s = .next (s.ends
      { m with base := (m.base.setSlotState n.val 6).disarmAll (fun k => match k with
                 | .readyDelay i | .readyPoll i | .readyTimeout i => i == n.val
                 | _ => false),
               prk := m.prk.setSlot { (m.prk.slot n.val) with charge := m.base.runW n.val, sweeping := true, wakeNow := false,
                                                              paused := false } })) ∧
    (s.coreDue (.readyPoll n.val) m → exec (.readyPollTimer n) s = .next (s.ends (m.pollShelf n.val))) ∧
    (∀ c : Cpl, s.coreIs m → (m.tagOf (.poll n.val)).isSome = true → c.status = .ok →
      let k := m.freeTagOf (.poll n.val)
      k.base.slotState n.val = 5 → 4 ≤ c.data.length →
      ((BitVec.ofNat 32 (fieldAt c.data 0 4) &&& k.base.word (Reg.PRK_SHELF_READY_MASK n.val)) = k.base.word (Reg.PRK_SHELF_READY_VAL n.val) →
        exec (.readyPollCompletion n c) s = .next (s.ends (k.shelfReady n.val))) ∧
      ((BitVec.ofNat 32 (fieldAt c.data 0 4) &&& k.base.word (Reg.PRK_SHELF_READY_MASK n.val)) ≠ k.base.word (Reg.PRK_SHELF_READY_VAL n.val) →
        exec (.readyPollCompletion n c) s = .next (s.ends k)))

/-- A stop and what goes wrong (R92 to R96). At the end of its idle hold an unpinned AWAKE shelf with no live entry and no hod job stops;
1 ms later its power request ends; after min_off_s the slot is ASLEEP, or WAITING at once with its former since after a failed wake;
each wake timeout is a wake failure; SHELF_PG_n stuck at its limit makes the slot FAILED with its charge kept; a link that goes down is
dealt with as its port's. -/
def Obligations.ShelfStopCommands : Prop :=
  ∀ (s : State) (m : Mod) (n : Fin 56),
    (s.coreDue (.idleHold n.val) m → m.base.slotState n.val = 6 → m.prk.live n.val = [] → m.base.slotPort n.val = none →
      m.base.isSet (Reg.PRK_SHELF_CTL n.val) F.PRK_SHELF_CTL_pin = false →
      exec (.idleHoldExpiry n) s = .next (s.ends
        { m with base := ((m.base.setSlotState n.val 7).disarm (.idleHold n.val)).arm (.pwrreqRelease n.val) ms,
                 prk := { (m.prk.setSlot { (m.prk.slot n.val) with perst := true, sweeping := false }) with planDue := true } })) ∧
    (∀ p : Nat, s.coreDue (.idleHold n.val) m → m.base.slotState n.val = 6 → m.prk.live n.val = [] → m.base.slotPort n.val = some p →
      m.jobsTo p = false → m.base.isSet (Reg.PRK_SHELF_CTL n.val) F.PRK_SHELF_CTL_pin = false →
      exec (.idleHoldExpiry n) s = .next (s.ends (m.stopShelf n.val))) ∧
    (s.plinthDue (.pwrreqRelease n.val) m →
      let x : Mod := { m with prk := m.prk.setSlot { (m.prk.slot n.val) with pwrreq := false } }
      ((m.pl.dieOn && m.base.coreOn) = false → exec (.pwrreqReleaseExpiry n) s = .next (s.ends x)) ∧
      (m.pl.dieOn = true → m.base.coreOn = true → m.base.slotState n.val = 7 →
        ((x.prk.slot n.val).pg = true → exec (.pwrreqReleaseExpiry n) s = .next (s.ends
          { x with base := m.base.arm (.pgOff n.val) (m.base.rd Reg.PRK_SIDE_TIME F.PRK_SIDE_TIME_pg_off_ms * ms) })) ∧
        ((x.prk.slot n.val).pg = false → exec (.pwrreqReleaseExpiry n) s = .next (s.ends (x.powerOff n.val))))) ∧
    (s.coreDue (.minOff n.val) m → m.base.slotState n.val = 8 →
      let x : Mod := { m with base := m.base.setSlotState n.val 0, prk := { m.prk with planDue := true } }
      ((m.prk.slot n.val).keepSince = none → exec (.minOffExpiry n) s = .next (s.ends x)) ∧
      (∀ t : Nat, (m.prk.slot n.val).keepSince = some t → x.eligible n.val = true →
        exec (.minOffExpiry n) s = .next (s.ends (x.toWaiting n.val t))) ∧
      (∀ t : Nat, (m.prk.slot n.val).keepSince = some t → x.eligible n.val = false →
        exec (.minOffExpiry n) s = .next (s.ends { x with prk := x.prk.setSlot { (x.prk.slot n.val) with keepSince := none } }))) ∧
    (s.coreDue (.pgTimeout n.val) m → exec (.pgTimeout n) s = .next (s.ends (m.wakeFailure n.val))) ∧
    (s.coreDue (.linkTimeout n.val) m → exec (.linkTimeout n) s = .next (s.ends (m.wakeFailure n.val))) ∧
    (s.coreDue (.readyTimeout n.val) m → exec (.readyTimeout n) s = .next (s.ends (m.wakeFailure n.val))) ∧
    (s.coreDue (.pgOff n.val) m → m.base.slotState n.val = 7 → (m.prk.slot n.val).pg = true →
      exec (.pgOffTimeout n) s = .next (s.ends
        ((m.prk.live n.val).foldl (fun x e => x.finishIdx e.idx 0x21)
          { m with base := (m.base.setSlotState n.val 9).raise (slotEv n.val 2 1),
                   dirty := m.dirty ++ (m.base.slotPort n.val).toList,
                   prk := m.prk.setSlot { (m.prk.slot n.val) with failing := false } }))) ∧
    (∀ p : Nat, s.coreIs m → m.base.slotPort n.val = some p → m.base.linkUp p = true →
      exec (.shelfLinkDown n) s = .next (s.ends (m.portDown p)))

/-- Errors of memory. An uncorrectable DRAM error is counted, logged with its burst and raised, takes away a reservation on its line
(R137), poisons its word where no entry and no park read in flight has its bytes there, and else does to that entry what its state says
(R85, R99, R130); a corrected one is counted and raised, and at the hourly threshold raises
the channel's event once (R386); the patrol scrub corrects and finds (R99); a channel that fails is fatal (R385); an SRAM error is
fatal in tables and marks a register's read (R299). -/
def Obligations.MemoryErrorCommands : Prop :=
  ∀ (s : State) (m : Mod) (c : Fin 8),
    (∀ addr : Nat, s.coreIs m →
      let i := channelOf addr
      let burst := addr / 64 * 64
      let a := Reg.MEM_CH_ERRADDR i
      let b := (m.base.bump (Reg.MEM_CH_CNT i 1)).bump (Reg.PRK_CNT 9)
      let b := if b.isSet a F.MEM_CH_ERRADDR_valid then b
        else (b.wr a F.MEM_CH_ERRADDR_addr burst).wr a F.MEM_CH_ERRADDR_valid 1
      let b := b.raise { group := 5, bit := 2, sev := 1, detail := burst % 2 ^ 32, detail2 := burst / 2 ^ 32 }
      let n := (({ m with base := b } : Mod).loseRsv (fun r => r.line == some (addr / 64)) 5).burstLost i
      (n.prk.holder addr = none → n.stageHolder addr = none → exec (.dramUncorrectableError addr false) s = .next (s.ends
        { n with dram := { n.dram with poison := addr / 8 :: n.dram.poison.filter (fun w => w != addr / 8) } })) ∧
      (∀ e : Entry, (n.prk.holder addr = some e ∨ (n.prk.holder addr = none ∧ n.stageHolder addr = some e)) →
        exec (.dramUncorrectableError addr false) s = .next (s.ends (n.granuleError e))) ∧
      exec (.dramUncorrectableError addr true) s = .next (s.ends
        { n with base := n.base.raise { group := 0, bit := 1, sev := 2 } })) ∧
    (s.coreIs m → m.dram.hour = m.base.todSec / 3600 →
      let k := tget m.dram.ceHour c.val + 1
      let thr := m.base.rd (Reg.MEM_CH_CFG c.val) F.MEM_CH_CFG_ce_thr
      let b := (m.base.bump (Reg.MEM_CH_CNT c.val 0)).bump (Reg.PRK_CNT 8)
      (thr ≠ 0 → thr ≤ k → m.dram.ceRaised.contains c.val = false → exec (.dramCorrectedError c) s = .next (s.ends
        { m with dram := { m.dram with ceHour := tset m.dram.ceHour c.val k, ceRaised := c.val :: m.dram.ceRaised },
                 base := (b.raise { group := 7, bit := 24 + c.val, cause := 0 }).raise { group := 5, bit := 1 } })) ∧
      ((thr = 0 ∨ k < thr) → exec (.dramCorrectedError c) s = .next (s.ends
        { m with dram := { m.dram with ceHour := tset m.dram.ceHour c.val k }, base := b.raise { group := 5, bit := 1 } }))) ∧
    (∀ (fixed : List (Fin 8)) (bad : List Nat), s.coreIs m → m.base.isSet Reg.PRK_SCRUB F.PRK_SCRUB_enable = true → m.pl.m2 ≠ 2 →
      m.base.stage = 6 → exec (.patrolScrub fixed bad) s = .next (s.ends
        (bad.foldl (fun m a => m.dramError a false)
          ((fixed.map Fin.val).foldl (fun m i => ({ m with base := m.base.bump (Reg.MEM_CH_CNT i 2) } : Mod).corrected i) m)))) ∧
    (∀ tr : Bool, s.coreIs m → m.base.isSet (Reg.MEM_CH_STATUS c.val) F.MEM_CH_STATUS_failed = false →
      exec (.dramChannelFailure c tr) s = .next (s.ends
        { m with base := (m.base.wr (Reg.MEM_CH_STATUS c.val) F.MEM_CH_STATUS_failed 1).raise
                   { group := 7, bit := 24 + c.val, cause := 1, sev := 2 } })) ∧
    (s.coreIs m →
      exec (.sramUncorrectableError .table) s = .next (s.ends { m with base := m.base.raise { group := 0, bit := 0, sev := 2 } }) ∧
      exec (.sramUncorrectableError (.entryTable true)) s = .next (s.ends
        { m with base := m.base.raise { group := 0, bit := 1, sev := 2 } }) ∧
      (∀ off : Nat, exec (.sramUncorrectableError (.register off)) s = .next (s.ends
        { m with base := (m.base.emit (.badRead off)).raise { group := 0, bit := 0, sev := 1, detail := off } })))

/-! ### Ports, lanes and tiles -/

/-- A link that may train comes up with the width and rate it found, and one that goes down takes what it carried (R95, R199, R214,
R219, R296). A DPC trigger that the host enabled logs its reason, sends its message and contains the port (R217). An idle upstream link
goes to L1, or counts anew while a condition is missing (R221, R222). HOST_PERST_k# resets the partition's upstream port, wakes a
sleeping module on its held port, and lets the port train when it deasserts (R35, R223, R332, R365). -/
def Obligations.PortCommands : Prop :=
  ∀ (s : State) (m : Mod) (p : Fin 64),
    (∀ l : LinkUp, s.coreIs m →
      (m.mayTrain p.val = true → m.base.portRole p.val = 3 → m.base.linkUp p.val = false →
        exec (.portLinkUp p l.width l.rate l.toLinkModes) s = .next (s.ends
          (let a := Reg.PRT_STATUS p.val
           let rate := min l.rate 5
           let b := (((m.base.wr a F.PRT_STATUS_link_up 1).wr a F.PRT_STATUS_width (min l.width 16)).wr a F.PRT_STATUS_rate rate).wr a
             F.PRT_STATUS_flit (b2n (l.flit || rate == 5))
           let n := ({ m with base := (b.wr a F.PRT_STATUS_pm 0).setLanes p.val (rate + 1) } : Mod).trained p.val l
           let b := { n.base with released := n.base.released.filter (fun q => q != p.val) }
           let b := (b.raise (b.portEv p.val 3 0)).restartL1 p.val
           (List.range 3).foldl (fun (x : Mod) v => x.advertise p.val v l.scaled) { n with base := b }))) ∧
      (m.mayTrain p.val = true → exec (.portLinkUp p l.width l.rate l.toLinkModes) s = .next (s.ends (m.portUp p.val l))) ∧
      (m.mayTrain p.val = false → exec (.portLinkUp p l.width l.rate l.toLinkModes) s = .next (s.ends m))) ∧
    (s.coreIs m →
      (m.base.portRole p.val = 1 → m.base.linkUp p.val = true →
        let n := m.linkGone p.val
        exec (.portLinkDown ⟨p, false⟩) s = .next (s.ends
          (({ n with base := n.base.raise (n.base.portEv p.val 2 1) } : Mod).upstreamReset (n.base.portPart p.val)))) ∧
      (m.base.portRole p.val = 3 → m.base.linkUp p.val = true → exec (.portLinkDown ⟨p, false⟩) s = .next (s.ends (m.linkGone p.val))) ∧
      (m.base.linkUp p.val = false → exec (.portLinkDown ⟨p, false⟩) s = .next (s.ends m)) ∧
      exec (.portLinkDown ⟨p, true⟩) s = .next (s.ends ((m.portDown p.val).loopbackSlave p.val))) ∧
    (∀ e : DpcCause, s.coreIs m → m.base.portRole p.val = 2 →
      let te := m.base.cfg (24 + p.val) 0x2A4 / 2 ^ 16 % 4
      let fatal := bitOf (m.base.cfg (24 + p.val) 0x10C) (dpcBit e)
      let n : Mod := { m with base := m.base.portErr p.val (dpcBit e) 1 [] }
      (te = 0 ∨ (te = 1 ∧ fatal = false) ∨ bitOf (m.base.cfg (24 + p.val) 0x108) (dpcBit e) = true →
        exec (.dpcTrigger ⟨p, e⟩) s = .next (s.ends n)) ∧
      (te = 2 ∨ (te = 1 ∧ fatal = true) → bitOf (m.base.cfg (24 + p.val) 0x108) (dpcBit e) = false →
        n.base.portRole p.val = 2 → n.base.cfg (24 + p.val) 0x2A4 / 2 ^ 16 % 4 ≠ 0 → n.base.contained p.val = false →
        exec (.dpcTrigger ⟨p, e⟩) s = .next (s.ends (({ n with base := n.base.dpcStatus p.val 0 0 } : Mod).containPort p.val 0)) ∧
        (bitOf (n.base.cfg (24 + p.val) 0x2A4) 19 = false → bitOf (n.base.cfg (24 + p.val) 0x2A4) 20 = false →
          let w := n.base.cfg (24 + p.val) 0x2A8
          exec (.dpcTrigger ⟨p, e⟩) s = .next (s.ends
            (({ n with base := n.base.setCfg (24 + p.val) 0x2A8 (w / 2 ^ 7 * 2 ^ 7 + 1 + 2 ^ 3 * b2n (bitOf w 3)) } : Mod).containPort
              p.val 0))))) ∧
    (s.coreDue (.l1Idle p.val) m →
      (m.mayL1 p.val = true → m.base.isSet (Reg.PRT_CFG p.val) F.PRT_CFG_l1ss = false →
        exec (.l1IdleExpiry p) s = .next (s.ends
          { m with base := ((m.base.wr (Reg.PRT_STATUS p.val) F.PRT_STATUS_pm 1).bump (Reg.PRT_CNT p.val 7)).emit (.l1Entry p.val),
                   sw := { m.sw with idleAt := tset m.sw.idleAt p.val m.base.now } })) ∧
      (m.mayL1 p.val = false → exec (.l1IdleExpiry p) s = .next (s.ends { m with base := m.base.restartL1 p.val }))) ∧
    (∀ k : Fin 8, s.powerIs m → m.pl.dieOn = true → m.base.stage ≠ 8 → m.base.perstActs k.val = true →
      let low : Mod := { m with pl := { m.pl with hostReset := m.pl.hostReset.filter (fun x => x != k.val) } }
      let high : Mod := { m with pl := { m.pl with hostReset := m.pl.hostReset.filter (fun x => x != k.val) ++ [k.val] } }
      (m.base.coreOn = true → (m.base.heldPort.isSome && m.base.heldPort == m.base.upstreamPort k.val) = false →
        exec (.hostPerstAssert k) s = .next (s.ends (low.perstDown k.val))) ∧
      (m.base.coreOn = false → (m.base.heldPort.isSome && m.base.heldPort == m.base.upstreamPort k.val) = true →
        (low.wakeEvent 1).base.coreOn = true → (low.wakeEvent 1).pl.dieOn = true → (low.wakeEvent 1).base.stage ≠ 8 →
        exec (.hostPerstAssert k) s = .next (s.ends ((low.wakeEvent 1).perstDown k.val))) ∧
      (∀ q : Nat, m.base.coreOn = true → m.base.upstreamPort k.val = some q → m.base.linkUp q = false →
        4 ≤ m.base.rd Reg.CLK_STATUS F.CLK_STATUS_stage →
        exec (.hostPerstDeassert k) s = .next (s.ends { high with base := m.base.trainPort q })))

/-- Lanes and tiles. Signal starts an adaptation, whose end writes the CTLE code that its searches chose, the lane's taps and the first
result of the eye, with index 0 unless the CDR locked within 4 ms; a full measurement is kept unless margining pauses it or the tile does
not measure (R237 to R240). A margin command is answered (R245). An idle tile gates and ungates (R246); a tile PLL that loses lock brings
its ports down, and its lock lets them train (R227). Bits that arrive on a lane reach its checker in test mode (R242, R243), go back under
a far-end loopback and from a Loopback slave (R244), and else do nothing. -/
def Obligations.LaneCommands : Prop :=
  ∀ (s : State) (m : Mod) (l : Fin 256) (t : Fin 32), s.coreIs m →
    (m.base.isSet (Reg.SER_LANE_CFG l.val) F.SER_LANE_CFG_disable = false → m.base.camTile (laneTile l.val) = false →
      let a := Reg.SER_STATUS l.val
      let b := ((m.base.wr a F.SER_STATUS_sig_det 1).wr a F.SER_STATUS_cdr_lock 0).wr a F.SER_STATUS_adapt_done 0
      b.camTile (laneTile l.val) = false →
      exec (.signalDetect l) s = .next (s.ends
        (({ m with base := ((b.wr (Reg.SER_EYE l.val) F.SER_EYE_valid 0).wr (Reg.SER_EYE l.val) F.SER_EYE_paused 0).wr
                     (Reg.SER_TILE_STATUS (laneTile l.val)) ⟨8 + l.val % 8, 1⟩ 0 } : Mod).setLaneRt
          { (m.laneRt l.val) with adaptAt := some m.base.now }))) ∧
    (∀ x : Adaptation,
      (m.base.isSet (Reg.SER_STATUS l.val) F.SER_STATUS_sig_det = false → l.val < 192 →
        exec (.adaptationDone l x.lock x.coarse x.again x.beside x.taps x.scan) s = .next (s.ends m)) ∧
      (192 ≤ l.val → exec (.adaptationDone l x.lock x.coarse x.again x.beside x.taps x.scan) s = .next (s.ends ((m.adaptDoneAt l.val x).camStep (l.val / 8 - 24)))) ∧
      (∀ start : Nat, m.base.isSet (Reg.SER_STATUS l.val) F.SER_STATUS_sig_det = true → (m.laneRt l.val).adaptAt = some start →
        let a := Reg.SER_STATUS l.val
        let c := Reg.SER_RX_CTL l.val
        let thr := m.base.errThr (laneTile l.val)
        let r := measured thr x.scan
        let ok := x.lock && decide (m.base.now ≤ start + 4 * ms)
        let code := if m.base.isSet c F.SER_RX_CTL_ctle_ovr then m.base.rd c F.SER_RX_CTL_ctle_set
          else fineCtle thr (coarseCtle thr x.coarse) x.again x.beside
        let b := ((m.base.flag a F.SER_STATUS_cdr_lock ok).wr a F.SER_STATUS_adapt_done 1).wr c F.SER_RX_CTL_ctle code
        let b := ((b.putTaps l.val x.taps).putEye l.val (if ok then r.2.2.2 else 0) r.2.1 r.2.2.1 r.1).bump (Reg.SER_CNT l.val 7)
        b.camTile (laneTile l.val) = false → l.val < 192 →
        exec (.adaptationDone l x.lock x.coarse x.again x.beside x.taps x.scan) s = .next (s.ends
          (({ m with base := b } : Mod).setLaneRt { (m.laneRt l.val) with adaptAt := none })))) ∧
    (∀ (scan : List SubEye) (taps : List Byte),
      let b := if m.base.laneInService l.val && !m.base.isSet (Reg.SER_RX_CTL l.val) F.SER_RX_CTL_freeze && !taps.isEmpty then
        m.base.putTaps l.val taps else m.base
      ((b.isSet (Reg.SER_EYE l.val) F.SER_EYE_paused = true ∨ b.isSet (Reg.SER_EYE_CFG (laneTile l.val)) F.SER_EYE_CFG_run = false) →
        exec (.eyeMeasurementDone l scan taps) s = .next (s.ends { m with base := b })) ∧
      (b.isSet (Reg.SER_EYE l.val) F.SER_EYE_paused = false → b.isSet (Reg.SER_EYE_CFG (laneTile l.val)) F.SER_EYE_CFG_run = true →
        let e := measured (b.errThr (laneTile l.val)) scan
        exec (.eyeMeasurementDone l scan taps) s = .next (s.ends
          { m with base := b.putEye l.val (if b.isSet (Reg.SER_STATUS l.val) F.SER_STATUS_cdr_lock then e.2.2.2 else 0)
                     e.2.1 e.2.2.1 e.1 }))) ∧
    (m.base.camTile (laneTile l.val) = true → ∀ c : MarginCmd, exec (.marginCommand l c) s = .next (s.ends m)) ∧
    (m.base.camTile (laneTile l.val) = false →
      exec (.marginCommand l .noCommand) s = .next (s.ends (m.marginSay l.val 0x9C)) ∧
      exec (.marginCommand l .clearErrorLog) s = .next (s.ends (m.marginSay l.val 0x55)) ∧
      exec (.marginCommand l (.report 0x88)) s = .next (s.ends (m.marginSay l.val 0x1F)) ∧
      exec (.marginCommand l (.report 0x89)) s = .next (s.ends (m.marginSay l.val 64)) ∧
      exec (.marginCommand l (.report 0x8A)) s = .next (s.ends (m.marginSay l.val 32)) ∧
      exec (.marginCommand l (.report 0x8B)) s = .next (s.ends (m.marginSay l.val 45)) ∧
      exec (.marginCommand l (.report 0x8C)) s = .next (s.ends (m.marginSay l.val 25)) ∧
      exec (.marginCommand l (.report 0x8D)) s = .next (s.ends (m.marginSay l.val 63)) ∧
      exec (.marginCommand l (.report 0x8E)) s = .next (s.ends (m.marginSay l.val 63)) ∧
      exec (.marginCommand l (.report 0x90)) s = .next (s.ends (m.marginSay l.val 15)) ∧
      (∀ n : Nat, exec (.marginCommand l (.setErrorLimit n)) s = .next (s.ends
        ((m.setMargin { (m.margin l.val) with limit := n % 64 }).marginSay l.val (0xC0 + n % 64)))) ∧
      exec (.marginCommand l .goToNormal) s = .next (s.ends
        ((({ m with base := m.base.wr (Reg.SER_EYE l.val) F.SER_EYE_paused 0 } : Mod).setMargin
          { (m.margin l.val) with sub := none }).marginSay l.val 0x0F)) ∧
      (∀ (d : Bool) (n : Nat), exec (.marginCommand l (.stepTiming d n)) s = .next (s.ends (m.marginStep l.val n 32)) ∧
        exec (.marginCommand l (.stepVoltage d n)) s = .next (s.ends (m.marginStep l.val n 64)))) ∧
    (m.base.camTile t.val = false → m.base.inTest t.val = false → m.base.isSet (Reg.SER_TILE_CTL t.val) F.SER_TILE_CTL_no_gate = false →
      m.base.tileIdle t.val = true →
      (m.cellQueued t.val = false → exec (.tileGate t) s = .next (s.ends
        { m with base := (({ m.base with now := max m.base.now (m.idleDue t.val) } : Base).wr
                            (Reg.SER_TILE_STATUS t.val) F.SER_TILE_STATUS_gated 1).showM1 })) ∧
      (m.cellQueued t.val = true → exec (.tileGate t) s = .next (s.ends (m.idleAnew (m.base.portsTouch t.val))))) ∧
    exec (.tileUngate t) s = .next (s.ends
      { m with base := (m.base.wr (Reg.SER_TILE_STATUS t.val) F.SER_TILE_STATUS_gated 0).showM1 }) ∧
    (t.val < 24 →
      exec (.tilePllLoss t) s = .next (s.ends
        (({ m with base := (m.base.raise { group := 10, bit := t.val, cause := 0, sev := 1 }).wr
                     (Reg.SER_TILE_STATUS t.val) F.SER_TILE_STATUS_pll_lock 0 } : Mod).tileDown t.val)) ∧
      (3 ≤ m.base.stage → m.base.stage ≤ 6 →
        let n : Mod := { m with base := m.base.wr (Reg.SER_TILE_STATUS t.val) F.SER_TILE_STATUS_pll_lock 1 }
        n.base.inTest t.val = false → m.base.tileEnabled t.val = true → exec (.tilePllLock t) s = .next (s.ends (n.tileTrain t.val)))) ∧
    (m.base.tileEnabled t.val = false → exec (.tilePllLock t) s = .next (s.ends m)) ∧
    (∀ bs : List Bool,
      let g := Reg.SER_PRBS l.val
      let mode := m.base.rd (Reg.SER_LOOP l.val) F.SER_LOOP_mode
      (m.base.inTest (laneTile l.val) = true → mode = 0 → m.base.isSet g F.SER_PRBS_gen_en = false →
        m.base.isSet g F.SER_PRBS_chk_en = true →
        let r := (m.laneRt l.val).chk.takeAll (m.base.rd g F.SER_PRBS_chk_sel) (m.base.isSet g F.SER_PRBS_chk_lock) bs
        exec (.prbsCheckerLock l bs) s = .next (s.ends
          (({ m with base := ((m.base.flag g F.SER_PRBS_chk_lock r.2.1).bumpBy (Reg.SER_CNT l.val 0) r.2.2.1).bumpBy
                       (Reg.SER_CNT l.val 1) r.2.2.2 } : Mod).setLaneRt { (m.laneRt l.val) with chk := r.1 }))) ∧
      (m.base.inTest (laneTile l.val) = true → mode = 3 → (m.base.sendBits l.val bs).isSet g F.SER_PRBS_chk_en = false →
        exec (.prbsCheckerLock l bs) s = .next (s.ends { m with base := m.base.sendBits l.val bs })) ∧
      (m.base.inTest (laneTile l.val) = false → (m.laneRt l.val).slave = true →
        exec (.prbsCheckerLock l bs) s = .next (s.ends { m with base := m.base.sendBits l.val bs })) ∧
      (m.base.inTest (laneTile l.val) = false → (m.laneRt l.val).slave = false →
        exec (.prbsCheckerLock l bs) s = .next (s.ends m)))

/-! ### Camtex links -/

/-- Training and what breaks a Camtex link. A codeword on a lane in service is decoded, its corrections and invalid headers are counted, and
the one that completes 16 invalid headers in 64 blocks loses the framing, which fails the link (R230 to R233); a slot without its AM is
missing and the fourth in a row fails the link (R250), as do lanes more than 64 blocks apart (R262); an LR block fails an ACTIVE link with its
reason, and sends one in training back to step 1, but for its first reset_us (R262, R267). The reset time ends in LOCK (R264); 64 valid headers
in a row are block lock; a settle over is the tuner's (R266); the tuning time ends in CONFIG, the training time in a failure, the
backoff in a new attempt (R264). A partner's wake pattern wakes a module (R35); one sent is followed by LR blocks, and the sleeper's
signal goes on with LOCK (R284). TS blocks bring the parts of a record, whose fixed nibble tells an inverted lane; four in order whose CRC checks
are used (R263). -/
def Obligations.CamtexTrainingCommands : Prop :=
  ∀ (s : State) (m : Mod) (k i : Fin 8) (l : Fin 256),
    (∀ words : List (List (Fin 4)), s.coreIs m →
      exec (.framingLoss ⟨l, words⟩) s = .next (s.ends (m.wordsIn l.val words)) ∧
      (∀ first last : Nat, exec (.amReceive l words first last) s = .next (s.ends
        (((m.wordsIn l.val words).amTake l.val).deskew l.val (last - first))))) ∧
    (∀ levels : List (Fin 4), s.coreIs m → 192 ≤ l.val →
      let j := l.val / 8 - 24
      let c := m.cam j
      let x := c.lane (l.val % 8)
      ((c.running = false ∨ bitOf c.active (l.val % 8) = false) → exec (.framingLoss ⟨l, [levels]⟩) s = .next (s.ends m)) ∧
      (c.running = true → bitOf c.active (l.val % 8) = true →
        let r := codewordOf (invertLevels (m.base.isSet (Reg.SER_LANE_CFG l.val) F.SER_LANE_CFG_rx_inv != x.inverted) levels)
        let u := x.code.unpack r.1 r.2.2
        let b := ((m.base.bumpBy (Reg.SER_CNT l.val 2) r.2.1).bumpBy (Reg.SER_CNT l.val 3) (b2n r.2.2)).bumpBy (Reg.SER_CNT l.val 4) u.2
        let b := (b.occ 0x240 (laneTile l.val) none r.2.1).occ 0x241 (laneTile l.val) none (b2n r.2.2)
        let n := ({ m with base := b } : Mod).setLane j { x with code := u.1 }
        (u.1.unframed = false → exec (.framingLoss ⟨l, [levels]⟩) s = .next (s.ends n)) ∧
        (u.1.unframed = true → n.base.camTile (laneTile l.val) = true →
          n.base.isSet (Reg.SER_STATUS l.val) F.SER_STATUS_frame = true → (n.cam j).running = true →
          bitOf (n.cam j).active (l.val % 8) = true →
          exec (.framingLoss ⟨l, [levels]⟩) s = .next (s.ends
            (({ n with base := (n.base.wr (Reg.SER_STATUS l.val) F.SER_STATUS_frame 0).bump (Reg.SER_CNT l.val 5) } : Mod).linkReset
              j 5))))) ∧
    (∀ (x : RxBlock) (rest : List RxBlock) (first last : Nat), s.coreIs m → 192 ≤ l.val →
      let j := l.val / 8 - 24
      let y := (m.cam j).lane (l.val % 8)
      y.code.blocks = x :: rest →
      (x.am = false → last - first ≤ 64 → exec (.amReceive l [] first last) s = .next (s.ends m)) ∧
      (x.am = false → 64 < last - first → (m.cam j).running = true → bitOf (m.cam j).active (l.val % 8) = true →
        exec (.amReceive l [] first last) s = .next (s.ends (m.linkReset j 6))) ∧
      (x.am = true → last - first ≤ 64 →
        let n := m.setLane j { y with code := { y.code with blocks := rest } }
        let z := (n.cam j).lane (l.val % 8)
        (n.cam j).running = true → bitOf (n.cam j).active (l.val % 8) = true → x.control 0x4B = false →
        (z.missing + 1 < 4 → exec (.amReceive l [] first last) s = .next (s.ends (n.setLane j { z with missing := z.missing + 1 }))) ∧
        (4 ≤ z.missing + 1 → exec (.amReceive l [] first last) s = .next (s.ends (n.linkReset j 6))))) ∧
    (∀ reason : Byte, s.coreIs m →
      let st := m.base.camState k.val
      let asleep := (m.setCam { (m.cam k.val) with partnerAsleep := true }).linkReset k.val 11
      let since := (m.cam k.val).resetAt + max 1 (m.base.rd (Reg.FAB_TIME k.val) F.FAB_TIME_reset_us) * us
      (st = 6 → reason.toNat = 2 → exec (.lrReceive k reason) s = .next (s.ends asleep)) ∧
      (st = 6 → reason.toNat ≤ 1 → exec (.lrReceive k reason) s = .next (s.ends (m.linkReset k.val 8))) ∧
      (st = 6 → 2 < reason.toNat → exec (.lrReceive k reason) s = .next (s.ends m)) ∧
      (3 ≤ st → st ≤ 5 → m.base.now ≤ since → exec (.lrReceive k reason) s = .next (s.ends m)) ∧
      (3 ≤ st → st ≤ 5 → since < m.base.now → reason.toNat = 2 → exec (.lrReceive k reason) s = .next (s.ends asleep)) ∧
      (3 ≤ st → st ≤ 5 → since < m.base.now → reason.toNat ≠ 2 →
        exec (.lrReceive k reason) s = .next (s.ends ((m.camDrop k.val).camTrain k.val 0#8))) ∧
      (st < 3 → exec (.lrReceive k reason) s = .next (s.ends m))) ∧
    (s.coreDue (.resetHold k.val) m → m.base.camState k.val = 1 →
      ((m.cam k.val).sleeping = true → exec (.resetHoldExpiry k) s = .next (s.ends (m.camDown k.val))) ∧
      ((m.cam k.val).sleeping = false → (m.cam k.val).waking = 0 → exec (.resetHoldExpiry k) s = .next (s.ends (m.toLock k.val)))) ∧
    (∀ headers : List (BitVec 2), s.coreIs m →
      let x := (m.cam k.val).lane i.val
      let n := headers.foldl headerRow x.valid
      (m.lineTrains k.val i.val = true → exec (.blockLock k ⟨i, headers⟩) s = .next (s.ends
        (m.setLane k.val { x with valid := n, lock := x.lock || n == 64 }))) ∧
      (m.lineTrains k.val i.val = false → exec (.blockLock k ⟨i, headers⟩) s = .next (s.ends m))) ∧
    (∀ scan : List SubEye, s.coreDue (.tuneSettle k.val i.val) m → m.base.camState k.val = 4 →
      let x := (m.cam k.val).lane i.val
      let qi := quickIndex (m.base.errThr (24 + k.val)) scan
      exec (.tuneSettleExpiry k i scan) s = .next (s.ends
        (((m.setLane k.val { x with tuner := x.tuner.settled qi }).showTuned k.val).camStep k.val))) ∧
    (s.coreDue (.tune k.val) m → exec (.tuneTimeout k) s = .next (s.ends ((m.toConfig k.val).camStep k.val))) ∧
    (s.coreDue (.train k.val) m →
      (3 ≤ m.base.camState k.val → m.base.camState k.val ≤ 5 → exec (.trainTimeout k) s = .next (s.ends (m.trainFail k.val 1))) ∧
      (5 < m.base.camState k.val → exec (.trainTimeout k) s = .next (s.ends m))) ∧
    (s.coreDue (.backoff k.val) m → m.base.camState k.val = 2 →
      exec (.backoffExpiry k) s = .next (s.ends
        (m.camTrain k.val (lrReason (m.base.rd (Reg.FAB_STATUS k.val) F.FAB_STATUS_last_fail))))) ∧
    (s.dieIs m → (m.base.camPort k.val).isSome = true → exec (.wakePatternDetect k) s = .next (s.ends (m.wakeEvent 5))) ∧
    (s.coreDue (.wakePattern k.val) m → (m.cam k.val).waking = 1 →
      exec (.wakePatternEnd k) s = .next (s.ends
        (({ m with base := m.base.emit (.lr k.val 0#8) } : Mod).setCam { (m.cam k.val) with waking := 2 }))) ∧
    (s.coreIs m → (m.cam k.val).waking = 2 → m.base.camMay k.val = true →
      exec (.sleeperSignalDetect k) s = .next (s.ends
        ((({ m with base := m.base.startLanes k.val } : Mod).setCam
          { (m.cam k.val) with lanes := (m.cam k.val).lanes.map (fun l => { lane := l.lane }),
                               tuneDone := false, lead := false, go := false }).toLock k.val))) ∧
    (∀ blocks : List (BitVec 66), s.coreIs m → exec (.trainingRecordReceive k i blocks) s = .next (s.ends
      (blocks.foldl (fun n x => n.tsIn k.val i.val x) m))) ∧
    (∀ block : BitVec 66, s.coreIs m →
      let w := m.base.wired k.val i.val block
      let x := (m.cam k.val).lane i.val
      (tsPart w = none → tsPart (~~~w) = none → exec (.trainingRecordReceive k i [block]) s = .next (s.ends m)) ∧
      (m.lineTrains k.val i.val = false ∨ x.lock = false → exec (.trainingRecordReceive k i [block]) s = .next (s.ends m)) ∧
      (∀ (flip : Bool) (n : Nat) (bytes : List Byte), tsPart (if flip then ~~~w else w) = some (n, bytes) → (flip = true → tsPart w = none) →
        m.lineTrains k.val i.val = true → x.lock = true →
        let parts := joinPart x.parts n bytes
        let r := parts.flatten
        let q := ({ m with base := m.base.flag (Reg.SER_STATUS (camLaneNo k.val i.val)) F.SER_STATUS_pol_det flip } : Mod).setLane k.val
          { x with parts := if parts.length = 4 then [] else parts, inverted := flip }
        (parts.length ≠ 4 ∨ recordOk r = false → exec (.trainingRecordReceive k i [block]) s = .next (s.ends q)) ∧
        (parts.length = 4 → recordOk r = true → q.base.camState k.val ≠ 4 →
          let b := (q.base.setWord64 (Reg.FAB_PARTNER k.val) (fieldAt r 2 8)).setWord (Reg.FAB_PARTNER_INFO k.val)
            (BitVec.ofNat 32 (recField r 0xA ⟨0, 13⟩ + 2 ^ 13 * recField r 0xC ⟨0, 8⟩))
          exec (.trainingRecordReceive k i [block]) s = .next (s.ends
            (((({ q with base := b } : Mod).setLane k.val { ((q.cam k.val).lane i.val) with record := r }).answerRecord k.val i.val
              r).camStep k.val)))))

/-- Flits. A port that is not ACTIVE, or that nothing may leave, sends a NULL flit with its next sequence number; one that replays the next
of its held flits; and else the first segment that its channel's credit and the window allow goes out in a new DATA flit, which is held
(R257, R258, R260, R264). The next flit of the stream is taken once its 34 blocks have come (R253). A flit whose CRC fails is counted and
gone (R252); a DATA flit out of sequence is counted after its acknowledgment and limits are taken (R255, R259). The replay timer sends every held flit again, and fails the link at
replay_max expiries (R260, R261). -/
def Obligations.FlitCommands : Prop :=
  ∀ (s : State) (m : Mod) (k : Fin 8),
    (∀ p : Nat, s.coreIs m → (m.cam k.val).running = true → m.base.camPort k.val = some p → p < 64 →
      let n := (m.growCredit p 0).growCredit p 2
      let next := n.base.rd (Reg.FAB_SEQ k.val) F.FAB_SEQ_next_tx
      let zeros := List.replicate 256 0#8
      (n.base.camActive k.val = false → exec (.flitSend k) s = .next (s.ends
        (n.emitFlit k.val next 0 0 { dstPath := 0, srcPath := 0 } zeros))) ∧
      (∀ (h : HeldFlit) (r : Option Nat), n.base.camActive k.val = true → (n.cam k.val).replayNext = some (h, r) →
        let x := n.setCam { (n.cam k.val) with replay := r }
        exec (.flitSend k) s = .next (s.ends
          (({ x with base := (x.base.bump (Reg.FAB_CNT k.val 4)).occ 0x281 k.val none 1 } : Mod).emitFlit k.val h.seq 1 h.seg.vc h.seg
            (segBytes h.seg)))) ∧
      (n.base.camActive k.val = true → (n.cam k.val).replayNext = none → (n.cam k.val).tx = [] →
        exec (.flitSend k) s = .next (s.ends
          ((n.setCam { (n.cam k.val) with replay := none }).emitFlit k.val next 0 0 { dstPath := 0, srcPath := 0 } zeros))) ∧
      (∀ seg : Segment, n.base.camActive k.val = true → (n.cam k.val).replayNext = none →
        let x := n.setCam { (n.cam k.val) with replay := none }
        (n.cam k.val).tx.find? (fun y => (n.cam k.val).mayNew (segResp y) next (x.base.rd (Reg.FAB_CFG k.val) F.FAB_CFG_window)) =
          some seg →
        let c : CamPort := { (n.cam k.val) with replay := none, tx := (n.cam k.val).tx.erase seg,
                                                held := (n.cam k.val).held ++ [⟨next, seg⟩],
                                                ccReq := if segResp seg then (n.cam k.val).ccReq else ((n.cam k.val).ccReq + 1) % 4096,
                                                ccRsp := if segResp seg then ((n.cam k.val).ccRsp + 1) % 4096 else (n.cam k.val).ccRsp }
        let b := (x.base.bump (Reg.FAB_CNT k.val 0)).occ 0x280 k.val none 1
        let b := (b.wr (Reg.FAB_SEQ k.val) F.FAB_SEQ_next_tx ((next + 1) % 4096)).armIfIdle (.replay k.val) (b.replayNs k.val)
        exec (.flitSend k) s = .next (s.ends
          ((((({ x with base := b } : Mod).setCam c).showCredit k.val).emitFlit k.val next 1 seg.vc seg (segBytes seg)).segmentSent seg)))) ∧
    (s.coreIs m → (m.cam k.val).running = true →
      (∀ (lanes : List (Fin 8)) (words : List (List (Fin 4))), exec (.flitReceive k lanes words) s = .next (s.ends
        (((lanes.zip words).foldl (fun x w => x.wordIn (camLaneNo k.val w.1.val) w.2) m).flitTake k.val))) ∧
      (CamPort.takeBlocks 34 (m.cam k.val) = none → exec (.flitReceive k [] []) s = .next (s.ends m))) ∧
    (∀ (xs : List RxBlock) (c : CamPort), s.coreIs m → (m.cam k.val).running = true →
      CamPort.takeBlocks 34 (m.cam k.val) = some (xs, c) → xs.find? (fun x => x.control 0x33 && !x.bad) = none →
      let m := m.setCam c
      (m.cam k.val).running = true →
      let bytes := xs.flatMap RxBlock.bytes
      let bad := xs.any (fun x => x.bad || x.header != 2#2)
      ((bad || bytes.length != 272 || crc32 (bytes.take 268) != fieldAt bytes 268 4) = true →
        exec (.flitReceive k [] []) s = .next (s.ends { m with base := m.base.bump (Reg.FAB_CNT k.val 2) })) ∧
      (bad = false → bytes.length = 272 → crc32 (bytes.take 268) = fieldAt bytes 268 4 →
        let w0 := fieldAt bytes 0 4
        let w1 := fieldAt bytes 4 4
        let n := (m.toActive k.val).ackApply k.val (bits w0 ⟨12, 12⟩)
        let n := (n.setCam ((n.cam k.val).takeLimits (w1 % 4096) (bits w1 ⟨12, 12⟩))).showCredit k.val
        let last := n.base.rd (Reg.FAB_RX k.val) F.FAB_RX_last_rx
        (bits w0 ⟨24, 2⟩ = 0 → exec (.flitReceive k [] []) s = .next (s.ends n)) ∧
        (bits w0 ⟨24, 2⟩ = 1 → w0 % 4096 = (last + 1) % 4096 → exec (.flitReceive k [] []) s = .next (s.ends
          (({ n with base := n.base.wr (Reg.FAB_RX k.val) F.FAB_RX_last_rx (w0 % 4096) } : Mod).acceptFlit k.val (flitSeg bytes)))) ∧
        (bits w0 ⟨24, 2⟩ = 1 → w0 % 4096 ≠ (last + 1) % 4096 → exec (.flitReceive k [] []) s = .next (s.ends
          { n with base := n.base.bump (Reg.FAB_CNT k.val 3) })))) ∧
    (s.coreDue (.replay k.val) m → (m.cam k.val).held ≠ [] →
      let c := m.cam k.val
      let n := (({ m with base := m.base.bump (Reg.FAB_CNT k.val 5) } : Mod).setCam
        { c with expiries := c.expiries + 1, replay := some 0 }).showCredit k.val
      (n.base.replayMax k.val ≤ c.expiries + 1 → exec (.replayTimerExpiry k) s = .next (s.ends (n.linkReset k.val 3))) ∧
      (c.expiries + 1 < n.base.replayMax k.val → exec (.replayTimerExpiry k) s = .next (s.ends
        { n with base := n.base.arm (.replay k.val) (n.base.replayNs k.val) })))

/-! ### Bonds -/

/-- Streams. A segment for another module goes on by its route, and one for this module is taken by its type (R270, R271, R274); SYNC and
CACK rows are segments of their type (R275, R276, R278). With the bond off none is acted on; a flit that no stream takes is one cell at
the crossbar's tap (log 39). A CACK goes out 1 us after an acceptance
that none covers (R275), held segments are sent again after resend_us (R276), and a stream whose oldest has been held for 1 ms fails
(R277). -/
def Obligations.StreamCommands : Prop :=
  ∀ (s : State) (m : Mod) (k : Fin 8) (seg : Segment) (path : Fin 4096) (cls : SegClass),
    (s.coreIs m → m.base.isSet Reg.BND_CFG F.BND_CFG_enable = false →
      exec (.segmentReceive k seg) s = .next (s.ends (m.flitIn1 k.val seg)) ∧
      exec (.sync k seg) s = .next (s.ends (m.flitIn1 k.val { seg with stype := .sync })) ∧
      exec (.cackReceive k seg) s = .next (s.ends (m.flitIn1 k.val { seg with stype := .cack }))) ∧
    (s.coreIs m → m.base.isSet Reg.BND_CFG F.BND_CFG_enable = true → seg.dstPath ≠ m.base.path →
      exec (.segmentReceive k seg) s = .next (s.ends (m.transit k.val seg)) ∧
      exec (.sync k seg) s = .next (s.ends (m.transit k.val { seg with stype := .sync })) ∧
      exec (.cackReceive k seg) s = .next (s.ends (m.transit k.val { seg with stype := .cack }))) ∧
    (s.coreIs m → m.base.isSet Reg.BND_CFG F.BND_CFG_enable = true → seg.dstPath = m.base.path →
      (seg.stype = .data ∨ seg.stype = .msg → exec (.segmentReceive k seg) s = .next (s.ends (m.sequencedIn k.val seg))) ∧
      (seg.stype = .key → exec (.segmentReceive k seg) s = .next (s.ends ((m.flitIn1 k.val seg).keyIn seg.data))) ∧
      (seg.stype = .other → exec (.segmentReceive k seg) s = .next (s.ends (m.flitIn1 k.val seg))) ∧
      exec (.sync k seg) s = .next (s.ends ((m.flitIn1 k.val { seg with stype := .sync }).syncIn { seg with stype := .sync })) ∧
      exec (.cackReceive k seg) s = .next (s.ends
        ((m.flitIn1 k.val { seg with stype := .cack }).cackIn seg.srcPath seg.cls seg.cseq))) ∧
    (s.coreDue (.cackDelay path.val cls) m → exec (.cackDelayExpiry path cls) s = .next (s.ends (m.sendCack path.val cls))) ∧
    (s.coreDue (.resend path.val cls) m →
      (∀ o : OutStream, m.bnd.out path.val cls = some o → o.held ≠ [] →
        exec (.resendIntervalExpiry path cls) s = .next (s.ends (m.repin o))) ∧
      (m.bnd.out path.val cls = none → exec (.resendIntervalExpiry path cls) s = .next (s.ends m))) ∧
    (s.coreDue (.stream path.val cls) m →
      (∀ o : OutStream, m.bnd.out path.val cls = some o → o.held ≠ [] →
        exec (.streamTimeout path cls) s = .next (s.ends (m.failStream o))) ∧
      (m.bnd.out path.val cls = none → exec (.streamTimeout path cls) s = .next (s.ends m)))

/-- Keystones. In an election a candidate with the lower key of priority and serial number leads, and a newer term is taken up with the
lower of its key and the module's own (R280). A keystone that hears another's heartbeat reports the split and follows a newer term, or at
its own term a lower key (R283). An acknowledgment from no member changes nothing; one that asks for M2 makes its member ASLEEP once nothing is held
for it (R281, R284). The keystone's beat goes out and routes are
computed; the end of the collection makes the candidate that leads keystone, or awaits it; the loss of the keystone starts an election
(R280). A member that the keystone lost is marked by every other (R281); an orphan not fetched in time is discarded with its event (R292). -/
def Obligations.KeystoneCommands : Prop :=
  ∀ (s : State) (m : Mod) (i : Fin 4) (term : Fin 65536) (prio : Byte) (serial : W64) (path : Fin 4096),
    (let key := (prio.toNat, serial.toNat)
     let n := m.hearTerm i.val term.val
     s.coreIs m → m.base.bondOn = true → i.val < m.base.depth →
      (n.base.electing i.val = true → n.base.armed (.collect i.val) = true →
        let e := n.elect i.val
        (term.val = m.base.term i.val →
          (keyLess key (e.prio, e.serial) = true → exec (.candidate i term prio serial path) s = .next (s.ends
            (n.setElect { e with prio := key.1, serial := key.2, path := path.val }))) ∧
          (keyLess key (e.prio, e.serial) = false → exec (.candidate i term prio serial path) s = .next (s.ends n))) ∧
        (term.val ≠ m.base.term i.val → newer 16 term.val (m.base.term i.val) = true →
          let x : Mod := { n with base := n.base.wr (Reg.BND_KEYSTONE i.val) F.BND_KEYSTONE_term term.val }
          (keyLess key n.base.ownKey = true → exec (.candidate i term prio serial path) s = .next (s.ends
            (x.setElect { e with prio := key.1, serial := key.2, path := path.val }))) ∧
          (keyLess key n.base.ownKey = false → exec (.candidate i term prio serial path) s = .next (s.ends
            (x.setElect { e with prio := n.base.ownKey.1, serial := n.base.ownKey.2, path := x.base.path }))))) ∧
      (n.base.electing i.val = false ∨ n.base.armed (.collect i.val) = false → exec (.candidate i term prio serial path) s = .next (s.ends n)) ∧
      (n.base.ksSelf i.val = true → path.val ≠ m.base.path →
        let x : Mod := { n with base := n.base.raise { group := 12, bit := 3, sev := 1, detail := i.val + 1 } }
        ((newer 16 term.val (m.base.term i.val) || (term.val == m.base.term i.val && keyLess key x.base.ownKey)) = true →
          exec (.heartbeat i term prio serial path) s = .next (s.ends (x.follow i.val term.val key path.val))) ∧
        ((newer 16 term.val (m.base.term i.val) || (term.val == m.base.term i.val && keyLess key x.base.ownKey)) = false →
          exec (.heartbeat i term prio serial path) s = .next (s.ends x))) ∧
      (n.base.ksSelf i.val = false → path.val ≠ m.base.path → term.val = m.base.term i.val → n.base.electing i.val = true →
        exec (.heartbeat i term prio serial path) s = .next (s.ends (n.follow i.val term.val key path.val)))) ∧
    (∀ a : HbAck, s.coreIs m → m.base.memberIndex a.path = none → exec (.heartbeatAck i a) s = .next (s.ends m)) ∧
    (∀ (a : HbAck) (idx : Nat), s.coreIs m → m.base.memberIndex a.path = some idx → m.base.ksSelf i.val = true →
      m.base.inBond i.val a.path = true → m.base.memberState a.path = 1 → idx / 8 = i.val →
      let x := (m.bnd.members.find? (fun y => y.level == i.val && y.path == a.path)).getD { level := i.val, path := a.path }
      let n : Mod := { m with bnd := { m.bnd with members := m.bnd.members.filter (fun y => !(y.level == i.val && y.path == a.path)) ++
                                         [{ x with misses := 0, ports := a.ports, kept := [], busy := a.busy }] } }
      let n := (n.record i.val idx 1).computeRoutes i.val
      ((a.m2Request && n.maySleep a.path) = false → exec (.heartbeatAck i a) s = .next (s.ends n)) ∧
      ((a.m2Request && n.maySleep a.path) = true → exec (.heartbeatAck i a) s = .next (s.ends (n.record i.val idx 2)))) ∧
    (s.coreDue (.heartbeat i.val) m →
      (m.base.ksSelf i.val = true → exec (.heartbeatTimer i) s = .next (s.ends ((m.beat i.val).computeRoutes i.val))) ∧
      (m.base.ksSelf i.val = false → exec (.heartbeatTimer i) s = .next (s.ends m))) ∧
    (s.coreDue (.collect i.val) m → m.base.electing i.val = true →
      ((m.elect i.val).path = m.base.path → exec (.electionCollectExpiry i) s = .next (s.ends (m.becomeKeystone i.val))) ∧
      ((m.elect i.val).path ≠ m.base.path → exec (.electionCollectExpiry i) s = .next (s.ends
        { m with base := m.base.arm (.ksLoss i.val) m.base.hbNs }))) ∧
    (s.coreDue (.ksLoss i.val) m → exec (.keystoneLossTimeout i) s = .next (s.ends (m.startElection i.val))) ∧
    (∀ idx : Nat, s.coreIs m → m.base.memberIndex path.val = some idx → m.base.bondOn = true → m.base.memberState path.val = 1 →
      (m.base.ksSelf (idx / 8) = false → exec (.memberLost path) s = .next (s.ends (m.setMember idx 3))) ∧
      (m.base.ksSelf (idx / 8) = true →
        m.bnd.members.any (fun x => x.level == idx / 8 && x.path == path.val && decide (3 ≤ x.misses)) = true →
        exec (.memberLost path) s = .next (s.ends
          ((({ m with bnd := { m.bnd with members := m.bnd.members.map (fun x =>
              if x.level == idx / 8 && x.path == path.val then { x with ports := [], kept := [], routes := [] } else x) } }
            : Mod).record (idx / 8) idx 3).computeRoutes (idx / 8))))) ∧
    (∀ (e : Nat) (g : Guest), s.coreDue (.orphan e) m →
      m.prk.guests.find? (fun g => guestKey g.owner g.idx == e && g.orphan && !g.sent) = some g →
      exec (.orphanExpiry e) s = .next (s.ends
        { m with base := m.base.raise { group := 12, bit := 9, detail := g.idx, detail2 := g.owner },
                 prk := { m.prk with guests := m.prk.guests.filter (fun x => x != g) } }))

/-- Messages. About a shelf lent to this module: ALERT raises the upstream port's advisory event, LINK_STATE sets the virtual link and
POWER_GOOD the register (R214, R285, R289); one about another shelf changes nothing. RESET_REQ from the borrower acts as Secondary Bus
Reset does (R216). WAKE_REQ at the keystone sends every neighbour of the sleeper an order (R284). ERR_REPORT is counted, raised, and logged
if nothing is (R290, R304). PARK says what became of an entry at another member (R32, R98, R292). LEND_REQ is done, refused, waits for a
settle, or is none of this module's (R285, R286); the settle ends with the owner's entries gone (R285). -/
def Obligations.MessageCommands : Prop :=
  ∀ (s : State) (m : Mod) (src : Fin 4096) (port : Fin 64),
    (∀ l : Lend, s.coreDue .unlendSettle m → m.bnd.lends = [l] → l.ending = true →
      let n := m.writeAt l.req.ownerPath (Reg.BND_PORT_LEND l.port) 0
      let n := (l.ownerEntries.foldl (fun m e => m.writeAt l.req.ownerPath (rtOff e 0) 0) n).lendAnswer l.req false
      n.bnd.lendWait = [] → n.bnd.lends = [l] →
      exec .unlendSettleExpiry s = .next (s.ends { n with bnd := { n.bnd with lends := [], lendWait := [] } })) ∧
    (s.coreIs m → m.base.lentAs src.val port.val = none →
      (∀ level : Bool, exec (.alert src port level) s = .next (s.ends m)) ∧
      (∀ a b c : Bool, exec (.linkState src port a b c) s = .next (s.ends m)) ∧
      (∀ pg : Bool, exec (.powerGood src port pg) s = .next (s.ends m))) ∧
    (∀ v : Nat, s.coreIs m → m.base.lentAs src.val port.val = some v →
      (∀ level : Bool,
        let up := (m.base.upstreamPort (v / 32)).getD 0
        exec (.alert src port level) s = .next (s.ends
          { m with base := m.base.raise { group := 8 + up / 32, bit := up % 32, cause := 4, scope := .part (v / 32),
                                          detail := b2n level + 2 * (v % 32) + 2 ^ 6 * (v / 32) } })) ∧
      (∀ a b c : Bool, exec (.linkState src port a b c) s = .next (s.ends
        { m with base := m.base.virtualLink (88 + v) (v / 32) a (a && !b && !c) false })) ∧
      (∀ pg : Bool, exec (.powerGood src port pg) s = .next (s.ends { m with base := m.base.flag (Reg.BND_LEND v) F.BND_LEND_pg pg }))) ∧
    (∀ set : Bool, s.coreIs m →
      let a := Reg.BND_PORT_LEND port.val
      ((m.base.isSet a F.BND_PORT_LEND_valid && m.base.rd a F.BND_PORT_LEND_borrower_path == src.val) = true →
        exec (.resetReq src port set) s = .next (s.ends (m.busReset port.val set))) ∧
      ((m.base.isSet a F.BND_PORT_LEND_valid && m.base.rd a F.BND_PORT_LEND_borrower_path == src.val) = false →
        exec (.resetReq src port set) s = .next (s.ends m))) ∧
    (∀ sleeper : Fin 4096, s.coreIs m →
      (m.base.anyKeystone = false → exec (.wakeReq src sleeper) s = .next (s.ends m)) ∧
      (m.base.anyKeystone = true → m.base.memberState sleeper.val = 2 →
        let near := ((m.bnd.members.filter (fun x => x.path != sleeper.val && x.ports.any (fun r => r.partner == sleeper.val))).map
          Member.path).eraseDups
        exec (.wakeReq src sleeper) s = .next (s.ends
          (near.foldl (fun m p => m.toBond { dstPath := p, stype := .msg, data := leBytes 4 (5 + 2 ^ 8) ++ leBytes 4 sleeper.val })
            (m.wakeOrder sleeper.val))))) ∧
    (∀ (cause : Fin 16) (origin : Fin 128) (header : List W32), s.coreIs m →
      let b := (m.base.bump (Reg.BND_CNT 14)).raise
        { group := 12, bit := 5, detail := src.val + 2 ^ 12 * cause.val + 2 ^ 16 * origin.val }
      let a := Reg.BND_FAR_INFO
      (b.isSet a F.BND_FAR_INFO_valid = true →
        exec (.errReport src cause origin header) s = .next (s.ends { m with base := b.wr a F.BND_FAR_INFO_more 1 })) ∧
      (b.isSet a F.BND_FAR_INFO_valid = false →
        exec (.errReport src cause origin header) s = .next (s.ends
          { m with base := (List.range 4).foldl (fun b i => b.setWord (Reg.BND_FAR_LOG i) (BitVec.ofNat 32 ((header.map BitVec.toNat).getD i 0)))
                     (b.setWord a (BitVec.ofNat 32 (src.val + 2 ^ 12 * cause.val + 2 ^ 16 * origin.val + 2 ^ 31))) }))) ∧
    (∀ i : Nat, s.coreIs m →
      exec (.park src (.free i)) s = .next (s.ends ((m.guestFree src.val i).remoteFree src.val i)) ∧
      exec (.park src (.again i)) s = .next (s.ends (m.againIn src.val i)) ∧
      (∀ st bytes detail : Nat, exec (.park src (.outcome i st bytes detail)) s = .next (s.ends (m.remoteOutcome i st bytes detail))) ∧
      exec (.park src (.evict i)) s = .next (s.ends (m.peerLost i)) ∧
      exec (.park src .handBackDone) s = .next (s.ends (m.backDone src.val)) ∧
      (∀ raw : List Byte, exec (.park src (.handBack i raw)) s = .next (s.ends (m.backArrive src.val i raw))) ∧
      (m.prk.entry i = none → exec (.park src (.refuse i)) s = .next (s.ends m)) ∧
      (∀ e : Entry, m.prk.entry i = some e →
        (e.remoteTo.isSome = true → exec (.park src (.refuse i)) s = .next (s.ends (m.finishIdx i 0x27))) ∧
        (e.remoteTo.isSome = false → exec (.park src (.refuse i)) s = .next (s.ends (m.peerNo i))))) ∧
    (∀ r : LendReq, s.coreIs m →
      (m.base.anyKeystone = false → exec (.lendReq r) s = .next (s.ends m)) ∧
      (m.base.anyKeystone = true →
        (m.base.armed .unlendSettle = true → exec (.lendReq r) s = .next (s.ends
          { m with bnd := { m.bnd with lendWait := m.bnd.lendWait ++ [r] } })) ∧
        (m.base.armed .unlendSettle = false →
          (r.unlend = true → exec (.lendReq r) s = .next (s.ends (m.startUnlend r))) ∧
          (r.unlend = false → m.lendRefused r = true → exec (.lendReq r) s = .next (s.ends (m.lendAnswer r true))) ∧
          (r.unlend = false → m.lendRefused r = false → exec (.lendReq r) s = .next (s.ends (m.doLend r))))))

/-! ### Recovery and counters -/

/-- Recovery. A storm that is over is heard again (R302). A watchdog restarts its engine or core, counts the recovery and raises its event,
and the third in time holds the unit, the last core's being fatal (R308, R309). An access that the register watchdog ends is counted,
raised and answered as an error (R308, R327). A count that passes 2^48 - 1 wraps (R61, R317); a sample point is taken (R319, R320). -/
def Obligations.RecoveryCommands : Prop :=
  ∀ (s : State) (m : Mod),
    (∀ g i : Fin 32, s.dieIs m →
      ((m.base.storm g.val i.val).suppressed = true → exec (.eventStormEnd g i) s = .next (s.ends
        { m with base := ({ m.base with now := max m.base.now ((m.base.storm g.val i.val).last + m.base.stormWindow) } : Base).setStorm
                   { (m.base.storm g.val i.val) with suppressed := false } })) ∧
      ((m.base.storm g.val i.val).suppressed = false → exec (.eventStormEnd g i) s = .next (s.ends m))) ∧
    (∀ p : Fin 8, s.coreIs m → m.engineRuns p.val = true → m.qe.turns.any (fun t => t.part == p.val) = false → m.queueWork p.val = true →
      let n := m.restartQueueEngine p.val
      let r := recoverUnit n.qe.recovered p.val n.base.now
      let b := n.base.raise { group := 0, bit := 3, sev := 1 }
      (r.2 = false → exec (.queueEngineWatchdog p) s = .next (s.ends
        { n with base := b, qe := { n.qe with recovered := r.1 } })) ∧
      (r.2 = true → exec (.queueEngineWatchdog p) s = .next (s.ends
        { n with base := b.raise { group := 0, bit := 5, sev := 1 },
                 qe := { n.qe with recovered := r.1, engineHeld := n.qe.engineHeld ++ [p.val] } }))) ∧
    (∀ e : Fin 4, s.coreIs m → m.prk.entries.any (fun x => engineOf x.shelf == e.val && (x.state == 1 || x.state == 6)) = true →
      m.tags = [] → m.sw.waiting.any (fun f => f.src == 64 + e.val) = false → m.ingestPaused = false → m.pl.parkHeld.contains e.val = false → m.pl.m2 = 0 →
      let n := m.restartParkEngine e.val
      let r := recoverUnit n.pl.parkRec e.val n.base.now
      (r.2 = false → exec (.parkEngineWatchdog e) s = .next (s.ends
        { n with base := n.base.raise { group := 0, bit := 4, sev := 1 }, pl := { n.pl with parkRec := r.1 } })) ∧
      (r.2 = true → exec (.parkEngineWatchdog e) s = .next (s.ends
        (((List.range 56).filter (fun n => n % 4 == e.val)).foldl (fun m n => m.failSlot n)
          { n with base := (n.base.raise { group := 0, bit := 4, sev := 1 }).raise { group := 0, bit := 5, sev := 1 },
                   pl := { n.pl with parkRec := r.1, parkHeld := n.pl.parkHeld ++ [e.val] } })))) ∧
    (∀ c : Fin 4, s.coreIs m → m.pl.coreHeld.contains c.val = false →
      let r := recoverUnit m.pl.cores c.val m.base.now
      let b := m.base.raise { group := 0, bit := 2, sev := 1 }
      (r.2 = false → exec (.mgmtCoreWatchdog c) s = .next (s.ends { m with base := b, pl := { m.pl with cores := r.1 } })) ∧
      (r.2 = true → m.pl.coreHeld.length < 3 → exec (.mgmtCoreWatchdog c) s = .next (s.ends
        { m with base := b.raise { group := 0, bit := 5, sev := 1 }, pl := { m.pl with cores := r.1, coreHeld := m.pl.coreHeld ++ [c.val] } })) ∧
      (r.2 = true → 3 ≤ m.pl.coreHeld.length → exec (.mgmtCoreWatchdog c) s = .next (s.ends
        { m with base := (b.raise { group := 0, bit := 5, sev := 1 }).raise { group := 0, bit := 9, sev := 2 },
                 pl := { m.pl with cores := r.1, coreHeld := m.pl.coreHeld ++ [c.val] } }))) ∧
    (∀ (w : Who) (off : Nat) (wr : Bool), s.dieIs m → exec (.csrWatchdogExpiry w off wr) s = .next (s.ends
      (({ m with base := ((({ m.base with hung := m.base.hung.erase (w, off, wr) } : Base).bump Reg.CLK_WDOG_CNT).raise
                 { group := 0, bit := 6 }).answerError w wr } : Mod).agentHung w off wr))) ∧
    (∀ (off incr : Nat) (h : RegHit), s.dieIs m → regAt off = some h → isCounter h.row.name = true → h.word = 0 →
      (2 ^ 48 ≤ m.base.rd off F.CNT_count + incr → exec (.counterWrap off incr) s = .next (s.ends
        { m with base := m.base.addCount off incr (wrapOf off) })) ∧
      (m.base.rd off F.CNT_count + incr < 2 ^ 48 → exec (.counterWrap off incr) s = .next (s.ends m))) ∧
    (∀ off : Nat, s.dieIs m →
      (∀ i : Nat, pmcAt off = some i → exec (.samplePoint off) s = .next (s.ends { m with base := m.base.pmcSample i })) ∧
      (∀ i v : Nat, pmcAt off = none → vcAt off = some (i, v) →
        exec (.samplePoint off) s = .next (s.ends { m with base := m.base.vcSample i v })))

/-! ### Reset, boot and M2 -/

/-- The end of a take-down (R298, R329, R330, R343, R359): every power request ends, and the load goes off, or the die boots cold or
warm, a third escalation within the hour being HALTED. A block reset shows that it is done (R331); an update that the management cores run
ends with its result, and a read of its file that is still out ends for nobody (R334, log 47); a calibration save that is over has its copy in use (R335). A lock that is lost is fatal (R298, R324). -/
def Obligations.ResetCommands : Prop :=
  ∀ (s : State) (m : Mod),
    (∀ t : TakeDown, s.plinthDue .takedown m → m.pl.take = some t →
      let n : Mod := { m with prk := { m.prk with slots := m.prk.slots.map (fun (x : Slot) => { x with pwrreq := false }) } }
      (t.off = 2 → exec .resetTakedownExpiry s = .next (s.ends
        { (n.dieOff 4 6) with base := (n.dieOff 4 6).base.gateOff })) ∧
      (t.off = 1 → exec .resetTakedownExpiry s = .next (s.ends
        { (n.dieOff 6 6) with base := (n.dieOff 6 6).base.gateOff })) ∧
      (t.off = 0 → t.cold = true → (t.fatal = false ∨ t.cause ≠ 5) → exec .resetTakedownExpiry s = .next (s.ends
        { (n.bootDie false false t.cause) with pl := { (n.bootDie false false t.cause).pl with lastFatal := none } })) ∧
      (t.off = 0 → t.cold = true → t.fatal = true → t.cause = 5 →
        let l := m.pl.escalations.filter (fun x => decide (m.base.now < x + hour)) ++ [m.base.now]
        let n : Mod := { n with pl := { m.pl with escalations := l } }
        (3 ≤ l.length → exec .resetTakedownExpiry s = .next (s.ends n.goHalted)) ∧
        (l.length < 3 → exec .resetTakedownExpiry s = .next (s.ends
          { (n.bootDie false false 5) with pl := { (n.bootDie false false 5).pl with lastFatal := none } }))) ∧
      (t.off = 0 → t.cold = false → exec .resetTakedownExpiry s = .next (s.ends
        (let x := n.bootDie true n.mayKeep t.cause
         { x with pl := { x.pl with lastFatal := if t.fatal then some x.base.now else none } })))) ∧
    (s.coreDue .blockReset m → exec .blockResetDone s = .next (s.ends
      { m with base := m.base.wr Reg.CLK_BLK_RESET F.CLK_BLK_RESET_done 1 })) ∧
    (∀ (x : ImgRun) (result : Fin 16), s.dieIs m → m.pl.img = some x →
      let n : Mod := { m with tags := m.tags.map (fun t => if t.owner == some .image then { t with owner := some .drained } else t) }
      (x.smbus = true → exec (.imageUpdateDone result) s = .next (s.ends m)) ∧
      (x.smbus = false → result.val ≠ 0 → exec (.imageUpdateDone result) s = .next (s.ends
        { n with base := (m.base.wr Reg.CLK_IMG_CTL F.CLK_IMG_CTL_done 1).wr Reg.CLK_IMG_CTL F.CLK_IMG_CTL_result result.val,
                 pl := { m.pl with img := none } })) ∧
      (x.smbus = false → x.kind = 0 → exec (.imageUpdateDone 0) s = .next (s.ends
        (let b := (m.base.wr Reg.CLK_IMG_CTL F.CLK_IMG_CTL_done 1).wr Reg.CLK_IMG_CTL F.CLK_IMG_CTL_result 0
         let v := b.rd Reg.CLK_IMG_STATUS F.CLK_IMG_STATUS_fw_valid
         ({ n with pl := { m.pl with img := none, fwAct := 1 - m.pl.fwAct },
                   base := b.wr Reg.CLK_IMG_STATUS F.CLK_IMG_STATUS_fw_valid (putBits v ⟨1 - m.pl.fwAct, 1⟩ 1) } : Mod).showMirrors)))) ∧
    (s.plinthDue .calSave m → m.base.isSet Reg.CLK_CAL_STATUS F.CLK_CAL_STATUS_busy = true →
      exec .calSaveDone s = .next (s.ends
        ({ m with base := (m.base.wr Reg.CLK_CAL_STATUS F.CLK_CAL_STATUS_busy 0).raise { group := 2, bit := 3 },
                  pl := { m.pl with cal := { good := true, words := m.pl.calCopy }, calSaved := true, calCopy := [] } } : Mod).showMirrors)) ∧
    (s.dieIs m →
      (m.base.isSet Reg.CLK_STATUS F.CLK_STATUS_core_lock = true → exec .corePllLoss s = .next (s.ends
        { m with base := (m.base.wr Reg.CLK_STATUS F.CLK_STATUS_core_lock 0).raise { group := 2, bit := 0, sev := 2 } })) ∧
      (m.base.isSet Reg.CLK_STATUS F.CLK_STATUS_dram_lock = true → exec .dramClockLoss s = .next (s.ends
        { m with base := (m.base.wr Reg.CLK_STATUS F.CLK_STATUS_dram_lock 0).raise { group := 2, bit := 1, sev := 2 } })))

/-- The boot (R332, R333). A firmware check goes on with the active slot or the other, to IMAGE, or to LC_HOLD by the lifecycle, and is
fatal with neither; an image check loads its image; trained channels lead to WIPE, and one that did not train is fatal (R385); the wipe's
end is READY, with its events, and with kept entries or empty memory (R100, R340). -/
def Obligations.BootCommands : Prop :=
  ∀ (s : State) (m : Mod), s.dieIs m → m.pl.take = none →
    (∀ c : SlotCheck, m.base.stage = 1 →
      let b := m.base.wr Reg.CLK_IMG_STATUS F.CLK_IMG_STATUS_fw_valid (b2n c.valid0 + 2 * b2n c.valid1)
      (pickSlot c m.pl.fwAct = none → exec (.firmwareCheckDone c) s = .next (s.ends
        { m with base := ({ b with now := max b.now (m.pl.bootAt + 24 * ms) } : Base).raise { group := 2, bit := 2, sev := 2 } })) ∧
      (∀ other : Bool, pickSlot c m.pl.fwAct = some other → exec (.firmwareCheckDone c) s = .next (s.ends
        { m with base := (({ b with now := max b.now (m.pl.bootAt + (if other then 24 else 12) * ms) } : Base).flag
                   Reg.CLK_IMG_STATUS F.CLK_IMG_STATUS_fw_fallback other).setStage (if m.pl.lc = 0 || m.pl.lc = 3 then 7 else 2) }))) ∧
    (∀ x : ImageLoad, m.base.stage = 2 →
      let b := m.base.wr Reg.CLK_IMG_STATUS F.CLK_IMG_STATUS_img_valid (b2n x.check.valid0 + 2 * b2n x.check.valid1)
      (pickSlot x.check m.pl.imgAct = none → exec (.imageCheckDone x) s = .next (s.ends
        { m with base := ({ b with now := max b.now (m.pl.bootAt + 30 * ms + b.bootSlip) } : Base).raise { group := 2, bit := 2, sev := 2 } })) ∧
      (∀ other : Bool, pickSlot x.check m.pl.imgAct = some other →
        let c := b.flag Reg.CLK_IMG_STATUS F.CLK_IMG_STATUS_img_fallback other
        let n := ({ m with base := { c with now := max c.now (m.pl.bootAt + 18 * ms + c.bootSlip) } } : Mod).loadImage x
        exec (.imageCheckDone x) s = .next (s.ends { n with base := n.base.setStage 3 }))) ∧
    (∀ ok : List Bool, m.base.stage = 4 →
      let small := m.base.rd Reg.GLB_PRODUCT_ID F.GLB_PRODUCT_ID_order_code == 2
      let b := (List.range 8).foldl (fun (b : Base) c =>
        let a := Reg.MEM_CH_STATUS c
        (((b.wr a F.MEM_CH_STATUS_dimm0 1).flag a F.MEM_CH_STATUS_dimm1 (!small)).wr a F.MEM_CH_STATUS_gib (if small then 128 else 256)).flag
          a F.MEM_CH_STATUS_trained (ok.getD c true)) { m.base with now := max m.base.now (m.pl.bootAt + 320 * ms + m.base.bootSlip) }
      let bad := (List.range 8).filter (fun c => !ok.getD c true)
      (bad = [] → exec (.dramTrainingDone ok) s = .next (s.ends { m with base := b.setStage 5 })) ∧
      (bad ≠ [] → exec (.dramTrainingDone ok) s = .next (s.ends (bad.foldl (fun m c => m.channelFail c) { m with base := b })))) ∧
    (m.base.stage = 5 → m.pl.dipEvent = none →
      let b := (List.range 8).foldl (fun (b : Base) c => b.wr (Reg.MEM_CH_STATUS c) F.MEM_CH_STATUS_self_refresh 0) (m.base.setStage 6)
      let b := if m.pl.keep then b else b.raise { group := 2, bit := 6 }
      let b := if m.pl.warm then b.raise { group := 2, bit := 5 } else b
      let n : Mod := { m with base := b, pl := { m.pl with dipEvent := none, keep := false } }
      (b.rd Reg.CLK_STATUS F.CLK_STATUS_kept = 1 → exec .wipeDone s = .next (s.ends
        { n.keepEntries with prk := { n.keepEntries.prk with planDue := true } })) ∧
      (b.rd Reg.CLK_STATUS F.CLK_STATUS_kept ≠ 1 → exec .wipeDone s = .next (s.ends
        { n with dram := {}, prk := { n.prk with entries := [], guests := [], planDue := true } }))) ∧
    (m.base.stage ≠ 5 → exec .wipeDone s = .next (s.ends m))

/-- M2 (R34, R35, R341). An entry needs every condition and, in a bond, the keystone's acknowledgment: then the hods hold, reservations are
lost, merge lines drain, the event goes out, Camtex ports say sleep and the wake timer is set. The timer at CLK_WAKE_AT, a host that starts
training, the held port's leaving L1.2 and the SMBus command wake the module: before 20 us it gives the entry up, later the exit follows. -/
def Obligations.SleepAndWakeCommands : Prop :=
  ∀ (s : State) (m : Mod),
    (s.coreIs m →
      (m.m2May = false → exec .m2Entry s = .next (s.ends m)) ∧
      (m.m2May = true → m.base.m2Acked = false → exec .m2Entry s = .next (s.ends { m with bnd := { m.bnd with m2ask := true } })) ∧
      (m.m2May = true → m.base.m2Acked = true →
        let n : Mod := { m with hod := { m.hod with m2hold := true }, pl := { m.pl with m2 := 1, m2At := m.base.now, m2Wake := none } }
        let n := (List.range 16).foldl (fun (m : Mod) h => m.showHod h) (n.loseRsv (fun _ => true) 4).drainAll
        let n : Mod := { n with base := n.base.raise { group := 2, bit := 7 } }
        let n := n.cams.foldl (fun m c => m.camSleep c.k) n
        exec .m2Entry s = .next (s.ends { n with base := n.base.setWord64 Reg.CLK_WAKE_AT n.base.wakeAt }))) ∧
    (s.dieIs m →
      (m.base.word64 Reg.CLK_WAKE_AT = 0 → exec .wakeTimer s = .next (s.ends m)) ∧
      (m.base.word64 Reg.CLK_WAKE_AT ≠ 0 → m.pl.m2 ≠ 0 → exec .wakeTimer s = .next (s.ends
        (({ m with base := { m.base with now := max m.base.now (cdiv (m.base.word64 Reg.CLK_WAKE_AT * sec) 32768) } } : Mod).m2Due.wakeEvent
          3))) ∧
      (m.base.heldPort = none → exec .heldPortLeaveL12 s = .next (s.ends m)) ∧
      (∀ p : Nat, m.base.heldPort = some p →
        let n := m.wakeEvent 1
        (n.base.rd (Reg.PRT_STATUS p) F.PRT_STATUS_pm = 3 → exec .heldPortLeaveL12 s = .next (s.ends
          { n with base := (n.base.wr (Reg.PRT_STATUS p) F.PRT_STATUS_pm 0).restartL1 p })) ∧
        (n.base.rd (Reg.PRT_STATUS p) F.PRT_STATUS_pm ≠ 3 → exec .heldPortLeaveL12 s = .next (s.ends n))) ∧
      (∀ p : Fin 64, m.base.portRole p.val = 1 → (m.base.heldPort == some p.val) = false →
        let n := m.wakeEvent 2
        (n.base.linkUp p.val = false → exec (.hostTrainingStart p) s = .next (s.ends
          { n with base := n.base.trainPort p.val })) ∧
        (n.base.linkUp p.val = true → exec (.hostTrainingStart p) s = .next (s.ends n)))) ∧
    (s.powerIs m →
      (m.pl.m2 = 0 → exec (.wake true) s = .next (s.ends m)) ∧
      (m.pl.m2 = 2 → exec (.wake true) s = .next (s.ends (m.m2Exit 4))) ∧
      (m.pl.m2 = 1 → m.base.now < m.pl.m2At + 20 * us → exec (.wake true) s = .next (s.ends
        { m.m2Resume with base := m.m2Resume.base.raise { group := 2, bit := 9 } })) ∧
      (m.pl.m2 = 1 → m.pl.m2At + 20 * us ≤ m.base.now → exec (.wake true) s = .next (s.ends
        { m with pl := { m.pl with m2Wake := some (m.pl.m2Wake.getD 4) } })))

/-! ### The power front end -/

/-- Starting and stopping the load (R343 to R355, R360). Plinth power restores the energy count, and starts a pending retry anew; the end of the
debounce and of the input's qualification are conditions of power-up; a full gate leads to qualification, and its end to the boot; a timer
that ends before is a fault, as is a limit that stays, a blown fuse, and an input too high; an input too low, or presence lost, turns the
load off with no fault; 20 us later the gate is off; a retry starts power-up, or the front end is locked; the plinth's loss of power
leaves what is stored. -/
def Obligations.LoadCommands : Prop :=
  ∀ (s : State) (m : Mod),
    (s.mod.pl.powered = false →
      let n := s.mod.begun
      let b := n.base.setWord64 Reg.PWR_ENERGY n.pl.energySaved
      (b.isSet Reg.PWR_STATUS F.PWR_STATUS_retry_pending = false → exec .plinthPowerUp s = .next (s.ends
        ({ n with base := b, pl := { n.pl with powered := true } } : Mod).showMirrors)) ∧
      (b.isSet Reg.PWR_STATUS F.PWR_STATUS_retry_pending = true → exec .plinthPowerUp s = .next (s.ends
        ({ n with base := (b.setFe 4).arm .retry (10 * sec), pl := { n.pl with powered := true } } : Mod).showMirrors))) ∧
    (s.powerIs m → exec .plinthPowerUp s = .next (s.ends m)) ∧
    (s.plinthDue .debounce m → exec .insertionDebounceExpiry s = .next (s.ends
      ({ m with pl := { m.pl with debounced := true } } : Mod).tryPowerUp)) ∧
    (s.plinthDue .inputQual m → exec .inputQualified s = .next (s.ends
      ({ m with pl := { m.pl with qualified := true } } : Mod).tryPowerUp)) ∧
    (∀ d : Nat, s.powerIs m → m.base.feState = 1 → m.base.due .inrush = some d →
      let b : Base := { m.base with now := max m.base.now (d - 60 * ms + m.base.rd Reg.PWR_MEAS_V F.PWR_MEAS_V_v * 1100) }
      let b := ((b.setFe 2).wr Reg.PWR_STATUS F.PWR_STATUS_gate_full 1).wr Reg.PWR_STATUS F.PWR_STATUS_limit 0
      exec .gateFullyEnhanced s = .next (s.ends { m with base := (b.disarm .inrush).arm .pgQual (2 * ms) })) ∧
    (∀ (cal : CalLoad) (t : Nat), s.powerIs m → m.base.due .pgQual = some t → m.base.feState = 2 →
      m.base.isSet Reg.PWR_STATUS F.PWR_STATUS_limit = false →
      let b := ((({ m.base with now := max m.base.now t } : Base).disarm .pgQual).wr Reg.PWR_STATUS F.PWR_STATUS_pg 1).setFe 3
      exec (.powerGoodQualified cal) s = .next (s.ends
        (({ m with base := b.arm .retryClear (60 * sec),
                   pl := { m.pl with cal := if m.pl.calSaved then { m.pl.cal with good := cal.good } else cal } } : Mod).bootDie
          false false m.pl.cause))) ∧
    (s.plinthDue .inrush m → m.base.feState = 1 → exec .inrushTimeout s = .next (s.ends
      (m.powerFault 2 m.base.sampleV 4 { group := 1, bit := 4, detail := 1 } true))) ∧
    (s.plinthDue .faultTimer m → m.base.gateOn = true → exec .faultTimerExpiry s = .next (s.ends
      (m.powerFault 1 m.base.sampleV 3 { group := 1, bit := 4 } false))) ∧
    (s.powerIs m → m.base.gateOn = true → exec .fuseTrip s = .next (s.ends
      (m.powerFault 3 m.base.sampleV 5 { group := 1, bit := 5 } true))) ∧
    (∀ v : Nat, s.powerIs m →
      (v ≤ m.base.ovV → exec (.overVoltageDetect v) s = .next (s.ends m)) ∧
      (m.base.ovV < v →
        let n : Mod := { m with base := (m.base.disarm .inputQual).wr Reg.PWR_STATUS F.PWR_STATUS_zone 3, pl := { m.pl with qualified := false } }
        n.base.gateOn = true → exec (.overVoltageDetect v) s = .next (s.ends (n.powerFault 4 v 6 { group := 1, bit := 6 } false))) ∧
      (m.base.resetV ≤ v → exec (.supplyResetDetect v) s = .next (s.ends m)) ∧
      (v < m.base.resetV → m.pl.dip = none →
        let n : Mod := { m with base := (m.base.disarm .inputQual).wr Reg.PWR_STATUS F.PWR_STATUS_zone 4, pl := { m.pl with qualified := false } }
        (n.base.gateOn = true → exec (.supplyResetDetect v) s = .next (s.ends (n.loadOff 0 1 false))) ∧
        (n.base.gateOn = false → exec (.supplyResetDetect v) s = .next (s.ends n)))) ∧
    (s.powerIs m →
      let a := Reg.PWR_STATUS
      let was := m.base.isSet a F.PWR_STATUS_present_a && m.base.isSet a F.PWR_STATUS_present_b
      ∀ x y : Bool,
      let n : Mod := { m with base := (m.base.flag a F.PWR_STATUS_present_a x).flag a F.PWR_STATUS_present_b y }
      (was = true → (x && y) = false →
        let n : Mod := { n with base := n.base.disarm .debounce, pl := { n.pl with debounced := false } }
        (n.base.gateOn = true → exec (.presenceChange x y) s = .next (s.ends (n.loadOff 0 6 false))) ∧
        (n.base.gateOn = false → exec (.presenceChange x y) s = .next (s.ends n))) ∧
      (was = false → (x && y) = true →
        let b := (n.base.wr Reg.PWR_RETRY F.PWR_RETRY_used 0).arm .debounce (100 * ms)
        exec (.presenceChange x y) s = .next (s.ends
          { n with base := if b.feState = 5 ∨ b.feState = 6 then b.setFe 0 else b, pl := { n.pl with debounced := false } })) ∧
      (was = (x && y) → exec (.presenceChange x y) s = .next (s.ends n))) ∧
    (s.plinthDue .gateOff m → exec .gateOffExpiry s = .next (s.ends ({ m with base := m.base.gateOff } : Mod).tryPowerUp)) ∧
    (s.plinthDue .retry m →
      let a := Reg.PWR_RETRY
      let b := m.base.wr Reg.PWR_STATUS F.PWR_STATUS_retry_pending 0
      (b.feState = 4 → b.rd a F.PWR_RETRY_count ≠ 0 → b.rd a F.PWR_RETRY_count ≤ b.rd a F.PWR_RETRY_used →
        exec .retryTimerExpiry s = .next (s.ends { m with base := b.setFe 5 })) ∧
      (b.feState = 4 → (b.rd a F.PWR_RETRY_count = 0 ∨ b.rd a F.PWR_RETRY_used < b.rd a F.PWR_RETRY_count) →
        exec .retryTimerExpiry s = .next (s.ends
          ({ m with base := ((b.wr a F.PWR_RETRY_used (b.rd a F.PWR_RETRY_used + 1)).bump (Reg.PWR_CNT 7)).setFe 0 } : Mod).tryPowerUp))) ∧
    (s.plinthDue .retryClear m → exec .retryCountClear s = .next (s.ends { m with base := m.base.wr Reg.PWR_RETRY F.PWR_RETRY_used 0 })) ∧
    (s.powerIs m →
      exec .auxLowSave s = .next (s.ends { m with pl := { m.pl with energySaved := m.base.word64 Reg.PWR_ENERGY } }) ∧
      (m.base.rd Reg.PWR_STATUS F.PWR_STATUS_retry_pending = 0 → exec .plinthPowerLoss s = .next (s.ends
        { base := { regs := m.base.regs.filter (fun x => [Reg.GLB_PRODUCT_ID, Reg.GLB_SERIAL, Reg.GLB_SERIAL + 4, Reg.PWR_RETRY,
                      Reg.PWR_FAULT, Reg.PWR_FAULT_TOD, Reg.PWR_FAULT_TOD + 4].contains x.1),
                    freeCtr := m.base.freeCtr, out := m.base.out },
          pl := { powered := false, lc := m.pl.lcNext.getD m.pl.lc, cal := m.pl.cal, calSaved := m.pl.calSaved, fwAct := m.pl.fwAct,
                  imgAct := m.pl.imgAct, energySaved := m.pl.energySaved } })))

/-- What the front end measures and watches (R346, R348, R351, R352, R357 to R360, R365, R366). A sample writes the four values and the energy,
and meets the zones; the end of a dip's wait undoes every shedding; the run-time limit counts its time, which 2 ms of rest clear; cages
fault, come and go, and leave reset; the temperature warns at most once a minute, and turns the load off when critical; a shelf's alert is
told to a borrower or raised. -/
def Obligations.FrontEndCommands : Prop :=
  ∀ (s : State) (m : Mod) (c : Fin 8),
    (∀ (x y v i t : Nat) (cages : List Nat), s.powerIs m → x < 65536 → y < 65536 →
      (∀ up, up < 2 → sensed (m.base.word Reg.PWR_CAL_V).toNat x up = some v) →
      (∀ up, up < 2 → sensed (m.base.word Reg.PWR_CAL_I).toNat y up = some i) →
      v * i % 10000 = 0 → v * i / 10000 < 65535 →
      let b := ({ m.base with now := (m.base.now / (100 * us) + 1) * (100 * us) } : Base).fresh.2.fresh.2
      let b := ((b.wr Reg.PWR_MEAS_V F.PWR_MEAS_V_v v).wr Reg.PWR_MEAS_I F.PWR_MEAS_I_i i).wr Reg.PWR_MEAS_P F.PWR_MEAS_P_p (v * i / 10000)
      let b := b.wr Reg.PWR_MEAS_T F.PWR_MEAS_T_t t
      let uj := v * i / 5000
      let b := (b.setWord64 Reg.PWR_ENERGY (b.word64 Reg.PWR_ENERGY + uj)).occ 0x340 0 none uj
      let b := b.wr Reg.PWR_PEAK F.PWR_PEAK_i (max i (b.rd Reg.PWR_PEAK F.PWR_PEAK_i))
      let b := (List.range 8).foldl (fun (b : Base) c =>
        match cages[c]? with
        | some x => if b.rd (Reg.PWR_CAGE c) F.PWR_CAGE_i = x % 65536 then b else b.wr (Reg.PWR_CAGE c) F.PWR_CAGE_i x
        | none => b) b
      let pl := if tempReaches t (b.rd Reg.PWR_TEMP_CFG F.PWR_TEMP_CFG_temp_warn_c) then m.pl else { m.pl with tempWarnAt := none }
      exec (.telemetrySample x y t cages) s = .next (s.ends
        ((({ m with base := b, pl := pl } : Mod).classify v).qualify v).tryPowerUp)) ∧
    (∀ d : Dip, s.plinthDue .dipResume m → m.pl.dip = some d →
      let fin := d.wait.getD m.base.now
      let n : Mod := { m with base := m.base.logDip d fin false, pl := { m.pl with dip := none } }
      exec .dipResumeExpiry s = .next (s.ends
        ((n.plinthEvent { group := 1, bit := 1, detail := d.minV, detail2 := (fin - d.since) / ms }).setZone 0))) ∧
    (s.powerIs m → m.base.isSet Reg.PWR_STATUS F.PWR_STATUS_gate_full = true → m.base.isSet Reg.PWR_STATUS F.PWR_STATUS_limit = false →
      m.base.gateOn = true →
      let b := (m.base.wr Reg.PWR_STATUS F.PWR_STATUS_limit 1).bump (Reg.PWR_CNT 2)
      let b := ((b.disarm .limitClear).disarm .pgQual).arm .faultTimer (5 * ms - m.pl.faultAcc)
      exec .currentLimitEngage s = .next (s.ends
        (({ m with base := b, pl := { m.pl with limitSince := some b.now } } : Mod).plinthEvent { group := 1, bit := 3 }))) ∧
    (∀ t : Nat, s.powerIs m → m.pl.limitSince = some t →
      let b := ((m.base.wr Reg.PWR_STATUS F.PWR_STATUS_limit 0).disarm .faultTimer).arm .limitClear (2 * ms)
      exec .currentLimitRelease s = .next (s.ends
        { m with base := if b.feState = 2 then b.arm .pgQual (2 * ms) else b,
                 pl := { m.pl with limitSince := none, faultAcc := m.pl.faultAcc + (m.base.now - t) } })) ∧
    (s.plinthDue .limitClear m → exec .limitTimerClear s = .next (s.ends { m with pl := { m.pl with faultAcc := 0 } })) ∧
    (s.powerIs m → m.base.isSet (Reg.PWR_CAGE c.val) F.PWR_CAGE_on = true →
      exec (.cageOvercurrent c) s = .next (s.ends
        ({ m with base := (m.base.wr (Reg.PWR_CAGE c.val) F.PWR_CAGE_fault 1).raise { group := 1, bit := 7, sev := 1, detail := c.val },
                  pl := m.pl.setCage { (m.pl.cage c.val) with tripped := true } } : Mod).refreshCages)) ∧
    (∀ present : Bool, s.powerIs m → exec (.cagePresenceChange c present) s = .next (s.ends
      ({ m with pl := m.pl.setCage { (m.pl.cage c.val) with present := present } } : Mod).refreshCages)) ∧
    (s.plinthDue (.cageReset c.val) m → m.base.camTile (24 + c.val) = false →
      let n : Mod := { m with pl := m.pl.setCage { (m.pl.cage c.val) with released := true } }
      ((m.base.inTest (24 + c.val) || !m.base.isSet (Reg.SER_TILE_STATUS (24 + c.val)) F.SER_TILE_STATUS_pll_lock) = true →
        exec (.cageResetRelease c) s = .next (s.ends n)) ∧
      ((m.base.inTest (24 + c.val) || !m.base.isSet (Reg.SER_TILE_STATUS (24 + c.val)) F.SER_TILE_STATUS_pll_lock) = false →
        exec (.cageResetRelease c) s = .next (s.ends (n.tileTrain (24 + c.val))))) ∧
    (s.dieIs m → exec (.cageInterrupt c) s = .next (s.ends { m with base := m.base.raise { group := 1, bit := 10, detail := c.val } })) ∧
    (∀ t : Nat, s.powerIs m →
      (tempReaches t (m.base.rd Reg.PWR_TEMP_CFG F.PWR_TEMP_CFG_temp_warn_c) = false → exec (.tempWarning t) s = .next (s.ends m)) ∧
      (tempReaches t (m.base.rd Reg.PWR_TEMP_CFG F.PWR_TEMP_CFG_temp_warn_c) = true →
        (m.pl.tempWarnAt = none ∨ ∃ x, m.pl.tempWarnAt = some x ∧ x + 60 * sec ≤ m.base.now) →
        exec (.tempWarning t) s = .next (s.ends
          (({ m with pl := { m.pl with tempWarnAt := some m.base.now } } : Mod).plinthEvent { group := 1, bit := 8 }))) ∧
      (∀ x : Nat, m.pl.tempWarnAt = some x → m.base.now < x + 60 * sec → exec (.tempWarning t) s = .next (s.ends m)) ∧
      (tempReaches t (m.base.rd Reg.PWR_TEMP_CFG F.PWR_TEMP_CFG_temp_crit_c) = true → m.base.gateOn = true →
        let n : Mod := { m with base := (m.base.raise { group := 1, bit := 9, sev := 2 }).recordFault 5 m.base.sampleV }
        (m.pl.dieOn = true → exec (.tempCritical t) s = .next (s.ends
          (n.requestDown { cold := true, cause := 6, off := 2, fatal := true }))) ∧
        (m.pl.dieOn = false → exec (.tempCritical t) s = .next (s.ends (n.loadOff 4 6 true))))) ∧
    (∀ (n : Fin 56) (level : Bool), s.dieIs m →
      ((m.prk.slot n.val).alert = level → exec (.shelfAlertChange n level) s = .next (s.ends m)) ∧
      (∀ p : Nat, (m.prk.slot n.val).alert ≠ level → m.base.slotPort n.val = some p →
        let x : Mod := { m with prk := m.prk.setSlot { (m.prk.slot n.val) with alert := level } }
        (m.base.isSet (Reg.BND_PORT_LEND p) F.BND_PORT_LEND_valid = true →
          exec (.shelfAlertChange n level) s = .next (s.ends (x.tellBorrower n.val 1 (leBytes 4 (b2n level))))) ∧
        (m.base.isSet (Reg.BND_PORT_LEND p) F.BND_PORT_LEND_valid = false →
          exec (.shelfAlertChange n level) s = .next (s.ends
            { x with base := m.base.raise { m.base.portEv p 4 0 with detail := b2n level } }))))

/-! ### The management connector -/

/-- SMBus (R334, R368 to R371). A command whose PEC fails, or whose block has the wrong length, is refused. REG_ADDR sets the offset that
REG_READ and REG_WRITE use. A reset with another code than that of R329 is refused. An update opens unless one is in the way, takes pieces of
32 bytes up to its length and ends with its check. The alert response gives the module's address while the alert is asserted. -/
def Obligations.SmbusCommands : Prop :=
  ∀ (s : State) (m : Mod) (data : List Byte) (result : Fin 16), s.powerIs m →
    let refused : Mod := { m with base := m.base.emit .nack }
    (exec (.regAddr data false) s = .next (s.ends refused) ∧ exec (.regRead false) s = .next (s.ends refused) ∧
      exec (.regWrite data false) s = .next (s.ends refused) ∧ exec (.wake false) s = .next (s.ends refused) ∧
      exec (.warmReset data false) s = .next (s.ends refused) ∧ exec (.coldReset data false) s = .next (s.ends refused) ∧
      exec (.imgBegin data false) s = .next (s.ends refused) ∧ exec (.imgData data false result) s = .next (s.ends refused) ∧
      exec (.imgEnd false result) s = .next (s.ends refused)) ∧
    (data.length = 4 → exec (.regAddr data true) s = .next (s.ends { m with pl := { m.pl with smbAddr := leNat data } })) ∧
    (data.length ≠ 4 → exec (.regAddr data true) s = .next (s.ends refused) ∧ exec (.regWrite data true) s = .next (s.ends refused) ∧
      exec (.imgBegin data true) s = .next (s.ends refused)) ∧
    (m.plinthOnly = true → m.pl.smbAddr % 4 = 0 →
      (m.plinthReads m.pl.smbAddr = true → plinthClkMask m.pl.smbAddr = 0 → exec (.regRead true) s = .next (s.ends
        (let r := m.readWord .smbus m.pl.smbAddr false
         { r.1 with base := r.1.base.emit (.smbus (leBytes 4 r.2) false) }))) ∧
      (m.plinthReads m.pl.smbAddr = false → exec (.regRead true) s = .next (s.ends refused)) ∧
      (data.length = 4 → inPwr m.pl.smbAddr = true → exec (.regWrite data true) s = .next (s.ends
        (m.decodeWrite .smbus m.pl.smbAddr (leNat data))))) ∧
    (m.plinthOnly = false →
      (∀ (n : Mod) (v : Nat), m.readAccess .smbus m.pl.smbAddr 4 none = (n, some v) → exec (.regRead true) s = .next (s.ends
        { n with base := n.base.emit (.smbus (leBytes 4 v) false) })) ∧
      (data.length = 4 → exec (.regWrite data true) s = .next (s.ends (m.writeAccess .smbus m.pl.smbAddr 4 none (leNat data))))) ∧
    ((data.length = 2 → leNat data ≠ Config.resetCode → exec (.warmReset data true) s = .next (s.ends refused) ∧
        exec (.coldReset data true) s = .next (s.ends refused)) ∧
      (data.length = 2 → leNat data = Config.resetCode → exec (.warmReset data true) s = .next (s.ends (m.requestReset false 9)) ∧
        exec (.coldReset data true) s = .next (s.ends (m.requestReset true 3)))) ∧
    (data.length = 4 → m.imgBusy = true → exec (.imgBegin data true) s = .next (s.ends
      { m with base := m.base.wr Reg.CLK_IMG_CTL F.CLK_IMG_CTL_result 6 })) ∧
    (data.length = 4 → m.imgBusy = false →
      let a := Reg.CLK_IMG_CTL
      let len := bits (leNat data) F.CLK_IMG_CTL_len_kib
      exec (.imgBegin data true) s = .next (s.ends
        { m with base := ((m.base.wr a F.CLK_IMG_CTL_type (leNat data % 4)).wr a F.CLK_IMG_CTL_len_kib len).wr a F.CLK_IMG_CTL_done 0,
                 pl := { m.pl with img := some { kind := leNat data % 4, len := len, smbus := true } } })) ∧
    (data.length = 32 → ∀ x : ImgRun, m.pl.img = some x → x.smbus = true →
      (1024 * x.len < x.got + 32 → exec (.imgData data true result) s = .next (s.ends (m.imgFinish x.kind 3))) ∧
      (x.got + 32 ≤ 1024 * x.len → exec (.imgData data true 0) s = .next (s.ends
        { m with pl := { m.pl with img := some { x with got := x.got + 32 } } }))) ∧
    (∀ x : ImgRun, m.pl.img = some x → x.smbus = true → exec (.imgEnd true result) s = .next (s.ends (m.imgFinish x.kind result.val))) ∧
    (m.pl.img = none → exec (.imgEnd true result) s = .next (s.ends
      { m with base := (m.base.wr Reg.CLK_IMG_CTL F.CLK_IMG_CTL_done 1).wr Reg.CLK_IMG_CTL F.CLK_IMG_CTL_result 6 })) ∧
    (m.base.smbAlert = true → exec .alertResponse s = .next (s.ends
      { m with base := m.base.emit (.smbus [BitVec.ofNat 8 (2 * (0x60 + Config.slotAddress.toNat))] false) })) ∧
    (m.base.smbAlert = false → exec .alertResponse s = .next (s.ends refused))

/-- The boundary-scan port (R372). BYPASS answers one bit; IDCODE gives 0x256074F with the die revision above; SAMPLE shifts the pins out
and takes the cells in; the EXTEST forms drive the cells in stages POR, LC_HOLD and HALTED, and elsewhere act as BYPASS with an
advisory event; DEBUG opens the debug master, but not on a decommissioned module. With the die off the port is dead: the model's choice
(DESIGN CHOICE, log entry 18). -/
def Obligations.JtagCommands : Prop :=
  ∀ (s : State) (m : Mod) (pins cells : List Bool), s.powerIs m →
    (m.pl.dieOn = true →
      exec .jtagBypass s = .next (s.ends { m with base := m.base.emit (.jtag [false]) }) ∧
      exec .jtagIdcode s = .next (s.ends
        { m with base := m.base.emit (.jtag (bitList 32 (0x256074F + 2 ^ 28 * m.base.rd Reg.GLB_PRODUCT_ID F.GLB_PRODUCT_ID_die_rev))) }) ∧
      exec (.jtagSamplePreload pins cells) s = .next (s.ends { m with base := m.base.emit (.jtag pins), pl := { m.pl with preload := cells } }) ∧
      (m.base.stage = 0 ∨ m.base.stage = 7 ∨ m.base.stage = 8 →
        exec .jtagExtest s = .next (s.ends { m with base := m.base.emit (.pins 0 m.pl.preload) }) ∧
        exec .jtagExtestPulse s = .next (s.ends { m with base := m.base.emit (.pins 1 m.pl.preload) }) ∧
        exec .jtagExtestTrain s = .next (s.ends { m with base := m.base.emit (.pins 2 m.pl.preload) })) ∧
      (0 < m.base.stage → m.base.stage < 7 →
        let n : Mod := { m with base := (m.base.raise (misuseEv m.base.manager)).emit (.jtag [false]) }
        exec .jtagExtest s = .next (s.ends n) ∧ exec .jtagExtestPulse s = .next (s.ends n) ∧ exec .jtagExtestTrain s = .next (s.ends n)) ∧
      (m.pl.lc ≠ 4 → exec .jtagDebug s = .next (s.ends { m with pl := { m.pl with debugOpen := true } })) ∧
      (m.pl.lc = 4 → exec .jtagDebug s = .next (s.ends { m with base := m.base.emit (.jtag [false]) }))) ∧
    (m.pl.dieOn = false →
      exec .jtagBypass s = .next (s.ends m) ∧ exec .jtagIdcode s = .next (s.ends m) ∧ exec (.jtagSamplePreload pins cells) s = .next (s.ends m) ∧
      exec .jtagExtest s = .next (s.ends m) ∧ exec .jtagExtestPulse s = .next (s.ends m) ∧ exec .jtagExtestTrain s = .next (s.ends m) ∧
      exec .jtagDebug s = .next (s.ends m))

/-! ### Rules of the machine -/

/-- The first rule that matches decides, and no later rule is consulted: a guard decides every check as R143 writes it, its parity flag
first, then the claim to identity 0x3E, then the bounds check of guards 0 to 19, then its rules in order, where a rule matches exactly
when all six of its conditions hold, and else there is no match. -/
def Obligations.GuardsDecideByTheFirstRule : Prop :=
  ∀ (b : Base) (g : Nat) (x : Access),
    let parity := b.isSet (Reg.GRD_STATUS g) F.GRD_STATUS_parity
    (parity = true → b.guardDecide g x = some ⟨6, 0x40⟩) ∧
    (parity = false → x.badKs = true → b.guardDecide g x = some ⟨5, 0x40⟩) ∧
    (parity = false → x.badKs = false → g < 20 → x.bounds = false → b.guardDecide g x = some ⟨7, 0x40⟩) ∧
    (parity = false → x.badKs = false → (g < 20 → x.bounds = true) →
      (∀ r, r < 64 → b.ruleMatches g r x = true → (∀ r', r' < r → b.ruleMatches g r' x = false) →
        let a := b.ruleAttr g r
        (bitOf a 3 = true → b.guardDecide g x = some ⟨1, r⟩) ∧
        (bitOf a 3 = false →
          (bitOf a 31 = true → g = 40 → b.rd Reg.CLK_LC_STATE F.CLK_LC_STATE_state ≠ 1 → b.guardDecide g x = some ⟨4, r⟩) ∧
          ((bitOf a 31 = false ∨ g ≠ 40 ∨ b.rd Reg.CLK_LC_STATE F.CLK_LC_STATE_state = 1) →
            let world := if x.secure then bitOf a 4 else bitOf a 5
            (world = false → b.guardDecide g x = some ⟨2, r⟩) ∧
            (world = true → ((x.rd = true ∧ bitOf a 1 = false) ∨ (x.wr = true ∧ bitOf a 2 = false)) →
              b.guardDecide g x = some ⟨3, r⟩) ∧
            (world = true → (x.rd = true → bitOf a 1 = true) → (x.wr = true → bitOf a 2 = true) → b.guardDecide g x = none)))) ∧
      ((∀ r, r < 64 → b.ruleMatches g r x = false) → b.guardDecide g x = some ⟨0, 0x40⟩)) ∧
    (∀ r, 0 < x.len →
      let a := b.ruleAttr g r
      let k := b.act64 (Reg.GRD_RULE_MATCH g r)
      (b.ruleMatches g r x = true ↔
        bitOf a 0 = true ∧ b.ruleBad g r = false ∧
        (bits a ⟨6, 2⟩ = x.space ∧ x.space ≠ 3) ∧
        (x.space ≠ 0 → bitOf a 18 = true ∨ bits a ⟨8, 6⟩ = x.sel) ∧
        (∀ i, i < x.len →
          b.act64 (Reg.GRD_RULE_BASE g r) / 4096 * 4096 ≤ x.addr + i ∧
          x.addr + i ≤ b.act64 (Reg.GRD_RULE_LIMIT g r) / 4096 * 4096 + 0xFFF) ∧
        (bitOf a 14 = true → x.pasid = some (bits k ⟨0, 20⟩)) ∧
        (bitOf a 15 = true → x.slice = bits k ⟨20, 10⟩) ∧
        (bitOf a 16 = true → x.ident = bits k ⟨30, 6⟩)))

/-- Staged and active rules (R145, R147, R148): a write of a staged register changes no check, and what a commit makes active is the staged
set, but for locked rules, which it never changes. -/
def Obligations.StagedRulesActAtACommit : Prop :=
  (∀ (b : Base) (g r off : Nat) (v : W32) (x : Access) (h : Nat), g < 41 → h < 41 → r < 64 → off ∈ ruleWords h r →
    (b.setWord off v).guardDecide g x = b.guardDecide g x) ∧
  (∀ (b : Base) (g r off : Nat), g < 41 → r < 64 → off ∈ ruleWords g r →
    (b.ruleLocked g r = true → (b.activate g false).act.get0 off = b.act.get0 off) ∧
    (b.ruleLocked g r = false → (b.activate g false).act.get0 off =
      if off = Reg.GRD_RULE_ATTR g r then b.word off &&& ~~~(BitVec.ofNat 32 (2 ^ 17)) else b.word off)) ∧
  (∀ (b : Base) (g h r off : Nat), g < 41 → h < 41 → g ≠ h → r < 64 → off ∈ ruleWords h r →
    (b.activate g false).act.get0 off = b.act.get0 off)

/-- Park DRAM keeps what is written (R78, R299): the written bytes read back, every byte outside them stands, the canonical form is kept; a
word that a good write covers whole is no longer poisoned, and a poisoned write poisons every word that it touches. -/
def Obligations.ParkMemoryKeepsWhatIsWritten : Prop :=
  ∀ (d : Dram) (addr : Nat) (data : List Byte) (bad : Bool), Memory.wf d.mem = true →
    Memory.wf (d.write addr data bad).mem = true ∧
    (d.write addr data bad).read addr data.length = data ∧
    (∀ c, c < addr ∨ addr + data.length ≤ c → memGet (d.write addr data bad).mem c = memGet d.mem c) ∧
    (∀ w, addr ≤ 8 * w → 8 * w + 8 ≤ addr + data.length →
      ((d.write addr data false).poisoned (8 * w) 8 = false ∧ (d.write addr data true).poisoned (8 * w) 8 = true))

/-- What the register file is after a reset of the die (R14, R328): a register of the plinth reads as before; after a warm reset every rs
bit reads as before and every other bit as its reset entry says, and after a cold one every bit does. -/
def Obligations.ResetsKeepWhatTheyMust : Prop :=
  ∀ (r : RegFile) (a i : Nat), (r.map Prod.fst).Nodup → i < 32 →
    (plinthReg a = true → (∀ warm, (r.overReset warm).get a = r.get a)) ∧
    (plinthReg a = false →
      (r.overReset false).get a = regReset a ∧
      ((r.overReset true).get a).getLsbD i =
        if (maskWord RegRow.rs a).getLsbD i then (r.get a).getLsbD i else (regReset a).getLsbD i)

/-- One matching of the switch (R44): it pairs no ingress twice and no egress twice, and pairs only those that request each other; crossbar
port 41 is never an egress. -/
def Obligations.MatchingsAreOneToOne : Prop :=
  ∀ (m : Mod) (req : List (Nat × Nat)) (rounds : Nat),
    let pairs := ((List.range rounds).foldl (fun acc r => Mod.matchRound req (r + 1) acc) (m, [])).2
    (pairs.map Match.ing).Nodup ∧ (pairs.map Match.eg).Nodup ∧
    (∀ p ∈ pairs, p.ing < 42 ∧ p.eg < 41 ∧ (p.ing, p.eg) ∈ req ∧ 1 ≤ p.round ∧ p.round ≤ rounds)

/-- The buckets of meters over ticks (R67): after d ticks an enabled meter holds what d increments, each capped at the bucket's size, give,
and another meter's buckets stand. -/
def Obligations.MetersFillToTheirSizes : Prop :=
  ∀ (m : Mod) (d : Nat), ∀ t ∈ m.sw.meters,
    (m.base.meterOn t.m = true →
      let once := fun (x : Nat × Nat) => (min (x.1 + m.base.cir t.m) (m.base.cbs t.m), min (x.2 + m.base.pir t.m) (m.base.pbs t.m))
      ∃ u ∈ (m.passTicks d).sw.meters, u.m = t.m ∧ (u.tc, u.tp) = (List.range d).foldl (fun x _ => once x) (t.tc, t.tp)) ∧
    (m.base.meterOn t.m = false → t ∈ (m.passTicks d).sw.meters)
end

