-- ==== Sys2Proof/Laws/State.lean ====
section
/-! SUPPORT. One lemma per field and update: what the named updates of the registers, events, timers and outputs leave as it was, so that
no proof unfolds a record update. -/

namespace Sys2Proof.Machine

/-! ### A register word is put -/

@[simp] theorem Base.setWord_act (b : Base) (a : Nat) (v : W32) : (b.setWord a v).act = b.act := rfl
@[simp] theorem Base.setWord_cfgs (b : Base) (a : Nat) (v : W32) : (b.setWord a v).cfgs = b.cfgs := rfl
@[simp] theorem Base.setWord_msix (b : Base) (a : Nat) (v : W32) : (b.setWord a v).msix = b.msix := rfl
@[simp] theorem Base.setWord_bar2 (b : Base) (a : Nat) (v : W32) : (b.setWord a v).bar2 = b.bar2 := rfl
@[simp] theorem Base.setWord_now (b : Base) (a : Nat) (v : W32) : (b.setWord a v).now = b.now := rfl
@[simp] theorem Base.setWord_coreOn (b : Base) (a : Nat) (v : W32) : (b.setWord a v).coreOn = b.coreOn := rfl
@[simp] theorem Base.setWord_stamp (b : Base) (a : Nat) (v : W32) : (b.setWord a v).stamp = b.stamp := rfl
@[simp] theorem Base.setWord_stampAt (b : Base) (a : Nat) (v : W32) : (b.setWord a v).stampAt = b.stampAt := rfl
@[simp] theorem Base.setWord_timers (b : Base) (a : Nat) (v : W32) : (b.setWord a v).timers = b.timers := rfl
@[simp] theorem Base.setWord_storms (b : Base) (a : Nat) (v : W32) : (b.setWord a v).storms = b.storms := rfl
@[simp] theorem Base.setWord_eqs (b : Base) (a : Nat) (v : W32) : (b.setWord a v).eqs = b.eqs := rfl
@[simp] theorem Base.setWord_pend (b : Base) (a : Nat) (v : W32) : (b.setWord a v).pend = b.pend := rfl
@[simp] theorem Base.setWord_held (b : Base) (a : Nat) (v : W32) : (b.setWord a v).held = b.held := rfl
@[simp] theorem Base.setWord_latches (b : Base) (a : Nat) (v : W32) : (b.setWord a v).latches = b.latches := rfl
@[simp] theorem Base.setWord_cntHold (b : Base) (a : Nat) (v : W32) : (b.setWord a v).cntHold = b.cntHold := rfl
@[simp] theorem Base.setWord_samples (b : Base) (a : Nat) (v : W32) : (b.setWord a v).samples = b.samples := rfl
@[simp] theorem Base.setWord_commit (b : Base) (a : Nat) (v : W32) : (b.setWord a v).commit = b.commit := rfl
@[simp] theorem Base.setWord_commitWait (b : Base) (a : Nat) (v : W32) : (b.setWord a v).commitWait = b.commitWait := rfl
@[simp] theorem Base.setWord_evq (b : Base) (a : Nat) (v : W32) : (b.setWord a v).evq = b.evq := rfl
@[simp] theorem Base.setWord_released (b : Base) (a : Nat) (v : W32) : (b.setWord a v).released = b.released := rfl
@[simp] theorem Base.setWord_fatal (b : Base) (a : Nat) (v : W32) : (b.setWord a v).fatal = b.fatal := rfl
@[simp] theorem Base.setWord_hung (b : Base) (a : Nat) (v : W32) : (b.setWord a v).hung = b.hung := rfl
@[simp] theorem Base.setWord_lates (b : Base) (a : Nat) (v : W32) : (b.setWord a v).lates = b.lates := rfl
@[simp] theorem Base.setWord_freeCtr (b : Base) (a : Nat) (v : W32) : (b.setWord a v).freeCtr = b.freeCtr := rfl
@[simp] theorem Base.setWord_out (b : Base) (a : Nat) (v : W32) : (b.setWord a v).out = b.out := rfl

/-! ### A register field is written -/

@[simp] theorem Base.wr_act (b : Base) (a : Nat) (f : Fld) (v : Nat) : (b.wr a f v).act = b.act := by
  unfold Base.wr Base.setWord64 Base.setWord; split_ifs <;> rfl
@[simp] theorem Base.wr_cfgs (b : Base) (a : Nat) (f : Fld) (v : Nat) : (b.wr a f v).cfgs = b.cfgs := by
  unfold Base.wr Base.setWord64 Base.setWord; split_ifs <;> rfl
@[simp] theorem Base.wr_msix (b : Base) (a : Nat) (f : Fld) (v : Nat) : (b.wr a f v).msix = b.msix := by
  unfold Base.wr Base.setWord64 Base.setWord; split_ifs <;> rfl
@[simp] theorem Base.wr_bar2 (b : Base) (a : Nat) (f : Fld) (v : Nat) : (b.wr a f v).bar2 = b.bar2 := by
  unfold Base.wr Base.setWord64 Base.setWord; split_ifs <;> rfl
@[simp] theorem Base.wr_now (b : Base) (a : Nat) (f : Fld) (v : Nat) : (b.wr a f v).now = b.now := by
  unfold Base.wr Base.setWord64 Base.setWord; split_ifs <;> rfl
@[simp] theorem Base.wr_coreOn (b : Base) (a : Nat) (f : Fld) (v : Nat) : (b.wr a f v).coreOn = b.coreOn := by
  unfold Base.wr Base.setWord64 Base.setWord; split_ifs <;> rfl
@[simp] theorem Base.wr_stamp (b : Base) (a : Nat) (f : Fld) (v : Nat) : (b.wr a f v).stamp = b.stamp := by
  unfold Base.wr Base.setWord64 Base.setWord; split_ifs <;> rfl
@[simp] theorem Base.wr_stampAt (b : Base) (a : Nat) (f : Fld) (v : Nat) : (b.wr a f v).stampAt = b.stampAt := by
  unfold Base.wr Base.setWord64 Base.setWord; split_ifs <;> rfl
@[simp] theorem Base.wr_timers (b : Base) (a : Nat) (f : Fld) (v : Nat) : (b.wr a f v).timers = b.timers := by
  unfold Base.wr Base.setWord64 Base.setWord; split_ifs <;> rfl
@[simp] theorem Base.wr_storms (b : Base) (a : Nat) (f : Fld) (v : Nat) : (b.wr a f v).storms = b.storms := by
  unfold Base.wr Base.setWord64 Base.setWord; split_ifs <;> rfl
@[simp] theorem Base.wr_eqs (b : Base) (a : Nat) (f : Fld) (v : Nat) : (b.wr a f v).eqs = b.eqs := by
  unfold Base.wr Base.setWord64 Base.setWord; split_ifs <;> rfl
@[simp] theorem Base.wr_pend (b : Base) (a : Nat) (f : Fld) (v : Nat) : (b.wr a f v).pend = b.pend := by
  unfold Base.wr Base.setWord64 Base.setWord; split_ifs <;> rfl
@[simp] theorem Base.wr_held (b : Base) (a : Nat) (f : Fld) (v : Nat) : (b.wr a f v).held = b.held := by
  unfold Base.wr Base.setWord64 Base.setWord; split_ifs <;> rfl
@[simp] theorem Base.wr_latches (b : Base) (a : Nat) (f : Fld) (v : Nat) : (b.wr a f v).latches = b.latches := by
  unfold Base.wr Base.setWord64 Base.setWord; split_ifs <;> rfl
@[simp] theorem Base.wr_cntHold (b : Base) (a : Nat) (f : Fld) (v : Nat) : (b.wr a f v).cntHold = b.cntHold := by
  unfold Base.wr Base.setWord64 Base.setWord; split_ifs <;> rfl
@[simp] theorem Base.wr_samples (b : Base) (a : Nat) (f : Fld) (v : Nat) : (b.wr a f v).samples = b.samples := by
  unfold Base.wr Base.setWord64 Base.setWord; split_ifs <;> rfl
@[simp] theorem Base.wr_commit (b : Base) (a : Nat) (f : Fld) (v : Nat) : (b.wr a f v).commit = b.commit := by
  unfold Base.wr Base.setWord64 Base.setWord; split_ifs <;> rfl
@[simp] theorem Base.wr_commitWait (b : Base) (a : Nat) (f : Fld) (v : Nat) : (b.wr a f v).commitWait = b.commitWait := by
  unfold Base.wr Base.setWord64 Base.setWord; split_ifs <;> rfl
@[simp] theorem Base.wr_evq (b : Base) (a : Nat) (f : Fld) (v : Nat) : (b.wr a f v).evq = b.evq := by
  unfold Base.wr Base.setWord64 Base.setWord; split_ifs <;> rfl
@[simp] theorem Base.wr_released (b : Base) (a : Nat) (f : Fld) (v : Nat) : (b.wr a f v).released = b.released := by
  unfold Base.wr Base.setWord64 Base.setWord; split_ifs <;> rfl
@[simp] theorem Base.wr_fatal (b : Base) (a : Nat) (f : Fld) (v : Nat) : (b.wr a f v).fatal = b.fatal := by
  unfold Base.wr Base.setWord64 Base.setWord; split_ifs <;> rfl
@[simp] theorem Base.wr_hung (b : Base) (a : Nat) (f : Fld) (v : Nat) : (b.wr a f v).hung = b.hung := by
  unfold Base.wr Base.setWord64 Base.setWord; split_ifs <;> rfl
@[simp] theorem Base.wr_lates (b : Base) (a : Nat) (f : Fld) (v : Nat) : (b.wr a f v).lates = b.lates := by
  unfold Base.wr Base.setWord64 Base.setWord; split_ifs <;> rfl
@[simp] theorem Base.wr_freeCtr (b : Base) (a : Nat) (f : Fld) (v : Nat) : (b.wr a f v).freeCtr = b.freeCtr := by
  unfold Base.wr Base.setWord64 Base.setWord; split_ifs <;> rfl
@[simp] theorem Base.wr_out (b : Base) (a : Nat) (f : Fld) (v : Nat) : (b.wr a f v).out = b.out := by
  unfold Base.wr Base.setWord64 Base.setWord; split_ifs <;> rfl

/-! ### An event is raised -/

@[simp] theorem Base.raise_regs (b : Base) (e : Ev) : (b.raise e).regs = b.regs := rfl
@[simp] theorem Base.raise_act (b : Base) (e : Ev) : (b.raise e).act = b.act := rfl
@[simp] theorem Base.raise_cfgs (b : Base) (e : Ev) : (b.raise e).cfgs = b.cfgs := rfl
@[simp] theorem Base.raise_msix (b : Base) (e : Ev) : (b.raise e).msix = b.msix := rfl
@[simp] theorem Base.raise_bar2 (b : Base) (e : Ev) : (b.raise e).bar2 = b.bar2 := rfl
@[simp] theorem Base.raise_now (b : Base) (e : Ev) : (b.raise e).now = b.now := rfl
@[simp] theorem Base.raise_coreOn (b : Base) (e : Ev) : (b.raise e).coreOn = b.coreOn := rfl
@[simp] theorem Base.raise_stamp (b : Base) (e : Ev) : (b.raise e).stamp = b.stamp := rfl
@[simp] theorem Base.raise_stampAt (b : Base) (e : Ev) : (b.raise e).stampAt = b.stampAt := rfl
@[simp] theorem Base.raise_timers (b : Base) (e : Ev) : (b.raise e).timers = b.timers := rfl
@[simp] theorem Base.raise_storms (b : Base) (e : Ev) : (b.raise e).storms = b.storms := rfl
@[simp] theorem Base.raise_eqs (b : Base) (e : Ev) : (b.raise e).eqs = b.eqs := rfl
@[simp] theorem Base.raise_pend (b : Base) (e : Ev) : (b.raise e).pend = b.pend := rfl
@[simp] theorem Base.raise_held (b : Base) (e : Ev) : (b.raise e).held = b.held := rfl
@[simp] theorem Base.raise_latches (b : Base) (e : Ev) : (b.raise e).latches = b.latches := rfl
@[simp] theorem Base.raise_cntHold (b : Base) (e : Ev) : (b.raise e).cntHold = b.cntHold := rfl
@[simp] theorem Base.raise_samples (b : Base) (e : Ev) : (b.raise e).samples = b.samples := rfl
@[simp] theorem Base.raise_commit (b : Base) (e : Ev) : (b.raise e).commit = b.commit := rfl
@[simp] theorem Base.raise_commitWait (b : Base) (e : Ev) : (b.raise e).commitWait = b.commitWait := rfl
@[simp] theorem Base.raise_released (b : Base) (e : Ev) : (b.raise e).released = b.released := rfl
@[simp] theorem Base.raise_fatal (b : Base) (e : Ev) : (b.raise e).fatal = b.fatal := rfl
@[simp] theorem Base.raise_hung (b : Base) (e : Ev) : (b.raise e).hung = b.hung := rfl
@[simp] theorem Base.raise_lates (b : Base) (e : Ev) : (b.raise e).lates = b.lates := rfl
@[simp] theorem Base.raise_freeCtr (b : Base) (e : Ev) : (b.raise e).freeCtr = b.freeCtr := rfl
@[simp] theorem Base.raise_out (b : Base) (e : Ev) : (b.raise e).out = b.out := rfl

/-! ### Something leaves the module -/

@[simp] theorem Base.emit_regs (b : Base) (x : Out) : (b.emit x).regs = b.regs := rfl
@[simp] theorem Base.emit_act (b : Base) (x : Out) : (b.emit x).act = b.act := rfl
@[simp] theorem Base.emit_cfgs (b : Base) (x : Out) : (b.emit x).cfgs = b.cfgs := rfl
@[simp] theorem Base.emit_msix (b : Base) (x : Out) : (b.emit x).msix = b.msix := rfl
@[simp] theorem Base.emit_bar2 (b : Base) (x : Out) : (b.emit x).bar2 = b.bar2 := rfl
@[simp] theorem Base.emit_now (b : Base) (x : Out) : (b.emit x).now = b.now := rfl
@[simp] theorem Base.emit_coreOn (b : Base) (x : Out) : (b.emit x).coreOn = b.coreOn := rfl
@[simp] theorem Base.emit_stamp (b : Base) (x : Out) : (b.emit x).stamp = b.stamp := rfl
@[simp] theorem Base.emit_stampAt (b : Base) (x : Out) : (b.emit x).stampAt = b.stampAt := rfl
@[simp] theorem Base.emit_timers (b : Base) (x : Out) : (b.emit x).timers = b.timers := rfl
@[simp] theorem Base.emit_storms (b : Base) (x : Out) : (b.emit x).storms = b.storms := rfl
@[simp] theorem Base.emit_eqs (b : Base) (x : Out) : (b.emit x).eqs = b.eqs := rfl
@[simp] theorem Base.emit_pend (b : Base) (x : Out) : (b.emit x).pend = b.pend := rfl
@[simp] theorem Base.emit_held (b : Base) (x : Out) : (b.emit x).held = b.held := rfl
@[simp] theorem Base.emit_latches (b : Base) (x : Out) : (b.emit x).latches = b.latches := rfl
@[simp] theorem Base.emit_cntHold (b : Base) (x : Out) : (b.emit x).cntHold = b.cntHold := rfl
@[simp] theorem Base.emit_samples (b : Base) (x : Out) : (b.emit x).samples = b.samples := rfl
@[simp] theorem Base.emit_commit (b : Base) (x : Out) : (b.emit x).commit = b.commit := rfl
@[simp] theorem Base.emit_commitWait (b : Base) (x : Out) : (b.emit x).commitWait = b.commitWait := rfl
@[simp] theorem Base.emit_evq (b : Base) (x : Out) : (b.emit x).evq = b.evq := rfl
@[simp] theorem Base.emit_released (b : Base) (x : Out) : (b.emit x).released = b.released := rfl
@[simp] theorem Base.emit_fatal (b : Base) (x : Out) : (b.emit x).fatal = b.fatal := rfl
@[simp] theorem Base.emit_hung (b : Base) (x : Out) : (b.emit x).hung = b.hung := rfl
@[simp] theorem Base.emit_lates (b : Base) (x : Out) : (b.emit x).lates = b.lates := rfl
@[simp] theorem Base.emit_freeCtr (b : Base) (x : Out) : (b.emit x).freeCtr = b.freeCtr := rfl

/-! ### A timer starts -/

@[simp] theorem Base.arm_regs (b : Base) (k : TimerKey) (n : Nat) : (b.arm k n).regs = b.regs := rfl
@[simp] theorem Base.arm_act (b : Base) (k : TimerKey) (n : Nat) : (b.arm k n).act = b.act := rfl
@[simp] theorem Base.arm_cfgs (b : Base) (k : TimerKey) (n : Nat) : (b.arm k n).cfgs = b.cfgs := rfl
@[simp] theorem Base.arm_msix (b : Base) (k : TimerKey) (n : Nat) : (b.arm k n).msix = b.msix := rfl
@[simp] theorem Base.arm_bar2 (b : Base) (k : TimerKey) (n : Nat) : (b.arm k n).bar2 = b.bar2 := rfl
@[simp] theorem Base.arm_now (b : Base) (k : TimerKey) (n : Nat) : (b.arm k n).now = b.now := rfl
@[simp] theorem Base.arm_coreOn (b : Base) (k : TimerKey) (n : Nat) : (b.arm k n).coreOn = b.coreOn := rfl
@[simp] theorem Base.arm_stamp (b : Base) (k : TimerKey) (n : Nat) : (b.arm k n).stamp = b.stamp := rfl
@[simp] theorem Base.arm_stampAt (b : Base) (k : TimerKey) (n : Nat) : (b.arm k n).stampAt = b.stampAt := rfl
@[simp] theorem Base.arm_storms (b : Base) (k : TimerKey) (n : Nat) : (b.arm k n).storms = b.storms := rfl
@[simp] theorem Base.arm_eqs (b : Base) (k : TimerKey) (n : Nat) : (b.arm k n).eqs = b.eqs := rfl
@[simp] theorem Base.arm_pend (b : Base) (k : TimerKey) (n : Nat) : (b.arm k n).pend = b.pend := rfl
@[simp] theorem Base.arm_held (b : Base) (k : TimerKey) (n : Nat) : (b.arm k n).held = b.held := rfl
@[simp] theorem Base.arm_latches (b : Base) (k : TimerKey) (n : Nat) : (b.arm k n).latches = b.latches := rfl
@[simp] theorem Base.arm_cntHold (b : Base) (k : TimerKey) (n : Nat) : (b.arm k n).cntHold = b.cntHold := rfl
@[simp] theorem Base.arm_samples (b : Base) (k : TimerKey) (n : Nat) : (b.arm k n).samples = b.samples := rfl
@[simp] theorem Base.arm_commit (b : Base) (k : TimerKey) (n : Nat) : (b.arm k n).commit = b.commit := rfl
@[simp] theorem Base.arm_commitWait (b : Base) (k : TimerKey) (n : Nat) : (b.arm k n).commitWait = b.commitWait := rfl
@[simp] theorem Base.arm_evq (b : Base) (k : TimerKey) (n : Nat) : (b.arm k n).evq = b.evq := rfl
@[simp] theorem Base.arm_released (b : Base) (k : TimerKey) (n : Nat) : (b.arm k n).released = b.released := rfl
@[simp] theorem Base.arm_fatal (b : Base) (k : TimerKey) (n : Nat) : (b.arm k n).fatal = b.fatal := rfl
@[simp] theorem Base.arm_hung (b : Base) (k : TimerKey) (n : Nat) : (b.arm k n).hung = b.hung := rfl
@[simp] theorem Base.arm_lates (b : Base) (k : TimerKey) (n : Nat) : (b.arm k n).lates = b.lates := rfl
@[simp] theorem Base.arm_freeCtr (b : Base) (k : TimerKey) (n : Nat) : (b.arm k n).freeCtr = b.freeCtr := rfl
@[simp] theorem Base.arm_out (b : Base) (k : TimerKey) (n : Nat) : (b.arm k n).out = b.out := rfl

/-! ### A timer stops -/

@[simp] theorem Base.disarm_regs (b : Base) (k : TimerKey) : (b.disarm k).regs = b.regs := rfl
@[simp] theorem Base.disarm_act (b : Base) (k : TimerKey) : (b.disarm k).act = b.act := rfl
@[simp] theorem Base.disarm_cfgs (b : Base) (k : TimerKey) : (b.disarm k).cfgs = b.cfgs := rfl
@[simp] theorem Base.disarm_msix (b : Base) (k : TimerKey) : (b.disarm k).msix = b.msix := rfl
@[simp] theorem Base.disarm_bar2 (b : Base) (k : TimerKey) : (b.disarm k).bar2 = b.bar2 := rfl
@[simp] theorem Base.disarm_now (b : Base) (k : TimerKey) : (b.disarm k).now = b.now := rfl
@[simp] theorem Base.disarm_coreOn (b : Base) (k : TimerKey) : (b.disarm k).coreOn = b.coreOn := rfl
@[simp] theorem Base.disarm_stamp (b : Base) (k : TimerKey) : (b.disarm k).stamp = b.stamp := rfl
@[simp] theorem Base.disarm_stampAt (b : Base) (k : TimerKey) : (b.disarm k).stampAt = b.stampAt := rfl
@[simp] theorem Base.disarm_storms (b : Base) (k : TimerKey) : (b.disarm k).storms = b.storms := rfl
@[simp] theorem Base.disarm_eqs (b : Base) (k : TimerKey) : (b.disarm k).eqs = b.eqs := rfl
@[simp] theorem Base.disarm_pend (b : Base) (k : TimerKey) : (b.disarm k).pend = b.pend := rfl
@[simp] theorem Base.disarm_held (b : Base) (k : TimerKey) : (b.disarm k).held = b.held := rfl
@[simp] theorem Base.disarm_latches (b : Base) (k : TimerKey) : (b.disarm k).latches = b.latches := rfl
@[simp] theorem Base.disarm_cntHold (b : Base) (k : TimerKey) : (b.disarm k).cntHold = b.cntHold := rfl
@[simp] theorem Base.disarm_samples (b : Base) (k : TimerKey) : (b.disarm k).samples = b.samples := rfl
@[simp] theorem Base.disarm_commit (b : Base) (k : TimerKey) : (b.disarm k).commit = b.commit := rfl
@[simp] theorem Base.disarm_commitWait (b : Base) (k : TimerKey) : (b.disarm k).commitWait = b.commitWait := rfl
@[simp] theorem Base.disarm_evq (b : Base) (k : TimerKey) : (b.disarm k).evq = b.evq := rfl
@[simp] theorem Base.disarm_released (b : Base) (k : TimerKey) : (b.disarm k).released = b.released := rfl
@[simp] theorem Base.disarm_fatal (b : Base) (k : TimerKey) : (b.disarm k).fatal = b.fatal := rfl
@[simp] theorem Base.disarm_hung (b : Base) (k : TimerKey) : (b.disarm k).hung = b.hung := rfl
@[simp] theorem Base.disarm_lates (b : Base) (k : TimerKey) : (b.disarm k).lates = b.lates := rfl
@[simp] theorem Base.disarm_freeCtr (b : Base) (k : TimerKey) : (b.disarm k).freeCtr = b.freeCtr := rfl
@[simp] theorem Base.disarm_out (b : Base) (k : TimerKey) : (b.disarm k).out = b.out := rfl

/-! ### The module as a command finds it, and as a timer that ends makes it -/

@[simp] theorem Mod.begun_tags (m : Mod) : m.begun.tags = m.tags := rfl
@[simp] theorem Mod.begun_sw (m : Mod) : m.begun.sw = m.sw := rfl
@[simp] theorem Mod.begun_dram (m : Mod) : m.begun.dram = m.dram := rfl
@[simp] theorem Mod.begun_ord (m : Mod) : m.begun.ord = m.ord := rfl
@[simp] theorem Mod.begun_qe (m : Mod) : m.begun.qe = m.qe := rfl
@[simp] theorem Mod.begun_hod (m : Mod) : m.begun.hod = m.hod := rfl
@[simp] theorem Mod.begun_prk (m : Mod) : m.begun.prk = m.prk := rfl
@[simp] theorem Mod.begun_slc (m : Mod) : m.begun.slc = m.slc := rfl
@[simp] theorem Mod.begun_margins (m : Mod) : m.begun.margins = m.margins := rfl
@[simp] theorem Mod.begun_lanes (m : Mod) : m.begun.lanes = m.lanes := rfl
@[simp] theorem Mod.begun_cams (m : Mod) : m.begun.cams = m.cams := rfl
@[simp] theorem Mod.begun_bnd (m : Mod) : m.begun.bnd = m.bnd := rfl
@[simp] theorem Mod.begun_pl (m : Mod) : m.begun.pl = m.pl := rfl
@[simp] theorem Mod.begun_bondOut (m : Mod) : m.begun.bondOut = m.bondOut := rfl
@[simp] theorem Mod.begun_regIn (m : Mod) : m.begun.regIn = m.regIn := rfl
@[simp] theorem Mod.begun_regAsk (m : Mod) : m.begun.regAsk = m.regAsk := rfl
@[simp] theorem Mod.begun_regHung (m : Mod) : m.begun.regHung = m.regHung := rfl
@[simp] theorem Mod.begun_ended (m : Mod) : m.begun.ended = m.ended := rfl
@[simp] theorem Mod.begun_dirty (m : Mod) : m.begun.dirty = m.dirty := rfl
@[simp] theorem Mod.begun_base_regs (m : Mod) : m.begun.base.regs = m.base.regs := rfl
@[simp] theorem Mod.begun_base_act (m : Mod) : m.begun.base.act = m.base.act := rfl
@[simp] theorem Mod.begun_base_cfgs (m : Mod) : m.begun.base.cfgs = m.base.cfgs := rfl
@[simp] theorem Mod.begun_base_msix (m : Mod) : m.begun.base.msix = m.base.msix := rfl
@[simp] theorem Mod.begun_base_bar2 (m : Mod) : m.begun.base.bar2 = m.base.bar2 := rfl
@[simp] theorem Mod.begun_base_now (m : Mod) : m.begun.base.now = m.base.now := rfl
@[simp] theorem Mod.begun_base_coreOn (m : Mod) : m.begun.base.coreOn = m.base.coreOn := rfl
@[simp] theorem Mod.begun_base_stamp (m : Mod) : m.begun.base.stamp = m.base.stamp := rfl
@[simp] theorem Mod.begun_base_stampAt (m : Mod) : m.begun.base.stampAt = m.base.stampAt := rfl
@[simp] theorem Mod.begun_base_timers (m : Mod) : m.begun.base.timers = m.base.timers := rfl
@[simp] theorem Mod.begun_base_storms (m : Mod) : m.begun.base.storms = m.base.storms := rfl
@[simp] theorem Mod.begun_base_eqs (m : Mod) : m.begun.base.eqs = m.base.eqs := rfl
@[simp] theorem Mod.begun_base_pend (m : Mod) : m.begun.base.pend = m.base.pend := rfl
@[simp] theorem Mod.begun_base_held (m : Mod) : m.begun.base.held = m.base.held := rfl
@[simp] theorem Mod.begun_base_latches (m : Mod) : m.begun.base.latches = m.base.latches := rfl
@[simp] theorem Mod.begun_base_cntHold (m : Mod) : m.begun.base.cntHold = m.base.cntHold := rfl
@[simp] theorem Mod.begun_base_samples (m : Mod) : m.begun.base.samples = m.base.samples := rfl
@[simp] theorem Mod.begun_base_commit (m : Mod) : m.begun.base.commit = m.base.commit := rfl
@[simp] theorem Mod.begun_base_commitWait (m : Mod) : m.begun.base.commitWait = m.base.commitWait := rfl
@[simp] theorem Mod.begun_base_evq (m : Mod) : m.begun.base.evq = m.base.evq := rfl
@[simp] theorem Mod.begun_base_released (m : Mod) : m.begun.base.released = m.base.released := rfl
@[simp] theorem Mod.begun_base_fatal (m : Mod) : m.begun.base.fatal = m.base.fatal := rfl
@[simp] theorem Mod.begun_base_hung (m : Mod) : m.begun.base.hung = m.base.hung := rfl
@[simp] theorem Mod.begun_base_lates (m : Mod) : m.begun.base.lates = m.base.lates := rfl
@[simp] theorem Mod.begun_base_freeCtr (m : Mod) : m.begun.base.freeCtr = m.base.freeCtr := rfl
@[simp] theorem Mod.timerAt_tags (m : Mod) (k : TimerKey) (d : Nat) : (m.timerAt k d).tags = m.tags := rfl
@[simp] theorem Mod.timerAt_sw (m : Mod) (k : TimerKey) (d : Nat) : (m.timerAt k d).sw = m.sw := rfl
@[simp] theorem Mod.timerAt_dram (m : Mod) (k : TimerKey) (d : Nat) : (m.timerAt k d).dram = m.dram := rfl
@[simp] theorem Mod.timerAt_ord (m : Mod) (k : TimerKey) (d : Nat) : (m.timerAt k d).ord = m.ord := rfl
@[simp] theorem Mod.timerAt_qe (m : Mod) (k : TimerKey) (d : Nat) : (m.timerAt k d).qe = m.qe := rfl
@[simp] theorem Mod.timerAt_hod (m : Mod) (k : TimerKey) (d : Nat) : (m.timerAt k d).hod = m.hod := rfl
@[simp] theorem Mod.timerAt_prk (m : Mod) (k : TimerKey) (d : Nat) : (m.timerAt k d).prk = m.prk := rfl
@[simp] theorem Mod.timerAt_slc (m : Mod) (k : TimerKey) (d : Nat) : (m.timerAt k d).slc = m.slc := rfl
@[simp] theorem Mod.timerAt_margins (m : Mod) (k : TimerKey) (d : Nat) : (m.timerAt k d).margins = m.margins := rfl
@[simp] theorem Mod.timerAt_lanes (m : Mod) (k : TimerKey) (d : Nat) : (m.timerAt k d).lanes = m.lanes := rfl
@[simp] theorem Mod.timerAt_cams (m : Mod) (k : TimerKey) (d : Nat) : (m.timerAt k d).cams = m.cams := rfl
@[simp] theorem Mod.timerAt_bnd (m : Mod) (k : TimerKey) (d : Nat) : (m.timerAt k d).bnd = m.bnd := rfl
@[simp] theorem Mod.timerAt_pl (m : Mod) (k : TimerKey) (d : Nat) : (m.timerAt k d).pl = m.pl := rfl
@[simp] theorem Mod.timerAt_bondOut (m : Mod) (k : TimerKey) (d : Nat) : (m.timerAt k d).bondOut = m.bondOut := rfl
@[simp] theorem Mod.timerAt_regIn (m : Mod) (k : TimerKey) (d : Nat) : (m.timerAt k d).regIn = m.regIn := rfl
@[simp] theorem Mod.timerAt_regAsk (m : Mod) (k : TimerKey) (d : Nat) : (m.timerAt k d).regAsk = m.regAsk := rfl
@[simp] theorem Mod.timerAt_regHung (m : Mod) (k : TimerKey) (d : Nat) : (m.timerAt k d).regHung = m.regHung := rfl
@[simp] theorem Mod.timerAt_ended (m : Mod) (k : TimerKey) (d : Nat) : (m.timerAt k d).ended = m.ended := rfl
@[simp] theorem Mod.timerAt_dirty (m : Mod) (k : TimerKey) (d : Nat) : (m.timerAt k d).dirty = m.dirty := rfl
@[simp] theorem Mod.timerAt_base_regs (m : Mod) (k : TimerKey) (d : Nat) : (m.timerAt k d).base.regs = m.base.regs := rfl
@[simp] theorem Mod.timerAt_base_act (m : Mod) (k : TimerKey) (d : Nat) : (m.timerAt k d).base.act = m.base.act := rfl
@[simp] theorem Mod.timerAt_base_cfgs (m : Mod) (k : TimerKey) (d : Nat) : (m.timerAt k d).base.cfgs = m.base.cfgs := rfl
@[simp] theorem Mod.timerAt_base_msix (m : Mod) (k : TimerKey) (d : Nat) : (m.timerAt k d).base.msix = m.base.msix := rfl
@[simp] theorem Mod.timerAt_base_bar2 (m : Mod) (k : TimerKey) (d : Nat) : (m.timerAt k d).base.bar2 = m.base.bar2 := rfl
@[simp] theorem Mod.timerAt_base_coreOn (m : Mod) (k : TimerKey) (d : Nat) : (m.timerAt k d).base.coreOn = m.base.coreOn := rfl
@[simp] theorem Mod.timerAt_base_stamp (m : Mod) (k : TimerKey) (d : Nat) : (m.timerAt k d).base.stamp = m.base.stamp := rfl
@[simp] theorem Mod.timerAt_base_stampAt (m : Mod) (k : TimerKey) (d : Nat) : (m.timerAt k d).base.stampAt = m.base.stampAt := rfl
@[simp] theorem Mod.timerAt_base_storms (m : Mod) (k : TimerKey) (d : Nat) : (m.timerAt k d).base.storms = m.base.storms := rfl
@[simp] theorem Mod.timerAt_base_eqs (m : Mod) (k : TimerKey) (d : Nat) : (m.timerAt k d).base.eqs = m.base.eqs := rfl
@[simp] theorem Mod.timerAt_base_pend (m : Mod) (k : TimerKey) (d : Nat) : (m.timerAt k d).base.pend = m.base.pend := rfl
@[simp] theorem Mod.timerAt_base_held (m : Mod) (k : TimerKey) (d : Nat) : (m.timerAt k d).base.held = m.base.held := rfl
@[simp] theorem Mod.timerAt_base_latches (m : Mod) (k : TimerKey) (d : Nat) : (m.timerAt k d).base.latches = m.base.latches := rfl
@[simp] theorem Mod.timerAt_base_cntHold (m : Mod) (k : TimerKey) (d : Nat) : (m.timerAt k d).base.cntHold = m.base.cntHold := rfl
@[simp] theorem Mod.timerAt_base_samples (m : Mod) (k : TimerKey) (d : Nat) : (m.timerAt k d).base.samples = m.base.samples := rfl
@[simp] theorem Mod.timerAt_base_commit (m : Mod) (k : TimerKey) (d : Nat) : (m.timerAt k d).base.commit = m.base.commit := rfl
@[simp] theorem Mod.timerAt_base_commitWait (m : Mod) (k : TimerKey) (d : Nat) : (m.timerAt k d).base.commitWait = m.base.commitWait := rfl
@[simp] theorem Mod.timerAt_base_evq (m : Mod) (k : TimerKey) (d : Nat) : (m.timerAt k d).base.evq = m.base.evq := rfl
@[simp] theorem Mod.timerAt_base_released (m : Mod) (k : TimerKey) (d : Nat) : (m.timerAt k d).base.released = m.base.released := rfl
@[simp] theorem Mod.timerAt_base_fatal (m : Mod) (k : TimerKey) (d : Nat) : (m.timerAt k d).base.fatal = m.base.fatal := rfl
@[simp] theorem Mod.timerAt_base_hung (m : Mod) (k : TimerKey) (d : Nat) : (m.timerAt k d).base.hung = m.base.hung := rfl
@[simp] theorem Mod.timerAt_base_lates (m : Mod) (k : TimerKey) (d : Nat) : (m.timerAt k d).base.lates = m.base.lates := rfl
@[simp] theorem Mod.timerAt_base_freeCtr (m : Mod) (k : TimerKey) (d : Nat) : (m.timerAt k d).base.freeCtr = m.base.freeCtr := rfl
@[simp] theorem Mod.timerAt_base_out (m : Mod) (k : TimerKey) (d : Nat) : (m.timerAt k d).base.out = m.base.out := rfl
@[simp] theorem Mod.timerAt_now (m : Mod) (k : TimerKey) (d : Nat) : (m.timerAt k d).base.now = max m.base.now d := rfl

/-! ### What registers read as after them -/

@[simp] theorem Base.raise_word (b : Base) (e : Ev) (a : Nat) : (b.raise e).word a = b.word a := rfl
@[simp] theorem Base.raise_rd (b : Base) (e : Ev) (a : Nat) (f : Fld) : (b.raise e).rd a f = b.rd a f := rfl
@[simp] theorem Base.raise_isSet (b : Base) (e : Ev) (a : Nat) (f : Fld) : (b.raise e).isSet a f = b.isSet a f := rfl
@[simp] theorem Base.emit_word (b : Base) (x : Out) (a : Nat) : (b.emit x).word a = b.word a := rfl
@[simp] theorem Base.emit_rd (b : Base) (x : Out) (a : Nat) (f : Fld) : (b.emit x).rd a f = b.rd a f := rfl
@[simp] theorem Base.emit_isSet (b : Base) (x : Out) (a : Nat) (f : Fld) : (b.emit x).isSet a f = b.isSet a f := rfl
@[simp] theorem Base.arm_word (b : Base) (k : TimerKey) (n : Nat) (a : Nat) : (b.arm k n).word a = b.word a := rfl
@[simp] theorem Base.arm_rd (b : Base) (k : TimerKey) (n : Nat) (a : Nat) (f : Fld) : (b.arm k n).rd a f = b.rd a f := rfl
@[simp] theorem Base.arm_isSet (b : Base) (k : TimerKey) (n : Nat) (a : Nat) (f : Fld) : (b.arm k n).isSet a f = b.isSet a f := rfl
@[simp] theorem Base.disarm_word (b : Base) (k : TimerKey) (a : Nat) : (b.disarm k).word a = b.word a := rfl
@[simp] theorem Base.disarm_rd (b : Base) (k : TimerKey) (a : Nat) (f : Fld) : (b.disarm k).rd a f = b.rd a f := rfl
@[simp] theorem Base.disarm_isSet (b : Base) (k : TimerKey) (a : Nat) (f : Fld) : (b.disarm k).isSet a f = b.isSet a f := rfl
@[simp] theorem Mod.begun_word (m : Mod) (a : Nat) : m.begun.base.word a = m.base.word a := rfl
@[simp] theorem Mod.begun_rd (m : Mod) (a : Nat) (f : Fld) : m.begun.base.rd a f = m.base.rd a f := rfl
@[simp] theorem Mod.begun_isSet (m : Mod) (a : Nat) (f : Fld) : m.begun.base.isSet a f = m.base.isSet a f := rfl
@[simp] theorem Mod.begun_stage (m : Mod) : m.begun.base.stage = m.base.stage := rfl
@[simp] theorem Mod.begun_due (m : Mod) (k : TimerKey) : m.begun.base.due k = m.base.due k := rfl
@[simp] theorem Mod.begun_begun (m : Mod) : m.begun.begun = m.begun := rfl
@[simp] theorem Mod.timerAt_word (m : Mod) (k : TimerKey) (d a : Nat) : (m.timerAt k d).base.word a = m.base.word a := rfl
@[simp] theorem Mod.timerAt_rd (m : Mod) (k : TimerKey) (d a : Nat) (f : Fld) : (m.timerAt k d).base.rd a f = m.base.rd a f := rfl
@[simp] theorem Mod.timerAt_isSet (m : Mod) (k : TimerKey) (d a : Nat) (f : Fld) :
    (m.timerAt k d).base.isSet a f = m.base.isSet a f := rfl
@[simp] theorem Base.now_only_word (b : Base) (n a : Nat) : ({ b with now := n } : Base).word a = b.word a := rfl

/-! ### What the updates change -/

@[simp] theorem Base.raise_evq (b : Base) (e : Ev) :
    (b.raise e).evq = b.evq ++ [if onePerCause e.group then { e with cause := e.bit } else e] := rfl
@[simp] theorem Base.emit_out (b : Base) (x : Out) : (b.emit x).out = b.out ++ [x] := rfl

end Sys2Proof.Machine
end

