-- ==== Sys2Proof/Laws/Run.lean ====
section
/-! SUPPORT. The laws of the frame in which every command acts: with power a command ends by `State.ends`, without it nothing happens,
the queue stands, and no raised event is left unreported. -/

namespace Sys2Proof.Machine

theorem State.run_powered (s : State) (op : Mod → Mod) (h : s.mod.pl.powered = true) : s.run op = s.ends (op s.mod.begun) := by
  unfold State.run Mod.run State.ends
  simp only [h, if_true, Mod.begun]

theorem State.run_off (s : State) (op : Mod → Mod) (h : s.mod.pl.powered = false) : s.run op = { s with mod := s.mod.begun } := by
  unfold State.run Mod.run
  simp only [h, Mod.begun, Bool.false_eq_true, if_false]

@[simp] theorem State.run_pending (s : State) (op : Mod → Mod) : (s.run op).pending = s.pending := by simp only [State.run]
@[simp] theorem State.ends_pending (s : State) (m : Mod) : (s.ends m).pending = s.pending := by simp only [State.ends]
@[simp] theorem State.ends_mod (s : State) (m : Mod) : (s.ends m).mod = Mod.settle s.mod.begun m := by simp only [State.ends]

/-- Reporting leaves no event behind (R300). -/
theorem Base.flushN_evq (n : Nat) (b : Base) : (b.flushN n).evq = [] := by
  induction n generalizing b with
  | zero => rfl
  | succ n ih =>
    unfold Base.flushN
    split
    · rename_i h; exact List.isEmpty_iff.1 h
    · exact ih _

theorem Base.flush_evq (b : Base) : b.flush.evq = [] := Base.flushN_evq _ _

theorem Mod.reportAll_evq (m : Mod) : m.reportAll.base.evq = [] := by
  unfold Mod.reportAll
  simp only
  split
  · exact Base.flush_evq _
  · exact Base.flush_evq _

theorem Mod.settle_evq (before m : Mod) : (Mod.settle before m).base.evq = [] := Mod.reportAll_evq _

/-- A command that the frame runs leaves the state reported, if it found it so. -/
theorem State.run_reported (s : State) (op : Mod → Mod) (h : s.reported = true) : (s.run op).reported = true := by
  cases hp : s.mod.pl.powered with
  | true => rw [State.run_powered s op hp, State.reported, State.ends_mod, Mod.settle_evq]; rfl
  | false => rw [State.run_off s op hp]; exact h

/-- The three conditions under which a command acts on the die or its core. -/
theorem State.dieLive_iff (s : State) :
    s.dieLive = true ↔ s.mod.pl.powered = true ∧ s.mod.pl.dieOn = true ∧ s.mod.base.stage ≠ 8 := by
  simp [State.dieLive, and_assoc]

theorem State.coreLive_iff (s : State) : s.coreLive = true ↔ s.dieLive = true ∧ s.mod.base.coreOn = true := by
  simp [State.coreLive]

/-- With a live die, a command of the die acts. -/
theorem State.run_onDie (s : State) (f : Mod → Mod) (h : s.dieLive = true) :
    s.run (fun m => m.onDie f) = s.ends (f s.mod.begun) := by
  obtain ⟨h1, h2, h3⟩ := (State.dieLive_iff s).1 h
  rw [State.run_powered s _ h1]
  simp [Mod.onDie, h2, h3]

/-- With a live core, a command of the core acts. -/
theorem State.run_onCore (s : State) (f : Mod → Mod) (h : s.coreLive = true) :
    s.run (fun m => m.onCore f) = s.ends (f s.mod.begun) := by
  obtain ⟨h0, h4⟩ := (State.coreLive_iff s).1 h
  obtain ⟨h1, h2, h3⟩ := (State.dieLive_iff s).1 h0
  rw [State.run_powered s _ h1]
  simp [Mod.onCore, h2, h3, h4]

/-- An armed timer that ends acts at the time that it was due, or later. -/
theorem State.run_onTimer (s : State) (k : TimerKey) (d : Nat) (f : Mod → Mod) (h : s.mod.pl.powered = true)
    (hd : s.mod.base.due k = some d) : s.run (fun m => m.onTimer k f) = s.ends (f (s.mod.begun.timerAt k d)) := by
  rw [State.run_powered s _ h]
  simp only [Mod.onTimer, Mod.begun_due, hd, Mod.timerAt]

theorem State.run_onCoreTimer (s : State) (k : TimerKey) (d : Nat) (f : Mod → Mod) (h : s.coreLive = true)
    (hd : s.mod.base.due k = some d) : s.run (fun m => m.onCoreTimer k f) = s.ends (f (s.mod.begun.timerAt k d)) := by
  obtain ⟨h0, h4⟩ := (State.coreLive_iff s).1 h
  obtain ⟨h1, h2, h3⟩ := (State.dieLive_iff s).1 h0
  rw [State.run_powered s _ h1]
  simp only [Mod.onCoreTimer, Mod.onCore, Mod.onTimer, Mod.begun_pl, Mod.begun_stage, Mod.begun_base_coreOn, Mod.begun_due, h2, h4, hd,
    Mod.timerAt, Bool.true_and, Bool.and_true, bne_iff_ne, ne_eq, h3, not_false_eq_true, if_true]

/-- A timer that is not armed does not end. -/
theorem Mod.onTimer_idle (m : Mod) (k : TimerKey) (f : Mod → Mod) (h : m.base.due k = none) : m.onTimer k f = m := by
  simp [Mod.onTimer, h]

end Sys2Proof.Machine
end

