-- ==== Sys2Proof/Laws/Access.lean ====
section
/-! SUPPORT. The ways of an access to the control window: what `Mod.reach` answers, from the conditions that `State.lets`, `State.refuses`,
`State.denies` and `State.hangs` put on the state and the access. -/

namespace Sys2Proof.Machine

theorem State.check_eq (s : State) (w : Who) (off len : Nat) (wr : Bool) :
    (if (s.drained w).base.unguarded w then ((s.drained w).base, none)
     else (s.drained w).base.guard (whoGuard w) ((s.drained w).base.ctlAccess w off len none wr)) = s.check w off len wr := rfl

/-- The whole of the way, by the guard's decision and the size. -/
theorem State.reach_eq (s : State) (w : Who) (off len : Nat) (wr : Bool) :
    s.mod.begun.reach w off len none wr =
      if (s.drained w).base.hangs w off then
        ({ s.drained w with base := { (s.drained w).base with hung := (s.drained w).base.hung ++ [(w, off, wr)] } }, .hang)
      else if (s.check w off len wr).2.isSome then (s.found w off len wr, .denied)
      else if accessSized off len then (s.found w off len wr, .go)
      else (s.found w off len wr, .refused (if len < 4 then 0 else if len = 4 then 1 else if len = 8 then 2 else 3)) := by
  unfold Mod.reach State.found accessSized
  rw [show s.mod.begun.drainFor w = s.drained w from rfl]
  by_cases hh : (s.drained w).base.hangs w off = true
  · simp only [hh, if_true]
  · simp only [hh]
    rw [show (if (s.drained w).base.unguarded w = true then ((s.drained w).base, none)
      else (s.drained w).base.guard (whoGuard w) ((s.drained w).base.ctlAccess w off len none wr)) = s.check w off len wr from rfl]
    by_cases hd : (s.check w off len wr).2.isSome = true
    · simp [hd]
    · by_cases h4 : len = 4 ∧ off % 4 = 0
      · simp [h4.1, h4.2]
      · by_cases h8 : len = 8 ∧ off % 8 = 0
        · simp [h8.1, h8.2]
        · simp only [hd]
          have e4 : (decide (len = 4) && decide (off % 4 = 0)) = false := by simpa using h4
          have e8 : (decide (len = 8) && decide (off % 8 = 0)) = false := by simpa using h8
          simp [e4, e8]

/-- An access that the conditions let through is answered with `go`. -/
theorem State.reach_go {s : State} {w : Who} {off len : Nat} {wr : Bool} (h : s.lets w off len wr = true) :
    s.mod.begun.reach w off len none wr = (s.found w off len wr, .go) := by
  rw [State.reach_eq]
  simp only [State.lets, State.allows, Bool.and_eq_true, Bool.not_eq_true', Option.isNone_iff_eq_none] at h
  simp [h.1.1.2, h.1.2, h.2]

/-- One that its guard denies. -/
theorem State.reach_denied {s : State} {w : Who} {off len : Nat} {wr : Bool} (h : s.denies w off len wr = true) :
    s.mod.begun.reach w off len none wr = (s.found w off len wr, .denied) := by
  rw [State.reach_eq]
  simp only [State.denies, Bool.and_eq_true, Bool.not_eq_true'] at h
  simp [h.1.2, h.2]

/-- One whose size or alignment R16 refuses. -/
theorem State.reach_refused {s : State} {w : Who} {off len : Nat} {wr : Bool} (h : s.refuses w off len wr = true) :
    s.mod.begun.reach w off len none wr =
      (s.found w off len wr, .refused (if len < 4 then 0 else if len = 4 then 1 else if len = 8 then 2 else 3)) := by
  rw [State.reach_eq]
  simp only [State.refuses, State.allows, Bool.and_eq_true, Bool.not_eq_true', Option.isNone_iff_eq_none] at h
  simp [h.1.1.2, h.1.2, h.2]

/-- One that hangs. -/
theorem State.reach_hangs {s : State} {w : Who} {off : Nat} (len : Nat) (wr : Bool) (h : s.hangs w off = true) :
    s.mod.begun.reach w off len none wr =
      ({ s.drained w with base := { (s.drained w).base with hung := (s.drained w).base.hung ++ [(w, off, wr)] } }, .hang) := by
  rw [State.reach_eq]
  simp only [State.hangs, Bool.and_eq_true] at h
  simp [h.2]

/-! ### Rows that write or read a register -/

theorem State.asks_of_lets {s : State} {w : Who} {off len : Nat} {wr : Bool} (h : s.lets w off len wr = true) : s.asks w = true := by
  simp only [State.lets, State.allows, Bool.and_eq_true] at h
  exact h.1.1.1

/-- A row that asks for an access makes it, by way of `rowWrite`. -/
theorem Mod.rowWrite_asks {s : State} {w : Who} (h : s.asks w = true) (off : Nat) (wide : Bool) (v : Nat) :
    s.mod.begun.rowWrite w off wide v = s.mod.begun.regWrite w off wide v := by
  simp only [State.asks, Bool.and_eq_true, Bool.not_eq_true'] at h
  unfold Mod.rowWrite
  rw [if_neg (by rw [h.1.2]; simp), if_pos h.2]

theorem Mod.rowRead_asks {s : State} {w : Who} (h : s.asks w = true) (off : Nat) (wide : Bool) :
    s.mod.begun.rowRead w off wide = s.mod.begun.regRead w off wide := by
  simp only [State.asks, Bool.and_eq_true, Bool.not_eq_true'] at h
  unfold Mod.rowRead
  rw [if_neg (by rw [h.1.2]; simp), if_pos h.2]

theorem Mod.rowRefused_asks {s : State} {w : Who} (h : s.asks w = true) (off : Nat) (wr : Bool) (width : Nat) :
    s.mod.begun.rowRefused w off wr width = s.mod.begun.refusedAccess w off wr width := by
  simp only [State.asks, Bool.and_eq_true, Bool.not_eq_true'] at h
  unfold Mod.rowRefused
  rw [if_neg (by rw [h.1.2]; simp), if_pos h.2]

theorem State.powered_of_asks {s : State} {w : Who} (h : s.asks w = true) : s.mod.pl.powered = true := by
  simp only [State.asks, Bool.and_eq_true] at h
  exact h.1.1

/-- A write that reaches the decoder lands in the module found. -/
theorem State.run_land {s : State} {w : Who} {off : Nat} (wide : Bool) (v : Nat)
    (h : s.lets w off (if wide then 8 else 4) true = true) :
    s.run (fun m => m.rowWrite w off wide v) =
      s.ends ((s.found w off (if wide then 8 else 4) true).landWrite w off (if wide then 8 else 4) v) := by
  rw [State.run_powered s _ (State.powered_of_asks (State.asks_of_lets h))]
  rw [Mod.rowWrite_asks (State.asks_of_lets h), Mod.regWrite, Mod.writeAccess, State.reach_go h]

@[simp] theorem Base.dropHold_stage (b : Base) (off : Nat) : (b.dropHold off).stage = b.stage := by
  unfold Base.dropHold
  split
  · split <;> rfl
  · rfl

/-- A 32-bit write that reaches a register which it may write (R13, R380): the register's own rule makes the module that the command ends
with. A peek before stage READY is none of these (R327). -/
theorem State.run_writes {s : State} {w : Who} {off : Nat} {m : Mod} {h : RegHit} (hw : s.writes w off m h) (v : Nat)
    (hp : ¬(off = Reg.PRK_PEEK_IDX ∧ bitOf v 31 = true ∧ m.base.stage ≠ 6)) :
    s.run (fun m => m.rowWrite w off false v) = s.ends (m.wordWrite w off h v) := by
  obtain ⟨hl, hr, rfl, hs⟩ := hw
  have hl' : s.lets w off (if false = true then 8 else 4) true = true := hl
  rw [State.run_land false v hl', Mod.landWrite, if_neg, Mod.decodeWrite]
  · unfold State.atWrite at hs ⊢
    simp only [Bool.false_eq_true, if_false, hr] at hs ⊢
    rw [if_neg (by decide), hs]
  · simpa [State.atWrite, and_assoc] using hp

/-- The same at every other offset than that of PRK_PEEK_IDX. -/
theorem State.run_writes_at {s : State} {w : Who} {off : Nat} {m : Mod} {h : RegHit} (hw : s.writes w off m h) (v : Nat)
    (hp : off ≠ Reg.PRK_PEEK_IDX) : s.run (fun m => m.rowWrite w off false v) = s.ends (m.wordWrite w off h v) :=
  State.run_writes hw v (fun x => hp x.1)

/-- A 64-bit write that reaches the decoder. -/
theorem State.run_wide {s : State} {w : Who} {off : Nat} {m : Mod} (hw : s.reaches w off 8 true m) (v : Nat)
    (hp : off ≠ Reg.PRK_PEEK_IDX) : s.run (fun m => m.rowWrite w off true v) = s.ends (m.decodeWide w off v) := by
  obtain ⟨hl, rfl⟩ := hw
  rw [State.run_land true v (by exact hl), Mod.landWrite, if_neg (by simp [hp]), if_pos (by rfl)]
  rfl

/-- A read that reaches the decoder. -/
theorem State.run_read {s : State} {w : Who} {off : Nat} {m : Mod} (hr : s.reaches w off 4 false m) :
    s.run (fun m => m.rowRead w off false) =
      s.ends { (m.readWord w off false).1 with
        base := (m.readWord w off false).1.base.emit (.readData w (BitVec.ofNat 64 (m.readWord w off false).2)) } := by
  obtain ⟨hl, rfl⟩ := hr
  rw [State.run_powered s _ (State.powered_of_asks (State.asks_of_lets hl)), Mod.rowRead_asks (State.asks_of_lets hl), Mod.regRead,
    Mod.readAccess, if_neg (by decide), State.reach_go hl]
  simp only [Mod.landRead, if_neg (show ¬(4 = 8) by decide)]

/-- An access that R16 refuses: a read gets all ones. -/
theorem State.run_refused {s : State} {w : Who} {off : Nat} {wr : Bool} {width : Nat} (h : s.refuses w off (accessBytes width) wr = true) :
    s.run (fun m => m.rowRefused w off wr width) = s.ends
      { s.found w off (accessBytes width) wr with
        base := if wr then (s.found w off (accessBytes width) wr).base.badAccess w off width wr
          else ((s.found w off (accessBytes width) wr).base.badAccess w off width wr).emit
            (.readData w (BitVec.ofNat 64 (2 ^ (8 * accessBytes width) - 1))) } := by
  have ha : s.asks w = true := by
    simp only [State.refuses, State.allows, Bool.and_eq_true] at h
    exact h.1.1.1
  rw [State.run_powered s _ (State.powered_of_asks ha), Mod.rowRefused_asks ha, Mod.refusedAccess]
  simp only [State.reach_refused h]

end Sys2Proof.Machine
end

