-- ==== Sys2Proof/Laws/Memory.lean ====
section
/-! SUPPORT. The laws of park DRAM and management memory: every memory operation keeps the canonical form, a byte reads as it was last
written, and a write leaves every other byte. -/

namespace Sys2Proof.Machine

/-- No entry of a sorted list lies at or below its bound. -/
theorem memSorted_lookup (m : List Host.Cell) (l : Nat) (h : memSorted (some l) m = true) {a : Nat} (ha : a ≤ l) :
    m.lookup a = none := by
  induction m generalizing l with
  | nil => rfl
  | cons x t ih =>
    obtain ⟨b, w⟩ := x
    simp only [memSorted, Bool.and_eq_true, decide_eq_true_eq] at h
    have hb : a ≠ b := by omega
    rw [List.lookup_cons, beq_eq_false_iff_ne.2 hb]
    exact ih b h.2 (by omega)

/-- A bound may be lowered. -/
theorem memSorted_weaken (m : List Host.Cell) (lo lo' : Option Nat) (h : memSorted lo m = true)
    (hle : ∀ l', lo' = some l' → ∃ l, lo = some l ∧ l' ≤ l) : memSorted lo' m = true := by
  cases m with
  | nil => rfl
  | cons x t =>
    obtain ⟨b, w⟩ := x
    simp only [memSorted, Bool.and_eq_true] at h ⊢
    refine ⟨⟨?_, h.1.2⟩, h.2⟩
    cases lo' with
    | none => rfl
    | some l' =>
      obtain ⟨l, rfl, hl⟩ := hle l' rfl
      have := h.1.1
      simp only [decide_eq_true_eq] at this ⊢
      omega

/-- Putting a byte keeps the canonical form above any bound below the address. -/
theorem memSorted_memPut (m : List Host.Cell) (lo : Option Nat) (a : Nat) (v : Byte) (h : memSorted lo m = true)
    (hlo : ∀ l, lo = some l → l < a) : memSorted lo (memPut m a v) = true := by
  induction m generalizing lo with
  | nil =>
    by_cases hv : v = memDefault
    · simp [memPut, hv, memSorted]
    · cases lo with
      | none => simp [memPut, hv, memSorted]
      | some l => simpa [memPut, hv, memSorted] using hlo l rfl
  | cons x t ih =>
    obtain ⟨b, w⟩ := x
    have h0 := h
    simp only [memSorted, Bool.and_eq_true] at h
    obtain ⟨⟨hb, hw⟩, ht⟩ := h
    have head : ∀ v, v ≠ memDefault → ∀ s, memSorted (some a) s = true → memSorted lo ((a, v) :: s) = true := by
      intro v hv s hs
      simp only [memSorted, Bool.and_eq_true]
      refine ⟨⟨?_, by simpa using hv⟩, hs⟩
      cases lo with
      | none => rfl
      | some l => simpa using hlo l rfl
    simp only [memPut]
    by_cases hab : a = b
    · subst hab
      rw [if_pos rfl]
      by_cases hv : v = memDefault
      · rw [if_pos hv]
        exact memSorted_weaken t (some a) lo ht (fun l' e => ⟨a, rfl, (hlo l' e).le⟩)
      · rw [if_neg hv]
        exact head v hv t ht
    · rw [if_neg hab]
      by_cases hlt : a < b
      · rw [if_pos hlt]
        by_cases hv : v = memDefault
        · rw [if_pos hv]; exact h0
        · rw [if_neg hv]
          refine head v hv _ ?_
          simp only [memSorted, Bool.and_eq_true]
          exact ⟨⟨by simpa using hlt, hw⟩, ht⟩
      · rw [if_neg hlt]
        simp only [memSorted, Bool.and_eq_true]
        exact ⟨⟨hb, hw⟩, ih (some b) ht (by intro l e; cases e; omega)⟩

/-- Every put keeps the canonical form. -/
theorem wf_memPut (m : List Host.Cell) (a : Nat) (v : Byte) (h : Memory.wf m = true) : Memory.wf (memPut m a v) = true :=
  memSorted_memPut m none a v h (by intro l e; cases e)

theorem wf_memPutList (m : List Host.Cell) (a : Nat) (vs : List Byte) (h : Memory.wf m = true) :
    Memory.wf (memPutList m a vs) = true := by
  induction vs generalizing m a with
  | nil => exact h
  | cons v vs ih => exact ih _ _ (wf_memPut m a v h)

/-- A write of park DRAM keeps the canonical form. -/
theorem wf_write (d : Dram) (a : Nat) (bs : List Byte) (p : Bool) (h : Memory.wf d.mem = true) :
    Memory.wf (d.write a bs p).mem = true := wf_memPutList _ _ _ h

theorem lookup_memPut (m : List Host.Cell) (lo : Option Nat) (a c : Nat) (v : Byte) (h : memSorted lo m = true)
    : (memPut m a v).lookup c = if c = a then (if v = memDefault then none else some v) else m.lookup c := by
  induction m generalizing lo with
  | nil =>
    by_cases hv : v = memDefault <;> by_cases hc : c = a <;> simp [memPut, hv, hc, List.lookup, beq_eq_false_iff_ne.2]
  | cons x t ih =>
    obtain ⟨b, w⟩ := x
    simp only [memSorted, Bool.and_eq_true] at h
    have ht := h.2
    have hnone : ∀ {y}, y ≤ b → t.lookup y = none := fun hy => memSorted_lookup t b ht hy
    simp only [memPut]
    by_cases hab : a = b
    · subst hab
      rw [if_pos rfl]
      by_cases hv : v = memDefault <;> by_cases hc : c = a <;>
        simp [hv, hc, List.lookup_cons, beq_eq_false_iff_ne.2, hnone le_rfl]
    · rw [if_neg hab]
      by_cases hlt : a < b
      · rw [if_pos hlt]
        by_cases hv : v = memDefault <;> by_cases hc : c = a
        · simp [hv, hc, List.lookup_cons, beq_eq_false_iff_ne.2 hab, hnone hlt.le]
        · simp [hv, hc]
        · simp [hv, hc]
        · simp [hv, hc, List.lookup_cons, beq_eq_false_iff_ne.2 hc]
      · rw [if_neg hlt]
        by_cases hcb : c = b
        · subst hcb
          simp [Ne.symm hab]
        · simp [List.lookup_cons, beq_eq_false_iff_ne.2 hcb, ih (some b) ht]

/-- A byte reads as it was put; every other byte stands. -/
theorem memGet_memPut (m : List Host.Cell) (a c : Nat) (v : Byte) (h : Memory.wf m = true) :
    memGet (memPut m a v) c = if c = a then v else memGet m c := by
  unfold memGet
  rw [lookup_memPut m none a c v h]
  by_cases hc : c = a
  · by_cases hv : v = memDefault <;> simp [hc, hv]
  · simp [hc]

/-- A written run reads as its bytes; every byte outside it stands. -/
theorem memGet_memPutList (m : List Host.Cell) (a c : Nat) (vs : List Byte) (h : Memory.wf m = true) :
    memGet (memPutList m a vs) c = if a ≤ c ∧ c < a + vs.length then vs.getD (c - a) memDefault else memGet m c := by
  induction vs generalizing m a with
  | nil => simp only [memPutList, List.length_nil]; rw [if_neg (by omega)]
  | cons v vs ih =>
    rw [memPutList, ih _ _ (wf_memPut m a v h), memGet_memPut m a c v h, List.length_cons]
    by_cases hca : c = a
    · subst hca
      rw [if_neg (by omega), if_pos rfl, if_pos (by omega)]
      simp
    · by_cases hin : a + 1 ≤ c ∧ c < a + 1 + vs.length
      · rw [if_pos hin, if_pos (by omega)]
        have : c - a = (c - (a + 1)) + 1 := by omega
        rw [this, List.getD_cons_succ]
      · rw [if_neg hin, if_neg hca, if_neg (by omega)]

end Sys2Proof.Machine
end

