-- ==== Sys2Proof/Laws/Regs.lean ====
section
/-! SUPPORT. The laws of the register file and of register fields: what a read gives after a write to the same field, to another field
of the register and to another register. -/

namespace Sys2Proof.Machine

/-! ### The register file -/

theorem RegFile.lookup_set (r : RegFile) (a b : Nat) (v : W32) :
    (r.set a v).lookup b = if b = a then some v else r.lookup b := by
  induction r with
  | nil => by_cases h : b = a <;> simp [RegFile.set, List.lookup, h, beq_eq_false_iff_ne.2]
  | cons x t ih =>
    obtain ⟨c, w⟩ := x
    simp only [RegFile.set]
    by_cases hac : a = c
    · subst hac
      by_cases h : b = a <;> simp [List.lookup_cons, h, beq_eq_false_iff_ne.2]
    · rw [if_neg hac]
      by_cases hlt : a < c
      · rw [if_pos hlt]
        by_cases h : b = a <;> simp [List.lookup_cons, h, beq_eq_false_iff_ne.2]
      · rw [if_neg hlt]
        by_cases hbc : b = c
        · subst hbc
          simp [Ne.symm hac]
        · simp [List.lookup_cons, beq_eq_false_iff_ne.2 hbc, ih]

@[simp] theorem RegFile.get_set_same (r : RegFile) (a : Nat) (v : W32) : (r.set a v).get a = v := by
  simp [RegFile.get, RegFile.lookup_set]

theorem RegFile.get_set_ne (r : RegFile) {a b : Nat} (v : W32) (h : b ≠ a) : (r.set a v).get b = r.get b := by
  simp [RegFile.get, RegFile.lookup_set, h]

@[simp] theorem Base.word_setWord_same (b : Base) (a : Nat) (v : W32) : (b.setWord a v).word a = v :=
  RegFile.get_set_same _ _ _

theorem Base.word_setWord_ne (b : Base) {a c : Nat} (v : W32) (h : c ≠ a) : (b.setWord a v).word c = b.word c :=
  RegFile.get_set_ne _ _ h

/-! ### Bit fields of numbers -/

theorem bits_lt (v : Nat) (f : Fld) : bits v f < 2 ^ f.w := Nat.mod_lt _ (Nat.two_pow_pos _)

/-- A value is what lies above a field, the field, and what lies below it. -/
theorem bits_split (v : Nat) (f : Fld) :
    v = (v / 2 ^ (f.lo + f.w)) * 2 ^ (f.lo + f.w) + bits v f * 2 ^ f.lo + v % 2 ^ f.lo := by
  unfold bits
  have h1 := Nat.div_add_mod v (2 ^ f.lo)
  have h2 := Nat.div_add_mod (v / 2 ^ f.lo) (2 ^ f.w)
  rw [Nat.div_div_eq_div_mul, ← Nat.pow_add] at h2
  calc v = 2 ^ f.lo * (v / 2 ^ f.lo) + v % 2 ^ f.lo := h1.symm
    _ = 2 ^ f.lo * (2 ^ f.w * (v / 2 ^ (f.lo + f.w)) + v / 2 ^ f.lo % 2 ^ f.w) + v % 2 ^ f.lo := by rw [h2]
    _ = _ := by rw [Nat.pow_add]; ring

theorem putBits_split (v : Nat) (f : Fld) (x : Nat) :
    putBits v f x = (v / 2 ^ (f.lo + f.w)) * 2 ^ (f.lo + f.w) + (x % 2 ^ f.w) * 2 ^ f.lo + v % 2 ^ f.lo := by
  have h := bits_split v f
  unfold putBits
  generalize bits v f * 2 ^ f.lo = y at *
  generalize v / 2 ^ (f.lo + f.w) * 2 ^ (f.lo + f.w) = z at *
  omega

theorem bits_of_split (q r l : Nat) (f : Fld) (hr : r < 2 ^ f.w) (hl : l < 2 ^ f.lo) :
    bits (q * 2 ^ (f.lo + f.w) + r * 2 ^ f.lo + l) f = r := by
  unfold bits
  have : q * 2 ^ (f.lo + f.w) + r * 2 ^ f.lo + l = l + 2 ^ f.lo * (r + 2 ^ f.w * q) := by rw [Nat.pow_add]; ring
  rw [this, Nat.add_mul_div_left _ _ (Nat.two_pow_pos _), Nat.div_eq_of_lt hl, Nat.zero_add, Nat.add_mul_mod_self_left,
    Nat.mod_eq_of_lt hr]

/-- A field reads as what was put there. -/
@[simp] theorem bits_putBits_same (v : Nat) (f : Fld) (x : Nat) : bits (putBits v f x) f = x % 2 ^ f.w := by
  rw [putBits_split]
  exact bits_of_split _ _ _ _ (Nat.mod_lt _ (Nat.two_pow_pos _)) (Nat.mod_lt _ (Nat.two_pow_pos _))

theorem bits_testBit (v : Nat) (f : Fld) (i : Nat) : (bits v f).testBit i = (decide (i < f.w) && v.testBit (f.lo + i)) := by
  unfold bits
  rw [Nat.testBit_mod_two_pow, Nat.testBit_div_two_pow, Nat.add_comm]

theorem putBits_testBit (v : Nat) (f : Fld) (x i : Nat) :
    (putBits v f x).testBit i =
      if f.lo ≤ i ∧ i < f.lo + f.w then x.testBit (i - f.lo) else v.testBit i := by
  rw [putBits_split]
  have hl : v % 2 ^ f.lo < 2 ^ f.lo := Nat.mod_lt _ (Nat.two_pow_pos _)
  have hx : x % 2 ^ f.w < 2 ^ f.w := Nat.mod_lt _ (Nat.two_pow_pos _)
  have e : v / 2 ^ (f.lo + f.w) * 2 ^ (f.lo + f.w) + x % 2 ^ f.w * 2 ^ f.lo + v % 2 ^ f.lo
      = 2 ^ f.lo * (2 ^ f.w * (v / 2 ^ (f.lo + f.w)) + x % 2 ^ f.w) + v % 2 ^ f.lo := by rw [Nat.pow_add]; ring
  rw [e, Nat.testBit_two_pow_mul_add _ hl]
  by_cases h1 : i < f.lo
  · rw [if_pos h1, if_neg (by omega), Nat.testBit_mod_two_pow]
    simp [h1]
  · rw [if_neg h1, Nat.testBit_two_pow_mul_add _ hx]
    by_cases h2 : i - f.lo < f.w
    · rw [if_pos h2, if_pos (by omega), Nat.testBit_mod_two_pow]
      simp [h2]
    · rw [if_neg h2, if_neg (by omega), Nat.testBit_div_two_pow]
      congr 1
      omega

/-- Putting a field leaves a field apart from it. -/
theorem bits_putBits_apart (v : Nat) (f g : Fld) (x : Nat) (h : f.lo + f.w ≤ g.lo ∨ g.lo + g.w ≤ f.lo) :
    bits (putBits v f x) g = bits v g := by
  apply Nat.eq_of_testBit_eq
  intro i
  rw [bits_testBit, bits_testBit, putBits_testBit]
  by_cases hi : i < g.w
  · rw [if_neg (by omega)]
  · simp [hi]

/-- A put field keeps a value within its width. -/
theorem putBits_lt (v : Nat) (f : Fld) (x n : Nat) (hv : v < 2 ^ n) (hf : f.lo + f.w ≤ n) : putBits v f x < 2 ^ n := by
  apply Nat.lt_pow_two_of_testBit
  intro i hi
  rw [putBits_testBit, if_neg (by omega)]
  exact Nat.testBit_lt_two_pow (lt_of_lt_of_le hv (Nat.pow_le_pow_right (by omega) hi))

/-! ### Register fields -/

/-- A write of a field touches the register file alone. -/
theorem Base.wr_only (b : Base) (a : Nat) (f : Fld) (v : Nat) : ∃ r, b.wr a f v = { b with regs := r } := by
  unfold Base.wr Base.setWord64 Base.setWord
  split
  · exact ⟨_, rfl⟩
  · split <;> exact ⟨_, rfl⟩

/-- A field of a 32-bit register reads as it was written. -/
theorem Base.rd_wr_same (b : Base) (a : Nat) (f : Fld) (v : Nat) (h : f.lo + f.w ≤ 32) : (b.wr a f v).rd a f = v % 2 ^ f.w := by
  unfold Base.wr Base.rd
  rw [if_pos h, if_pos h, Base.word_setWord_same, BitVec.toNat_ofNat,
    Nat.mod_eq_of_lt (putBits_lt _ _ _ 32 (BitVec.isLt _) h), bits_putBits_same]

/-- Another field of the same 32-bit register stands. -/
theorem Base.rd_wr_apart (b : Base) (a : Nat) (f g : Fld) (v : Nat) (h : f.lo + f.w ≤ 32) (h' : g.lo + g.w ≤ 32)
    (ap : f.lo + f.w ≤ g.lo ∨ g.lo + g.w ≤ f.lo) : (b.wr a f v).rd a g = b.rd a g := by
  unfold Base.wr Base.rd
  rw [if_pos h, if_pos h', if_pos h', Base.word_setWord_same, BitVec.toNat_ofNat,
    Nat.mod_eq_of_lt (putBits_lt _ _ _ 32 (BitVec.isLt _) h), bits_putBits_apart _ _ _ _ ap]

/-- A word of another register stands. -/
theorem Base.word_wr_ne (b : Base) {a c : Nat} (f : Fld) (v : Nat) (h : c ≠ a) (h' : f.lo + f.w ≤ 32 ∨ c ≠ a + 4) :
    (b.wr a f v).word c = b.word c := by
  unfold Base.wr
  split
  · exact Base.word_setWord_ne _ _ h
  · rename_i hw
    have hc : c ≠ a + 4 := by rcases h' with h' | h' <;> [exact absurd h' hw; exact h']
    split
    · exact Base.word_setWord_ne _ _ hc
    · unfold Base.setWord64
      rw [Base.word_setWord_ne _ _ hc, Base.word_setWord_ne _ _ h]

/-- A field of another register stands, for fields of 32-bit registers. -/
theorem Base.rd_wr_ne (b : Base) {a c : Nat} (f g : Fld) (v : Nat) (h : c ≠ a) (hf : f.lo + f.w ≤ 32) (hg : g.lo + g.w ≤ 32) :
    (b.wr a f v).rd c g = b.rd c g := by
  unfold Base.rd
  rw [if_pos hg, if_pos hg, Base.word_wr_ne _ _ _ h (Or.inl hf)]

/-- A flag of a 32-bit register reads as it was set. -/
theorem Base.isSet_flag (b : Base) (a i : Nat) (v : Bool) (h : i < 32) : (b.flag a ⟨i, 1⟩ v).isSet a ⟨i, 1⟩ = v := by
  unfold Base.flag Base.isSet
  rw [Base.rd_wr_same _ _ _ _ (by show i + 1 ≤ 32; omega)]
  cases v <;> rfl

end Sys2Proof.Machine
end

