-- ==== Sys2Proof/Tests/Slice0.lean ====
section
/-! SUPPORT. Tests of the model, and witnesses: for every statement with hypotheses, states and operands that meet them together. -/

namespace Sys2Proof.Tests

open Sys2Proof Sys2Proof.Machine

set_option Elab.async false

/-- A register word at an offset. -/
def reg (a v : Nat) : Nat × W32 := (a, BitVec.ofNat 32 v)

/-- A register word with these fields set and the others 0; of a register of two words, the fields of the first. -/
def word (a : Nat) (l : List (Fld × Nat)) : Nat × W32 := reg a (l.foldl (fun k x => k + x.2 * 2 ^ x.1.lo) 0)

/-- A module with the die on in boot stage `st`, and what `m` adds. -/
def live (st : Nat) (m : Mod) : State :=
  { mod := { m with pl := { m.pl with dieOn := true },
                    base := { m.base with coreOn := true, regs := reg Reg.CLK_STATUS st :: m.base.regs } } }

/-- A module with these register words. -/
def regs (l : List (Nat × W32)) : Mod := { base := { regs := l } }

/-- A module with this timer armed. -/
def timed (k : TimerKey) (m : Mod) : Mod := { m with base := { m.base with timers := [⟨k, 9⟩] } }

/-- The register word at an offset. -/
def hitAt (off : Nat) : RegHit :=
  match regAt off with
  | some h => h
  | none => ⟨{ name := .GLB_PRODUCT_ID, base := 0 }, 0, 0, 0⟩

/-- The module as a 32-bit SMBus write to `off` finds it. -/
def found (s : State) (off : Nat) : Mod := s.atWrite .smbus off

/-- Does a 32-bit SMBus write to `off` find a register that it may write? -/
def open7w (s : State) (off : Nat) : Bool :=
  s.lets .smbus off 4 true && regAt off == some (hitAt off) && (found s off).base.sight .smbus off (hitAt off) == .full

theorem reaches_of (s : State) (off len : Nat) (wr : Bool) (h : s.lets .smbus off len wr = true) :
    s.reaches .smbus off len wr (s.found .smbus off len wr) := ⟨h, rfl⟩

theorem writes_of (s : State) (off : Nat) (h : open7w s off = true) : s.writes .smbus off (found s off) (hitAt off) := by
  simp only [open7w, Bool.and_eq_true, beq_iff_eq] at h
  exact ⟨h.1.1, h.1.2, rfl, h.2⟩

/-- Rule 0 of guard `g`, which allows every access of either world to space 0: Mortar addresses. -/
def allowAll (g : Nat) : RegFile :=
  [reg (Reg.GRD_RULE_ATTR g 0) 0x37, reg (Reg.GRD_RULE_LIMIT g 0) (2 ^ 32 - 1), reg (Reg.GRD_RULE_LIMIT g 0 + 4) (2 ^ 32 - 1)]

theorem coreDue_of (st : Nat) (k : TimerKey) (m : Mod) (h : (live st (timed k m)).coreLive = true) :
    (live st (timed k m)).coreDue k ((live st (timed k m)).mod.begun.timerAt k 9) := by
  refine ⟨h, 9, ?_, rfl⟩
  simp [live, timed, Base.due]

theorem plinthDue_of (st : Nat) (k : TimerKey) (m : Mod) (h : m.pl.powered = true) :
    (live st (timed k m)).plinthDue k ((live st (timed k m)).mod.begun.timerAt k 9) := by
  refine ⟨h, 9, ?_, rfl⟩
  simp [live, timed, Base.due]

theorem coreIs_of (s : State) (h : s.coreLive = true) : s.coreIs s.mod.begun := ⟨h, rfl⟩

theorem dieIs_of (s : State) (h : s.dieLive = true) : s.dieIs s.mod.begun := ⟨h, rfl⟩

theorem powerIs_of (s : State) (h : s.mod.pl.powered = true) : s.powerIs s.mod.begun := ⟨h, rfl⟩

/-! ### Ill-formed terms, one for each check -/

theorem test_illformed_offsets :
    Instr.wellFormed (.registerWrite .smbus 2 false 0) = false ∧ Instr.wellFormed (.registerWrite .smbus 4 true 0) = false ∧
    Instr.wellFormed (.registerWrite .smbus (2 ^ 27) false 0) = false ∧ Instr.wellFormed (.counterReadLatch .smbus 1) = false ∧
    Instr.wellFormed (.counterWrite .smbus 3 false 0) = false ∧ Instr.wellFormed (.hwmClear .smbus 2 0) = false ∧
    Instr.wellFormed (.refusedRegisterAccess .smbus (2 ^ 27) false 0) = false ∧
    Instr.wellFormed (.csrWatchdogExpiry .smbus 1 true) = false ∧ Instr.wellFormed (.counterWrap 4 1) = false ∧
    Instr.wellFormed (.samplePoint 4) = false ∧ Instr.wellFormed (.configurationWrite (.endpoint 0) 2 0 15) = false ∧
    Instr.wellFormed (.configurationWrite (.endpoint 0) 4096 0 15) = false ∧ Instr.wellFormed (.debugAccess true 4 true 0) = false := by
  decide
theorem test_illformed_completions :
    let c : Cpl := ⟨.ok, List.replicate 4097 0⟩
    Instr.wellFormed (.fetchReadCompletion 0 0 c) = false ∧ Instr.wellFormed (.blobReadCompletion c) = false ∧
    Instr.wellFormed (.hodReadCompletion 0 0 c) = false ∧ Instr.wellFormed (.ingestCompletion 0 0 c) = false ∧
    Instr.wellFormed (.readyPollCompletion 0 c) = false ∧ Instr.wellFormed (.sweepReadCompletion 0 0 c) = false ∧
    Instr.wellFormed (.refetchCompletion 0 0 c) = false ∧ Cpl.wellFormed ⟨.poisoned, List.replicate 4097 0⟩ = false ∧
    Cpl.wellFormed ⟨.ur, List.replicate 64 0⟩ = true := by
  decide +kernel

theorem test_illformed_tlps :
    let bad := fun t : Tlp => Instr.wellFormed (.tlpReceive 0 t .good) = false
    bad { kind := .memRead, addr := 2 ^ 64 } ∧ bad { kind := .memRead, rid := 2 ^ 16 } ∧ bad { kind := .memRead, tag := 2 ^ 14 } ∧
    bad { kind := .memRead, pasid := some (2 ^ 20) } ∧ bad { kind := .memRead, tc := 8 } ∧ bad { kind := .memRead, len := 4097 } ∧
    bad { kind := .memWrite, data := List.replicate 4097 0 } ∧ bad { kind := .memRead, hdr := 8 } ∧ bad { kind := .memRead, hdr := 18 } ∧
    bad { kind := .memRead, hdr := 68 } := by
  decide +kernel

theorem test_illformed_lanes :
    let up := fun l : LinkUp => Instr.wellFormed (.portLinkUp 0 l.width l.rate l.toLinkModes) = false ∧
      Instr.wellFormed (.shelfLinkUp ⟨0, l⟩) = false
    let eye := fun s : List SubEye => Instr.wellFormed (.eyeMeasurementDone 0 s []) = false ∧ Instr.wellFormed (.tuneSettleExpiry 0 0 s) = false ∧
      Instr.wellFormed (.adaptationDone 0 true [] [] [] [] s) = false ∧ Instr.wellFormed (.adaptationDone 0 true [] s [] [] []) = false
    let ad := fun a : Adaptation => Instr.wellFormed (.adaptationDone 0 a.lock a.coarse a.again a.beside a.taps a.scan) = false
    up { width := 3 } ∧ up { rate := 6 } ∧ up { rate := 5, flit := false } ∧ up { width := 1, eq := [.preset 0, .preset 0] } ∧
    eye (List.replicate 4 {}) ∧ eye [{ volt := List.replicate 129 0 }] ∧ eye [{ phase := List.replicate 129 0 }] ∧
    ad { coarse := List.replicate 17 [] } ∧ ad { beside := List.replicate 3 [] } ∧ ad { taps := List.replicate 13 0 } ∧
    Instr.wellFormed (.eyeMeasurementDone 0 [] (List.replicate 13 0)) = false ∧
    Instr.wellFormed (.flitReceive 0 [0] [[0]]) = false ∧ Instr.wellFormed (.flitReceive 0 [0] []) = false ∧
    Instr.wellFormed (.amReceive 0 [[0]] 0 0) = false ∧ Instr.wellFormed (.amReceive 0 [] 1 0) = false ∧
    Instr.wellFormed (.framingLoss ⟨0, [[0]]⟩) = false := by
  decide +kernel

theorem test_illformed_segments :
    let bad := fun g : Segment => Instr.wellFormed (.segmentReceive 0 g) = false ∧ Instr.wellFormed (.sync 0 g) = false ∧
      Instr.wellFormed (.cackReceive 0 g) = false
    bad { cseq := 2 ^ 32 } ∧ bad { hops := 16 } ∧ bad { dstPort := 64 } ∧ bad { origin := 128 } ∧ bad { vc := 8 } ∧ bad { tc := 8 } ∧
    bad { dstPath := 4096 } ∧ bad { srcPath := 4096 } ∧ bad { data := List.replicate 241 0 } := by
  decide +kernel

theorem test_illformed_lengths :
    let long : List Byte := List.replicate 33 0
    Instr.wellFormed (.parkWindowStore 0 none 0 (List.replicate 4097 0)) = false ∧ Instr.wellFormed (.lateCompletion 0 1024 []) = false ∧
    Instr.wellFormed (.lateCompletion 0 0 (List.replicate 5 0)) = false ∧
    Instr.wellFormed (.heartbeatAck 0 { path := 4096 }) = false ∧
    Instr.wellFormed (.heartbeatAck 0 { path := 0, ports := List.replicate 9 ⟨true, 0⟩ }) = false ∧
    Instr.wellFormed (.errReport 0 0 0 []) = false ∧ Instr.wellFormed (.dramTrainingDone []) = false ∧
    Instr.wellFormed (.regAddr long true) = false ∧ Instr.wellFormed (.regWrite long true) = false ∧
    Instr.wellFormed (.warmReset long true) = false ∧ Instr.wellFormed (.coldReset long true) = false ∧
    Instr.wellFormed (.imgBegin long true) = false ∧ Instr.wellFormed (.imgData long true 0) = false := by
  decide +kernel

theorem test_illformed_ranges :
    Instr.wellFormed (.imageCheckDone { check := ⟨true, true⟩, bar2Gib := [3] }) = false ∧
    Instr.wellFormed (.imageCheckDone { check := ⟨true, true⟩, bar2Gib := [4096] }) = false ∧
    Instr.wellFormed (.telemetrySample 65536 0 0 []) = false ∧
    Instr.wellFormed (.telemetrySample 0 65536 0 []) = false ∧ Instr.wellFormed (.telemetrySample 0 0 65536 []) = false ∧
    Instr.wellFormed (.telemetrySample 0 0 0 (List.replicate 9 0)) = false ∧ Instr.wellFormed (.supplyResetDetect 65536) = false ∧
    Instr.wellFormed (.overVoltageDetect 65536) = false ∧ Instr.wellFormed (.tempWarning 65536) = false ∧
    Instr.wellFormed (.tempCritical 65536) = false := by
  decide +kernel

/-! ### Small steps -/

/-- No word of the table spells a command, and none is put in front. -/
theorem test_no_word_spells : decodeTableWord 32 7 = none ∧ State.reset.withFetchWord 32 7 = State.reset := ⟨rfl, rfl⟩

/-- R17, R384: reset values of the register index as the manual prints them. -/
theorem test_reset_values :
    (({} : Base).rd Reg.XBR_CTRL F.XBR_CTRL_rounds = 3) ∧ (({} : Base).rd Reg.PRK_SIDE_TIME F.PRK_SIDE_TIME_pg_timeout_ms = 0x7D0) ∧
    (({} : Base).rd (Reg.SLC_EQ_CFG 1023) F.SLC_EQ_CFG_log2 = 6) := by
  decide +kernel

/-! ### The step, the queue and the register file -/

theorem meets_queue :
    ({ pending := [.cellSlotMatch, .planTick] } : State).pending = .cellSlotMatch :: [.planTick] ∧
    2 ≤ ({ pending := [.cellSlotMatch, .planTick] } : State).pending.length := by
  decide

theorem meets_emptyQueue :
    State.reset.pending = [] ∧ State.reset.mod.pl.powered = true ∧ ({ mod := { pl := { powered := false } } } : State).pending = [] ∧
    ({ mod := { pl := { powered := false } } } : State).mod.pl.powered = false := by
  decide

theorem meets_noPower :
    let s : State := { mod := { pl := { powered := false } }, pending := [.fuseTrip] }
    s.mod.pl.powered = false ∧ Instr.fuseTrip ≠ .plinthPowerUp ∧ Instr.plinthPowerUp ∉ s.pending ∧
    Sys2Proof.core.run 1 s = .next { s with mod := s.mod.begun, pending := [] } := by
  refine ⟨rfl, by decide, by decide, rfl⟩

theorem meets_reported :
    ({ mod := { pl := { powered := false } } } : State).reported = true ∧
    step { mod := { pl := { powered := false } } } = .next { mod := { pl := { powered := false } } } := by
  refine ⟨rfl, rfl⟩

/-- The last instance and the last word of a doubly indexed register. -/
theorem meets_registerMap :
    let h := hitAt (Reg.GRD_RULE_MATCH 40 63)
    h.row ∈ allRows ∧ h.row.n1 = 41 ∧ h.row.n2 = 64 ∧ h.row.words = 2 ∧ h.row.base + h.row.s1 * 40 + h.row.s2 * 63 = Reg.GRD_RULE_MATCH 40 63 := by
  decide +kernel

theorem meets_accessCodes :
    (let h := hitAt Reg.PMC_GLOBAL
     regAt Reg.PMC_GLOBAL = some h ∧ h.row.rw.testBit (32 * h.word) = true ∧ h.row.rw.testBit (32 * h.word + 31) = false) ∧
    (let h := hitAt (Reg.GLB_BADACC + 4)
     regAt (Reg.GLB_BADACC + 4) = some h ∧ h.row.rw.testBit (32 * h.word + 31) = false ∧ h.row.w1c.testBit (32 * h.word + 31) = true) := by
  decide +kernel
theorem meets_reservedOffsets :
    regAt 0x7FFFFFC = none ∧ regAt 0x7FFFFFD = none ∧ (live 7 {}).refuses .smbus 0x7FFFFFD (accessBytes 0) true = true := by
  decide +kernel

/-- Partition 1 is not the manager: it reads GLB, and sees nothing of the switch core. -/
theorem meets_visibility :
    let m := (live 6 {}).mod
    regAt Reg.XBR_CTRL = some (hitAt Reg.XBR_CTRL) ∧ regAt Reg.PMC_GLOBAL = some (hitAt Reg.PMC_GLOBAL) ∧
    (m.base.dropHold Reg.XBR_CTRL).sight (.host 1) Reg.XBR_CTRL (hitAt Reg.XBR_CTRL) = .hidden ∧
    (m.base.dropHold Reg.PMC_GLOBAL).sight (.host 1) Reg.PMC_GLOBAL (hitAt Reg.PMC_GLOBAL) = .readOnly ∧
    m.base.sight (.host 1) Reg.XBR_CTRL (hitAt Reg.XBR_CTRL) = .hidden := by
  decide +kernel

theorem meets_refusedAccesses :
    (live 7 {}).refuses .smbus Reg.XBR_CTRL (accessBytes 3) false = true ∧
    bitOf (((live 7 {}).found .smbus Reg.XBR_CTRL (accessBytes 3) false).base.word (Reg.GLB_BADACC + 4)).toNat 31 = false ∧
    let full := live 7 (regs [reg (Reg.GLB_BADACC + 4) (2 ^ 31)])
    full.refuses .smbus Reg.XBR_CTRL (accessBytes 3) true = true ∧
    bitOf ((full.found .smbus Reg.XBR_CTRL (accessBytes 3) true).base.word (Reg.GLB_BADACC + 4)).toNat 31 = true := by
  decide +kernel

/-! ### Commands that write or read a register -/

theorem meets_counterReads :
    let s := live 7 {}
    let t := live 7 { base := { latches := [reg (Reg.BUF_ECC_CE + 4) 5] } }
    let off := Reg.BUF_ECC_CE
    (regAt off = some (hitAt off) ∧ isCounter (hitAt off).row.name = true ∧ (s.found .smbus off 4 false).base.sight .smbus off (hitAt off) = .full ∧
      (hitAt off).word = 0 ∧ s.reaches .smbus off 4 false (s.found .smbus off 4 false)) ∧
    (regAt (off + 4) = some { hitAt off with word := 1 } ∧ t.mod.begun.base.latches.lookup (off + 4) = some 5 ∧
      t.reaches .smbus (off + 4) 4 false (t.found .smbus (off + 4) 4 false)) ∧
    ((s.found .smbus off 8 false).base.sight .smbus (off + 4) { hitAt off with word := 1 } = .full ∧
      s.reaches .smbus off 8 false (s.found .smbus off 8 false)) := by
  refine ⟨⟨by decide +kernel, by decide +kernel, by decide +kernel, by decide +kernel, reaches_of _ _ _ _ (by decide +kernel)⟩,
    ⟨by decide +kernel, by decide +kernel, reaches_of _ _ _ _ (by decide +kernel)⟩, by decide +kernel, reaches_of _ _ _ _ (by decide +kernel)⟩

theorem meets_ordinaryWrites :
    let off := Reg.BUF_MIN 0
    let s := live 7 {}
    s.writes .smbus off (found s off) (hitAt off) ∧ (hitAt off).row.name.ordinary = true ∧
    s.reaches .smbus off 8 true (s.found .smbus off 8 true) := by
  refine ⟨writes_of _ _ (by decide +kernel), by decide +kernel, reaches_of _ _ _ _ (by decide +kernel)⟩

theorem meets_counterWrites :
    let off := Reg.PMC_CNT 255
    let s := live 7 {}
    let held := live 7 { base := { cntHold := some (off, 9) } }
    let other := live 7 { base := { cntHold := some (off + 4, 9) } }
    (hitAt off).countsAt off ∧ (hitAt off).word = 0 ∧ s.writes .smbus off (found s off) (hitAt off) ∧
    (held.writes .smbus (off + 4) (found held (off + 4)) (hitAt (off + 4)) ∧ (hitAt (off + 4)).countsAt off ∧ (hitAt (off + 4)).word = 1) ∧
    other.writes .smbus (off + 4) (found other (off + 4)) (hitAt (off + 4)) ∧
    (s.reaches .smbus off 8 true (s.found .smbus off 8 true) ∧ regAt off = some (hitAt off) ∧ (s.found .smbus off 8 true).base.sight .smbus off (hitAt off) = .full) := by
  refine ⟨Or.inl (by decide +kernel), by decide +kernel, writes_of _ _ (by decide +kernel),
    ⟨writes_of _ _ (by decide +kernel), Or.inl (by decide +kernel), by decide +kernel⟩, writes_of _ _ (by decide +kernel),
    reaches_of _ _ _ _ (by decide +kernel), by decide +kernel, by decide +kernel⟩

theorem meets_virtualCounterWrites :
    let off := Reg.SLC_VC_CNT 3 7
    let s := live 7 (regs [reg (Reg.SLC_STATE 3) 1])
    (hitAt off).countsAt off ∧ (hitAt off).word = 0 ∧ s.writes .smbus off (found s off) (hitAt off) := by
  refine ⟨Or.inr (by decide +kernel), by decide +kernel, writes_of _ _ (by decide +kernel)⟩

theorem meets_marks :
    let s := live 7 {}
    (s.writes .smbus (Reg.SCH_Q_HWM 511) (found s (Reg.SCH_Q_HWM 511)) (hitAt (Reg.SCH_Q_HWM 511)) ∧
      (hitAt (Reg.SCH_Q_HWM 511)).row.name = .SCH_Q_HWM) ∧
    (s.writes .smbus (Reg.SCH_BUF_HWM 63) (found s (Reg.SCH_BUF_HWM 63)) (hitAt (Reg.SCH_BUF_HWM 63)) ∧
      (hitAt (Reg.SCH_BUF_HWM 63)).row.name = .SCH_BUF_HWM) ∧
    (s.writes .smbus Reg.BND_HOLD_HWM (found s Reg.BND_HOLD_HWM) (hitAt Reg.BND_HOLD_HWM) ∧
      (hitAt Reg.BND_HOLD_HWM).row.name = .BND_HOLD_HWM) ∧ (0x80000000 : W32).msb = true := by
  refine ⟨⟨writes_of _ _ (by decide +kernel), by decide +kernel⟩, ⟨writes_of _ _ (by decide +kernel), by decide +kernel⟩,
    ⟨writes_of _ _ (by decide +kernel), by decide +kernel⟩, by decide +kernel⟩

theorem meets_switchCoreWrites :
    let s := live 7 {}
    let big := live 7 (regs [reg Reg.BUF_MIRROR_POOL 0x3FFFF, reg (Reg.BUF_MIN 0) 0xFFFF])
    let c := Reg.BUF_COMMIT
    s.writes .smbus Reg.XBR_CTRL (found s Reg.XBR_CTRL) (hitAt Reg.XBR_CTRL) ∧
    (s.writes .smbus c (found s c) (hitAt c) ∧ bitOf 1 0 = true ∧ bitOf 1 2 = false ∧ (found s c).base.isSet c F.BUF_COMMIT_done = true ∧
      (found s c).base.stagedMin.foldl (fun k x => k + x.2) 0 + (found s c).base.rd Reg.BUF_MIRROR_POOL F.BUF_MIRROR_POOL_cells ≤ 262144) ∧
    (big.writes .smbus c (found big c) (hitAt c) ∧ (found big c).base.isSet c F.BUF_COMMIT_done = true ∧
      262144 < (found big c).base.stagedMin.foldl (fun k x => k + x.2) 0 + (found big c).base.rd Reg.BUF_MIRROR_POOL F.BUF_MIRROR_POOL_cells) ∧
    s.writes .smbus (Reg.SCH_METER_CIR 4095 + 4 * 3) (found s (Reg.SCH_METER_CIR 4095 + 4 * 3)) (hitAt (Reg.SCH_METER_CIR 4095 + 4 * 3)) := by
  refine ⟨writes_of _ _ (by decide +kernel), ⟨writes_of _ _ (by decide +kernel), by decide +kernel⟩,
    ⟨writes_of _ _ (by decide +kernel), by decide +kernel⟩, writes_of _ _ (by decide +kernel)⟩
theorem meets_doorbells :
    let s := live 7 (regs [word (Reg.SLC_STATE 3) [(F.SLC_STATE_state, 1)], word (Reg.SLC_RES 3) [(F.SLC_RES_qp_count, 64)]])
    let e := live 7 (regs [word (Reg.SLC_STATE 1023) [(F.SLC_STATE_state, 1)]])
    s.writes .smbus (Reg.SLC_SQ_DB 3 63) (found s (Reg.SLC_SQ_DB 3 63)) (hitAt (Reg.SLC_SQ_DB 3 63)) ∧
    s.writes .smbus (Reg.SLC_CQ_DB 3 63) (found s (Reg.SLC_CQ_DB 3 63)) (hitAt (Reg.SLC_CQ_DB 3 63)) ∧
    e.writes .smbus (Reg.SLC_EQ_DB 1023) (found e (Reg.SLC_EQ_DB 1023)) (hitAt (Reg.SLC_EQ_DB 1023)) := by
  exact ⟨writes_of _ _ (by decide +kernel), writes_of _ _ (by decide +kernel), writes_of _ _ (by decide +kernel)⟩

theorem meets_queuePairWrites :
    let a := Reg.SLC_QP_CFG 3 0
    let res := word (Reg.SLC_RES 3) [(F.SLC_RES_qp_count, 1)]
    let st := word (Reg.SLC_STATE 3) [(F.SLC_STATE_state, 1)]
    let s := live 7 (regs [st, res])
    let on := live 7 (regs [st, res, word a [(F.SLC_QP_CFG_enable, 1), (F.SLC_QP_CFG_sq_log2, 6), (F.SLC_QP_CFG_cq_log2, 16)]])
    let v := 1 + 6 * 2 ^ F.SLC_QP_CFG_sq_log2.lo + 16 * 2 ^ F.SLC_QP_CFG_cq_log2.lo
    let m := found on a
    (s.writes .smbus a (found s a) (hitAt a) ∧ bitOf v 14 = false ∧ bitOf v 0 = true ∧ (found s a).base.isSet a F.SLC_QP_CFG_enable = false ∧
      (found s a).base.isSet (Reg.SLC_QP_STATUS 3 0) F.SLC_QP_STATUS_busy = false ∧ sizeOk (bits v F.SLC_QP_CFG_sq_log2) = true ∧
      sizeOk (bits v F.SLC_QP_CFG_cq_log2) = true) ∧
    (on.writes .smbus a m (hitAt a) ∧ bitOf (v - 1) 0 = false ∧ bitOf (v - 1) 14 = false ∧ m.base.isSet a F.SLC_QP_CFG_enable = true ∧
      bits (v - 1) F.SLC_QP_CFG_sq_log2 = (m.base.wr a F.SLC_QP_CFG_burst (bits (v - 1) F.SLC_QP_CFG_burst)).rd a F.SLC_QP_CFG_sq_log2 ∧
      bits (v - 1) F.SLC_QP_CFG_cq_log2 = (m.base.wr a F.SLC_QP_CFG_burst (bits (v - 1) F.SLC_QP_CFG_burst)).rd a F.SLC_QP_CFG_cq_log2) := by
  exact ⟨⟨writes_of _ _ (by decide +kernel), by decide +kernel⟩, writes_of _ _ (by decide +kernel), by decide +kernel⟩

theorem meets_eventRingWrites :
    let a := Reg.SLC_EQ_CFG 3
    let s := live 7 (regs [word (Reg.SLC_STATE 3) [(F.SLC_STATE_state, 1)], word (Reg.SLC_NAMES 3) [(F.SLC_NAMES_vec_count, 1)]])
    let v := 1 + 2 ^ 17 + 16 * 2 ^ F.SLC_EQ_CFG_log2.lo
    let m := found s a
    s.writes .smbus a m (hitAt a) ∧ bitOf v 0 = true ∧ bitOf v 17 = true ∧ m.base.isSet a F.SLC_EQ_CFG_enable = false ∧
    sizeOk (bits v F.SLC_EQ_CFG_log2) = true ∧ m.base.vectorOk 3 (bits v F.SLC_EQ_CFG_vector) = true := by
  exact ⟨writes_of _ _ (by decide +kernel), by decide +kernel⟩

theorem meets_orderingWrites :
    let s := live 7 (regs [word (Reg.SLC_STATE 3) [(F.SLC_STATE_state, 1)]])
    let f := Reg.SLC_FENCE 3
    let r := Reg.SLC_RSV_ADDR 3 + 4 * 1
    (s.writes .smbus f (found s f) (hitAt f) ∧ bitOf 1 0 = true ∧ (found s f).base.isSet f F.SLC_FENCE_done = true) ∧
    s.writes .smbus r (found s r) (hitAt r) ∧ s.reaches .smbus (Reg.SLC_RSV_ADDR 3 + 4 * 0) 8 true (s.found .smbus (Reg.SLC_RSV_ADDR 3 + 4 * 0) 8 true) := by
  exact ⟨⟨writes_of _ _ (by decide +kernel), by decide +kernel⟩, writes_of _ _ (by decide +kernel), reaches_of _ _ _ _ (by decide +kernel)⟩

theorem meets_guardWrites :
    let g := Reg.GRD_COMMIT
    let r := Reg.GRD_RULE_BASE 40 63 + 4 * 7
    let q := Reg.GRD_RULE_BASE 40 63 + 4 * 0
    let s := live 7 {}
    let run := live 7 (regs [reg Reg.GRD_COMMIT 0])
    let lock := live 7 { base := { act := [reg (Reg.GRD_RULE_ATTR 40 63) (2 ^ 31)] } }
    (s.writes .smbus g (found s g) (hitAt g) ∧ bitOf 1 0 = true ∧ bitOf 1 2 = false ∧ (found s g).base.isSet g F.GRD_COMMIT_done = true) ∧
    (run.writes .smbus g (found run g) (hitAt g) ∧ (found run g).base.isSet g F.GRD_COMMIT_done = false) ∧
    (s.writes .smbus r (found s r) (hitAt r) ∧ (found s r).base.ruleLocked 40 63 = false) ∧
    (lock.writes .smbus r (found lock r) (hitAt r) ∧ (found lock r).base.ruleLocked 40 63 = true) ∧
    (s.reaches .smbus q 8 true (s.found .smbus q 8 true) ∧ (s.found .smbus q 8 true).base.sight .smbus q (hitAt q) = .full ∧ regAt q = some (hitAt q) ∧
      wholeWrite (hitAt q).row.name = true ∧ (hitAt q).word = 0 ∧ (s.found .smbus q 8 true).base.ruleLocked 40 63 = false) := by
  exact ⟨⟨writes_of _ _ (by decide +kernel), by decide +kernel⟩, ⟨writes_of _ _ (by decide +kernel), by decide +kernel⟩,
    ⟨writes_of _ _ (by decide +kernel), by decide +kernel⟩, ⟨writes_of _ _ (by decide +kernel), by decide +kernel⟩,
    reaches_of _ _ _ _ (by decide +kernel), by decide +kernel⟩

theorem meets_atomicPair :
    let s := live 7 (regs [word (Reg.SLC_STATE 3) [(F.SLC_STATE_state, 1)]])
    let l := Reg.SLC_RSV_LR 3
    let c := Reg.SLC_RSV_SC 3
    let m := s.found .smbus l 8 false
    let n := (m.loadReserved .smbus 3).1
    let x : Mod := { n with ord := n.ord.setRsv { n.ord.rsv 3 with latch := BitVec.ofNat 32 ((m.loadReserved .smbus 3).2 / 2 ^ 32) } }
    (regAt l = some (hitAt l) ∧ m.base.sight .smbus l (hitAt l) = .full ∧
      x.base.sight .smbus (l + 4) { hitAt l with word := 1 } = .full ∧ regAt (l + 4) = some { hitAt l with word := 1 }) ∧
    s.reaches .smbus l 8 false m ∧
    (regAt c = some (hitAt c) ∧ (s.found .smbus c 4 false).base.sight .smbus c (hitAt c) = .full) ∧ s.reaches .smbus c 4 false (s.found .smbus c 4 false) := by
  exact ⟨by decide +kernel, reaches_of _ _ _ _ (by decide +kernel), by decide +kernel, reaches_of _ _ _ _ (by decide +kernel)⟩

theorem meets_hodWrites :
    let mode := word (Reg.HOD_CH_MODE 15 63) [(F.HOD_CH_MODE_direct, 1)]
    let s := live 7 (regs [mode])
    let queue := live 7 (regs [reg (Reg.HOD_CH_MODE 15 63) 0])
    let g := Reg.HOD_CH_CTL 15 63
    let x := Reg.HOD_CH_SH_SRC 15 63 + 4 * 11
    let y := Reg.HOD_CH_SH_SRC 15 63 + 8
    let z := Reg.HOD_CH_SH_SEAL 15 63
    (s.writes .smbus g (found s g) (hitAt g) ∧ (found s g).base.direct 15 63 = true ∧ (found s g).base.mayDirect .smbus = true) ∧
    (s.writes .smbus x (found s x) (hitAt x) ∧ (found s x).base.direct 15 63 = true) ∧
    (s.writes .smbus z (found s z) (hitAt z) ∧ (found s z).base.direct 15 63 = true) ∧
    s.writes .smbus (Reg.HOD_CTL 15) (found s (Reg.HOD_CTL 15)) (hitAt (Reg.HOD_CTL 15)) ∧
    (queue.writes .smbus g (found queue g) (hitAt g) ∧ (found queue g).base.direct 15 63 = false) ∧
    s.reaches .smbus y 8 true (s.found .smbus y 8 true) ∧ ((s.found .smbus y 8 true).base.sight .smbus y (hitAt y) = .full ∧ regAt y = some (hitAt y) ∧
      wholeWrite (hitAt y).row.name = true ∧ (hitAt y).word = 0 ∧ (s.found .smbus y 8 true).base.direct 15 63 = true) := by
  exact ⟨⟨writes_of _ _ (by decide +kernel), by decide +kernel⟩, ⟨writes_of _ _ (by decide +kernel), by decide +kernel⟩,
    ⟨writes_of _ _ (by decide +kernel), by decide +kernel⟩, writes_of _ _ (by decide +kernel),
    ⟨writes_of _ _ (by decide +kernel), by decide +kernel⟩, reaches_of _ _ _ _ (by decide +kernel), by decide +kernel⟩

theorem meets_parkWrites :
    let s := live 7 (regs [word (Reg.PRK_SHELF_STATE 55) [(F.PRK_SHELF_STATE_state, 9)]])
    let a := Reg.PRK_SHELF_CTL 55
    let b := Reg.PRK_LEDGER_BUDGET
    s.writes .smbus b (found s b) (hitAt b) ∧
    (s.writes .smbus a (found s a) (hitAt a) ∧ bitOf 4 2 = true ∧ bitOf 3 2 = false ∧
      (((found s a).base.wr a F.PRK_SHELF_CTL_pin (4 % 2)).slotState 55 = 9 ∧ (found s a).pl.parkHeld.contains (55 % 4) = false)) := by
  exact ⟨writes_of _ _ (by decide +kernel), writes_of _ _ (by decide +kernel), by decide +kernel⟩

/-- In READY, SMBus reads park DRAM's first entry through guard 20. -/
theorem meets_peek :
    let e : Entry := { idx := 0, state := 2, cls := 0, release := false, read := false, shelf := 0, slice := 0, gen := 0, hostAddr := 0,
                       pasid := 0, length := 64, shelfAddr := 0, seq := 0, parkTime := 0, qp := 0, cid := 0, entryNo := 0, entryLast := 0,
                       desc := none }
    let s := live 6 { base := { act := allowAll 20 }, prk := { entries := [e] } }
    let a := Reg.PRK_PEEK_IDX
    s.writes .smbus a (found s a) (hitAt a) ∧ (found s a).base.stage = 6 ∧ bitOf (2 ^ 31) 31 = true ∧
    (found s a).prk.entry (2 ^ 31 % 2 ^ 22) = some e := by
  exact ⟨writes_of _ _ (by decide +kernel), by decide +kernel⟩
theorem meets_portControl :
    let a := Reg.PRT_CTL 63
    let s := live 7 (regs [word (Reg.PRT_CFG 63) [(F.PRT_CFG_role, 2)]])
    s.writes .smbus a (found s a) (hitAt a) ∧ (found s a).base.portRole 63 = 2 ∧
    (bitOf 1 0 = true ∧ bitOf 1 1 = false) ∧ (bitOf 2 0 = false ∧ bitOf 2 1 = true) ∧ (bitOf 3 0 = true ∧ bitOf 3 1 = true) := by
  exact ⟨writes_of _ _ (by decide +kernel), by decide +kernel⟩

theorem meets_portSlot :
    let a := Reg.PRT_SLOT 63
    let cfg := word (Reg.PRT_CFG 63) [(F.PRT_CFG_role, 2), (F.PRT_CFG_slot, 55)]
    let off := live 7 (regs [cfg, reg a 0])
    let on := live 7 (regs [cfg, word a [(F.PRT_SLOT_present, 1)]])
    (off.writes .smbus a (found off a) (hitAt a) ∧ (found off a).base.portRole 63 = 2 ∧
      (found off a).base.isSet a F.PRT_SLOT_present = false) ∧
    (on.writes .smbus a (found on a) (hitAt a) ∧ (found on a).base.portRole 63 = 2 ∧ (found on a).base.isSet a F.PRT_SLOT_present = true ∧
      (((found on a).base.wr a F.PRT_SLOT_present 0).wr a F.PRT_SLOT_changed 1).rd (Reg.PRT_CFG 63) F.PRT_CFG_slot < 56) := by
  exact ⟨⟨writes_of _ _ (by decide +kernel), by decide +kernel⟩, writes_of _ _ (by decide +kernel), by decide +kernel⟩

theorem meets_txCoef :
    let a := Reg.SER_TX_COEF 255
    let s := live 7 {}
    let v := fun (pre post : Nat) => 2 ^ 16 + pre * 2 ^ F.SER_TX_COEF_pre.lo + post * 2 ^ F.SER_TX_COEF_post.lo
    s.writes .smbus a (found s a) (hitAt a) ∧ bitOf (v 12 4) 17 = false ∧ bitOf (v 12 4) 16 = true ∧
    (bits (v 12 4) F.SER_TX_COEF_pre = 12 ∧ bits (v 12 4) F.SER_TX_COEF_pre + bits (v 12 4) F.SER_TX_COEF_post = 16) ∧
    (bits (v 13 0) F.SER_TX_COEF_pre = 13 ∧ bitOf (v 13 0) 17 = false) ∧
    (bits (v 12 5) F.SER_TX_COEF_pre + bits (v 12 5) F.SER_TX_COEF_post = 17 ∧ bitOf (v 12 5) 17 = false) := by
  exact ⟨writes_of _ _ (by decide +kernel), by decide +kernel⟩

theorem meets_tileTest :
    let a := Reg.SER_TILE_CTL 31
    let s := live 7 (regs [word (Reg.PRT_CFG 63) [(F.PRT_CFG_role, 2)]])
    let m := found s a
    let b := (m.base.wr a F.SER_TILE_CTL_test 1).wr a F.SER_TILE_CTL_no_gate (b2n (bitOf 1 1))
    s.writes .smbus a m (hitAt a) ∧ m.base.inTest 31 = false ∧ bitOf 1 0 = true ∧ m.base.camTile 31 = false ∧
    ((({ m with base := (b.raise { group := 10, bit := 31, cause := 1 }).tileUngate 31 } : Mod).tileDown 31).base.camTile 31 = false) := by
  exact ⟨writes_of _ _ (by decide +kernel), by decide +kernel⟩

theorem meets_camtexWrites :
    let a := Reg.SER_TILE_CFG 31
    let k := Reg.FAB_CTL 7
    let s := live 7 (regs [word a [(F.SER_TILE_CFG_family, 1)], word (Reg.FAB_CFG 7) [(F.FAB_CFG_enable, 1)],
                           word (Reg.SER_TILE_STATUS 31) [(F.SER_TILE_STATUS_pll_lock, 1)]])
    let b := ((found s a).base.wr a F.SER_TILE_CFG_camtex_85 (b2n (bitOf 64 6))).wr a F.SER_TILE_CFG_good_ei 0
    let b := b.wr a F.SER_TILE_CFG_idle_us 0
    (s.writes .smbus a (found s a) (hitAt a) ∧ b.camTile 31 = true ∧ b.camMay 7 = true ∧
      (found s a).base.isSet a F.SER_TILE_CFG_camtex_85 = !bitOf 64 6 ∧ (found s a).base.isSet a F.SER_TILE_CFG_camtex_85 = bitOf 0 6) ∧
    (s.writes .smbus k (found s k) (hitAt k) ∧ bitOf 1 0 = true ∧ (found s k).base.camMay 7 = true) := by
  exact ⟨⟨writes_of _ _ (by decide +kernel), by decide +kernel⟩, writes_of _ _ (by decide +kernel), by decide +kernel⟩

theorem meets_bondWrites :
    let a := Reg.BND_LEND_CTL
    let s := live 7 (regs [word Reg.BND_CFG [(F.BND_CFG_enable, 1), (F.BND_CFG_fabric, 1), (F.BND_CFG_depth, 1)]])
    let v := 2 ^ 28 + 2 * 2 ^ F.BND_LEND_CTL_op.lo
    let x := rtOff 65535 7
    let y := rtOff 65535 0
    let z := Reg.BND_STREAM_IDX
    (s.writes .smbus a (found s a) (hitAt a) ∧ bitOf v 28 = true ∧ (found s a).base.isSet a F.BND_LEND_CTL_done = true ∧
      bits v F.BND_LEND_CTL_op = 2 ∧ bits (v - 2 ^ F.BND_LEND_CTL_op.lo) F.BND_LEND_CTL_op = 1 ∧
      ((found s a).base.setWord a (BitVec.ofNat 32 v)).isSet Reg.BND_CFG F.BND_CFG_fabric = true ∧
      ((found s a).base.setWord a (BitVec.ofNat 32 v)).bondOn = true) ∧
    s.writes .smbus x (found s x) (hitAt x) ∧ s.writes .smbus y (found s y) (hitAt y) ∧ s.writes .smbus z (found s z) (hitAt z) ∧
    (bitOf (2 ^ 31) 31 = true ∧ bitOf (2 ^ 31) 13 = false ∧ bitOf (2 ^ 31 + 2 ^ 13) 13 = true ∧ bitOf 0 31 = false) := by
  exact ⟨⟨writes_of _ _ (by decide +kernel), by decide +kernel⟩, writes_of _ _ (by decide +kernel), writes_of _ _ (by decide +kernel),
    writes_of _ _ (by decide +kernel), by decide +kernel⟩

theorem meets_resetWrites :
    let a := Reg.CLK_RESET
    let s := live 7 {}
    let code := Config.resetCode * 2 ^ F.CLK_RESET_code.lo
    s.writes .smbus Reg.PMC_GLOBAL (found s Reg.PMC_GLOBAL) (hitAt Reg.PMC_GLOBAL) ∧
    s.writes .smbus a (found s a) (hitAt a) ∧
    (bits (code + 1) F.CLK_RESET_code = Config.resetCode ∧ bitOf (code + 1) 2 = false ∧ bitOf (code + 1) 1 = false ∧ bitOf (code + 1) 0 = true) ∧
    (bits (code + 2) F.CLK_RESET_code = Config.resetCode ∧ bitOf (code + 2) 2 = false ∧ bitOf (code + 2) 1 = true) ∧
    (bits (code + 4) F.CLK_RESET_code = Config.resetCode ∧ bitOf (code + 4) 2 = true ∧ bitOf (code + 4) 1 = false ∧
      bitOf (code + 4) 0 = false ∧ (found s a).pl.dieOn = true ∧ (found s a).base.stage ≠ 8) ∧
    bits 1 F.CLK_RESET_code ≠ Config.resetCode := by
  exact ⟨writes_of _ _ (by decide +kernel), writes_of _ _ (by decide +kernel), by decide +kernel⟩

theorem meets_blockWrites :
    let a := Reg.CLK_BLK_RESET
    let s := live 7 {}
    let v := fun (kind i : Nat) => 2 ^ 31 + kind + i * 2 ^ F.CLK_BLK_RESET_index.lo
    let b := fun (v : Nat) => ((found s a).base.wr a F.CLK_BLK_RESET_kind (v % 8)).wr a F.CLK_BLK_RESET_index (bits v F.CLK_BLK_RESET_index)
    s.writes .smbus a (found s a) (hitAt a) ∧
    (bitOf (v 4 63) 29 = false ∧ bitOf (v 4 63) 31 = true ∧ (b (v 4 63)).isSet a F.CLK_BLK_RESET_done = true ∧
      (found s a).blockOk (v 4 63 % 8) (bits (v 4 63) F.CLK_BLK_RESET_index) = true) ∧
    (bitOf (v 0 16) 29 = false ∧ bitOf (v 0 16) 31 = true ∧ (b (v 0 16)).isSet a F.CLK_BLK_RESET_done = true ∧
      (found s a).blockOk (v 0 16 % 8) (bits (v 0 16) F.CLK_BLK_RESET_index) = false) := by
  exact ⟨writes_of _ _ (by decide +kernel), by decide +kernel⟩

theorem meets_lifecycleWrites :
    let a := Reg.CLK_LC_CMD
    let s := live 7 {}
    let code := Config.lifecycleCode * 2 ^ F.CLK_LC_CMD_code.lo
    let v := fun (target : Nat) => code + target * 2 ^ F.CLK_LC_CMD_target.lo
    s.writes .smbus a (found s a) (hitAt a) ∧
    (bits (v 3) F.CLK_LC_CMD_code = Config.lifecycleCode ∧ (found s a).pl.lcNext = none ∧
      lcAllowed (found s a).pl.lc (bits (v 3) F.CLK_LC_CMD_target) (found s a).pl.token = true) ∧
    lcAllowed (found s a).pl.lc (bits (v 1) F.CLK_LC_CMD_target) (found s a).pl.token = false ∧
    bits 3 F.CLK_LC_CMD_code ≠ Config.lifecycleCode := by
  exact ⟨writes_of _ _ (by decide +kernel), by decide +kernel⟩

theorem meets_imageWrites :
    let a := Reg.CLK_IMG_CTL
    let up := word (Reg.PRT_CFG 63) [(F.PRT_CFG_role, 1)]
    let rule := [reg (Reg.GRD_RULE_ATTR 20 0) (0x37 + 2 ^ 6 + 2 ^ 18), reg (Reg.GRD_RULE_LIMIT 20 0) (2 ^ 32 - 1)]
    let none' := live 7 {}
    let deny := live 7 { base := { regs := [up], cfgs := [reg (0 * 4096 + 4) 4] } }
    let may := live 7 { base := { regs := [up], cfgs := [reg (0 * 4096 + 4) 4], act := rule } }
    let v := 4 + 5 * 2 ^ F.CLK_IMG_CTL_len_kib.lo
    let b := fun (s : State) =>
      ((found s a).base.wr a F.CLK_IMG_CTL_type (v % 4)).wr a F.CLK_IMG_CTL_len_kib (bits v F.CLK_IMG_CTL_len_kib)
    let n := fun (s : State) => ({ found s a with
      base := (b s).wr a F.CLK_IMG_CTL_done 0, pl := { (found s a).pl with img := some { kind := 0, len := 5, smbus := false } } } : Mod)
    let r := fun (m : Mod) => m.base.guard 20
      { space := 1, sel := m.base.manager, addr := m.base.word64 Reg.CLK_IMG_ADDR / 4096 * 4096, len := min 4096 (1024 * 5), rd := true,
        secure := true, pasid := some (m.base.slicePasid 0), ident := 20 }
    (none'.writes .smbus a (found none' a) (hitAt a) ∧ bitOf v 2 = true ∧ (found none' a).imgBusy = false ∧
      (found none' a).tagOf .image = none ∧ (b none').isSet Reg.CLK_CAL_STATUS F.CLK_CAL_STATUS_busy = false ∧
      (b none').rd a F.CLK_IMG_CTL_len_kib = 5 ∧ (n none').base.bme 0 = false) ∧
    (may.writes .smbus a (found may a) (hitAt a) ∧ (found may a).imgBusy = false ∧ (found may a).tagOf .image = none ∧
      (n may).base.manager = 0 ∧ (n may).base.upstreamPort 0 = some 63 ∧ (n may).base.bme 0 = true ∧ (n may).freeTag 63 = some 0 ∧
      (r (n may)).2 = none) ∧
    (deny.writes .smbus a (found deny a) (hitAt a) ∧ (found deny a).imgBusy = false ∧ (n deny).base.upstreamPort 0 = some 63 ∧
      (n deny).base.bme 0 = true ∧ (n deny).freeTag 63 = some 0 ∧ (r (n deny)).2.isSome = true) := by
  exact ⟨⟨writes_of _ _ (by decide +kernel), by decide +kernel⟩, ⟨writes_of _ _ (by decide +kernel), by decide +kernel⟩,
    writes_of _ _ (by decide +kernel), by decide +kernel⟩

theorem meets_plinthWrites :
    let c := Reg.CLK_CAL_CTL
    let p := Reg.PWR_CTL
    let s := live 7 (regs [word Reg.PWR_STATUS [(F.PWR_STATUS_state, 6)]])
    let v := 0x5F0A * 2 ^ F.PWR_CTL_code.lo
    (s.writes .smbus c (found s c) (hitAt c) ∧ bits (Config.calCode * 2 ^ F.CLK_CAL_CTL_code.lo + 1) F.CLK_CAL_CTL_code = Config.calCode ∧
      bitOf (Config.calCode * 2 ^ F.CLK_CAL_CTL_code.lo + 1) 0 = true ∧
      (found s c).base.isSet Reg.CLK_CAL_STATUS F.CLK_CAL_STATUS_busy = false) ∧
    (s.writes .smbus p (found s p) (hitAt p) ∧ bits (v + 1) F.PWR_CTL_code = 0x5F0A ∧ bitOf (v + 1) 0 = true ∧ bitOf (v + 1) 1 = false ∧
      (found s p).base.feState = 6 ∧ bits (v + 2) F.PWR_CTL_code = 0x5F0A ∧ bitOf (v + 2) 0 = false ∧ bitOf (v + 2) 1 = true ∧
      bits 1 F.PWR_CTL_code ≠ 0x5F0A) := by
  exact ⟨⟨writes_of _ _ (by decide +kernel), by decide +kernel⟩, writes_of _ _ (by decide +kernel), by decide +kernel⟩

/-- In POR a host's access hangs; in READY a guard with no rule denies it, and D3hot stops it; with the die off SMBus reaches the plinth alone. -/
theorem meets_noDecoder :
    let hot := live 6 { base := { cfgs := [reg (0 * 4096 + 0x44) 3] } }
    let off : State := {}
    (live 0 {}).hangs (.host 0) Reg.XBR_CTRL = true ∧
    (live 6 {}).denies (.host 0) Reg.XBR_CTRL 4 true = true ∧ (live 6 {}).denies .smbus (Reg.BUF_MIN 0) 8 true = true ∧
    (hot.dieIs hot.mod.begun ∧ hot.mod.begun.pl.m2 ≠ 2 ∧ hot.mod.begun.base.d3hot 0 = true) ∧
    (off.powerIs off.mod.begun ∧ off.mod.begun.plinthOnly = true ∧ inPwr Reg.PWR_CTL = true ∧ Reg.PWR_CTL % 4 = 0 ∧
      inPwr Reg.XBR_CTRL = false) := by
  exact ⟨by decide +kernel, by decide +kernel, by decide +kernel, ⟨dieIs_of _ (by decide +kernel), by decide +kernel⟩, powerIs_of _ rfl,
    by decide +kernel⟩
/-! ### The switch core -/

/-- A frame of a host's port 63, stored, waiting for port 62. -/
def frame : Frame := { id := 1, src := 63, srcXp := 31, dstXp := 31, dstSub := 62, vc := 0, bytes := 16, tlp := { kind := .memWrite } }

theorem meets_tlps :
    let up := word (Reg.PRT_STATUS 63) [(F.PRT_STATUS_link_up, 1)]
    let an := live 6 (regs [up, word (Reg.PRT_CFG 63) [(F.PRT_CFG_role, 3)]])
    let host := live 6 { base := { regs := [up, word (Reg.PRT_CFG 63) [(F.PRT_CFG_role, 1)]] },
                         sw := { credits := [{ port := 63, vc := 0, hdrOut := 1, dataOut := 64 }] } }
    let shelf := live 6 { base := { regs := [up, word (Reg.PRT_CFG 63) [(F.PRT_CFG_role, 2)]] },
                          sw := { credits := [{ port := 63, vc := 1, hdrOut := 1 }] } }
    let t : Tlp := { kind := .memWrite, data := List.replicate 1024 0#8, len := 1024 }
    let r : Tlp := { kind := .memRead, len := 4 }
    let n := fun (s : State) (t : Tlp) => (((s.mod.begun.base.occ 0x200 63 none 1).occ 0x201 63 none (tlpBytes t)).restartL1 63)
    (an.coreIs an.mod.begun ∧ an.mod.begun.admits 63 = true ∧ an.mod.begun.base.portRole 63 = 3) ∧
    (host.coreIs host.mod.begun ∧ host.mod.begun.admits 63 = true ∧ host.mod.begun.base.portRole 63 = 1 ∧
      0 < (host.mod.begun.sw.credit 63 (tlpVc t)).hdrOut ∧ cdiv (tlpPadded t).length 16 ≤ (host.mod.begun.sw.credit 63 (tlpVc t)).dataOut ∧
      (tlpPadded t).length ≤ 1024 ∧ (n host t).mcGroup 63 t = none) ∧
    (shelf.coreIs shelf.mod.begun ∧ shelf.mod.begun.admits 63 = true ∧ shelf.mod.begun.base.portRole 63 = 2 ∧
      0 < (shelf.mod.begun.sw.credit 63 (tlpVc r)).hdrOut ∧ cdiv (tlpPadded r).length 16 ≤ (shelf.mod.begun.sw.credit 63 (tlpVc r)).dataOut ∧
      (tlpPadded r).length ≤ 1024 ∧
      (n shelf r).mcGroup 63 r = none) := by
  exact ⟨⟨coreIs_of _ (by decide +kernel), by decide +kernel⟩, ⟨coreIs_of _ (by decide +kernel), by decide +kernel⟩,
    coreIs_of _ (by decide +kernel), by decide +kernel⟩

theorem meets_cells :
    let s := live 6 { sw := { frames := [frame] } }
    s.coreIs s.mod.begun ∧ s.mod.begun.sw.frame 1 = some frame ∧
    (live 6 (timed .bufCommit {})).coreDue .bufCommit ((live 6 (timed .bufCommit {})).mod.begun.timerAt .bufCommit 9) := by
  exact ⟨coreIs_of _ (by decide +kernel), by decide +kernel, coreDue_of _ _ _ (by decide +kernel)⟩

theorem meets_egress :
    let q := { (frame) with dstSub := 63 }
    let down := live 6 { sw := { frames := [q], egress := [⟨1, 63, 0⟩] } }
    let up := live 6 { base := { regs := [word (Reg.PRT_STATUS 63) [(F.PRT_STATUS_link_up, 1)], reg (Reg.SCH_Q_CFG 504) 0] },
                       sw := { frames := [q], egress := [⟨1, 63, 0⟩] } }
    let cam := live 6 (regs [word (Reg.PRT_CFG 63) [(F.PRT_CFG_role, 4)], word (Reg.SER_STATUS 248) [(F.SER_STATUS_port, 63)]])
    (down.coreIs down.mod.begun ∧ down.mod.begun.base.portRole 63 ≠ 4 ∧ down.mod.begun.base.undeliverable 63 = some false ∧
      down.mod.begun.sw.oldestAt 63 = some q) ∧
    (up.coreIs up.mod.begun ∧ up.mod.begun.base.portRole 63 ≠ 4 ∧ up.mod.begun.base.undeliverable 63 = none ∧
      up.mod.begun.hostHeld 63 = none ∧ (up.mod.begun.pick 63 (partnerCredit { p := some 0 })).2 = some (504, q)) ∧
    (cam.coreIs cam.mod.begun ∧ cam.mod.begun.base.portRole 63 = 4 ∧
      (List.range 8).find? (fun k => cam.mod.begun.base.camPort k == some 63) = some 7) := by
  exact ⟨⟨coreIs_of _ (by decide +kernel), by decide +kernel⟩, ⟨coreIs_of _ (by decide +kernel), by decide +kernel⟩,
    coreIs_of _ (by decide +kernel), by decide +kernel⟩

/-! ### The queue engines -/

/-- A descriptor of slice 3 at the front of queue pair 4095. -/
def desc (op : Nat) (body : List (Nat × Nat)) : Desc :=
  { id := 0, gqp := 4095, slice := 3, gen := 0,
    raw := (List.range 64).map (fun i => if i = 0 then BitVec.ofNat 8 op else BitVec.ofNat 8 ((body.lookup i).getD 0)) }

/-- A running module with one fetched descriptor. -/
def fetched (d : Desc) (m : Mod) : State := live 6 { m with qe := { descs := [d] } }

/-- Guard 24 with a rule that allows every access to the hosts' space. -/
def hostRule : RegFile :=
  [reg (Reg.GRD_RULE_ATTR 24 0) (0x77 + 2 ^ 18), reg (Reg.GRD_RULE_LIMIT 24 0) (2 ^ 32 - 1), reg (Reg.GRD_RULE_LIMIT 24 0 + 4) (2 ^ 32 - 1)]

theorem meets_descriptors :
    let s := fun d => (fetched d {}).mod.begun
    (fetched (desc 1 []) {}).coreIs (s (desc 1 [])) ∧
    ((s (desc 1 [])).frontOp 4095 1 = some (desc 1 []) ∧ ((s (desc 1 [])).routeGuard (desc 1 [])).2.isSome = true) ∧
    (s (desc 4 [])).qe.descs.find? (fun d => d.gqp == 4095 && d.phase == .queued && d.opcode == 4 && !d.bad) = some (desc 4 []) ∧
    (s (desc 5 [])).frontOp 4095 5 = some (desc 5 []) ∧
    ((s (desc 0x11 [])).frontOp 4095 0x11 = some (desc 0x11 []) ∧
      (s (desc 0x11 [])).base.isSet Reg.GRD_COMMIT F.GRD_COMMIT_done = true) ∧
    (let t := (fetched (desc 0x11 []) (regs [reg Reg.GRD_COMMIT 0])).mod.begun
     t.frontOp 4095 0x11 = some (desc 0x11 []) ∧ t.base.isSet Reg.GRD_COMMIT F.GRD_COMMIT_done = false) := by
  exact ⟨coreIs_of _ (by decide +kernel), by decide +kernel⟩

theorem meets_moves :
    let m : Mod := { base := { act := hostRule } }
    let d := { desc 1 [] with awake := true }
    let e := desc 1 [(0x28, 1)]
    ((fetched d m).coreIs (fetched d m).mod.begun ∧ (fetched d m).mod.begun.frontOp 4095 1 = some d ∧
      ((fetched d m).mod.begun.routeGuard d).2 = none ∧ d.awake = true) ∧
    ((fetched e m).mod.begun.frontOp 4095 1 = some e ∧ ((fetched e m).mod.begun.routeGuard e).2 = none ∧ e.awake = false) := by
  exact ⟨⟨coreIs_of _ (by decide +kernel), by decide +kernel⟩, by decide +kernel⟩

/-- Shelf 55 behind port 63, found awake or not when its descriptor was fetched; shelf 54 is behind no port. -/
theorem meets_parks :
    let cfg := word (Reg.PRT_CFG 63) [(F.PRT_CFG_role, 2), (F.PRT_CFG_slot, 55)]
    let m : Mod := { base := { regs := [cfg], act := hostRule } }
    let ok := fun (op shelf : Nat) (awake live : Bool) (port : Option Nat) =>
      let d := { desc op [(0x28, shelf)] with awake := awake, live := live }
      let s := fetched d m
      s.mod.begun.frontOp 4095 op = some d ∧ (s.mod.begun.routeGuard d).2 = none ∧ d.opcode = op ∧
      (s.mod.begun.routeGuard d).1.parkPort d = port
    ok 2 55 true false (some 63) ∧ ok 2 55 true true (some 63) ∧ ok 2 55 false false (some 63) ∧ ok 3 55 true false (some 63) ∧
    ok 3 55 true true (some 63) ∧ ok 3 55 false false (some 63) ∧ ok 2 54 false false none ∧ ok 3 54 false false none := by
  decide +kernel

theorem meets_fetches :
    let s := live 6 { tags := [{ port := 0, tag := 3, owner := some (.fetch 7 9) }] }
    let m := regs [word (Reg.SLC_STATE 0) [(F.SLC_STATE_state, 1)], word (Reg.SLC_RES 0) [(F.SLC_RES_qp_count, 64)]]
    (s.coreIs s.mod.begun ∧ (s.mod.begun.tagOf (.fetch 7 9)).isSome = true) ∧
    ((live 6 (timed (.irqTime 63) m)).coreDue (.irqTime 63) ((live 6 (timed (.irqTime 63) m)).mod.begun.timerAt (.irqTime 63) 9) ∧
      ((live 6 (timed (.irqTime 63) m)).mod.begun.timerAt (.irqTime 63) 9).base.qpOwner 63 = some (0, 63)) := by
  exact ⟨⟨coreIs_of _ (by decide +kernel), by decide +kernel⟩, coreDue_of _ _ _ (by decide +kernel), by decide +kernel⟩
/-! ### Configuration space -/

theorem meets_configuration :
    let en := word Reg.GLB_PARTITIONS [(F.GLB_PARTITIONS_enabled, 0x81)]
    let s := live 6 (regs [en])
    let links := live 3 (regs [en])
    let d := live 6 (regs [en, word (Reg.PRT_CFG 63) [(F.PRT_CFG_role, 2), (F.PRT_CFG_partition, 7)]])
    let up := regs [word (Reg.PRT_CFG 63) [(F.PRT_CFG_role, 1), (F.PRT_CFG_partition, 7)]]
    (s.cfgIs 7 s.mod.begun ∧ s.mod.begun.base.stage ≠ 3) ∧ (links.cfgIs 7 links.mod.begun ∧ links.mod.begun.base.stage = 3) ∧
    (d.cfgIs (cfgIndex (.down 63)) d.mod.begun ∧ (cfgIndex (.down 63) < 8 → d.mod.begun.base.stage ≠ 3)) ∧
    (s.cfgIs (cfgIndex (.endpoint 7)) s.mod.begun ∧ (cfgIndex (.endpoint 7) < 8 → s.mod.begun.base.stage ≠ 3)) ∧
    ((live 6 (timed (.resetDrain 7) up)).coreDue (.resetDrain 7) ((live 6 (timed (.resetDrain 7) up)).mod.begun.timerAt (.resetDrain 7) 9) ∧
      ((live 6 (timed (.resetDrain 7) up)).mod.begun.timerAt (.resetDrain 7) 9).base.upstreamPort 7 = some 63) := by
  exact ⟨⟨⟨rfl, rfl, by decide +kernel⟩, by decide +kernel⟩, ⟨⟨rfl, rfl, by decide +kernel⟩, by decide +kernel⟩,
    ⟨⟨rfl, rfl, by decide +kernel⟩, by decide +kernel⟩, ⟨⟨rfl, rfl, by decide +kernel⟩, by decide +kernel⟩,
    coreDue_of _ _ _ (by decide +kernel), by decide +kernel⟩

theorem meets_shelfPortConfiguration :
    let cfg := word (Reg.PRT_CFG 63) [(F.PRT_CFG_role, 2), (F.PRT_CFG_slot, 55)]
    let trig : State := live 6 { base := { regs := [cfg], cfgs := [reg ((24 + 63) * 4096 + 0x2A8) 1] } }
    let up := live 6 (regs [cfg, word (Reg.PRT_STATUS 63) [(F.PRT_STATUS_link_up, 1)],
                            word (Reg.PRK_SHELF_STATE 55) [(F.PRK_SHELF_STATE_state, 6)]])
    let b := fun (s : State) (set : Bool) =>
      s.mod.begun.base.setCfg 87 0x3C (putBits (s.mod.begun.base.cfg 87 0x3C) ⟨22, 1⟩ (b2n set))
    (trig.powerIs trig.mod.begun ∧ trig.mod.begun.cfgAlive = true ∧ trig.mod.begun.base.portRole 63 = 2 ∧
      bitOf (trig.mod.begun.base.cfg (24 + 63) 0x2A8) 0 = true ∧ (b trig true).linkUp 63 = false) ∧
    (up.powerIs up.mod.begun ∧ up.mod.begun.cfgAlive = true ∧ up.mod.begun.base.portRole 63 = 2 ∧ (b up true).linkUp 63 = true ∧
      (b up true).rd (Reg.PRT_CFG 63) F.PRT_CFG_slot < 56 ∧ ((b up true).emit (.hotReset 63 true)).slotState 55 = 6 ∧
      (b up false).linkUp 63 = true) := by
  exact ⟨⟨powerIs_of _ rfl, by decide +kernel⟩, powerIs_of _ rfl, by decide +kernel⟩

theorem meets_multicastConfiguration :
    let s := live 6 (regs [word (Reg.PRT_MC 63) [(F.PRT_MC_mc_count, 64)]])
    s.powerIs s.mod.begun ∧ s.mod.begun.cfgAlive = true ∧ (63 : Nat) < s.mod.begun.base.rd (Reg.PRT_MC 63) F.PRT_MC_mc_count := by
  exact ⟨powerIs_of _ rfl, by decide +kernel⟩

/-! ### Slices -/

/-- A SLICE_CTL of operation `op` on slice 5. -/
def ctl (op : Nat) (body : List (Nat × Nat)) : Desc := { desc 0x10 ((0x10, op + 16 * 5) :: body) with slice := 0, id := 1 }

/-- A running module with slice 5 in state `st`, and this SLICE_CTL at the front. -/
def withCtl (st : Nat) (d : Desc) (m : Mod) : State :=
  live 6 { m with base := { m.base with regs := word (Reg.SLC_STATE 5) [(F.SLC_STATE_state, st)] ::
                                          word Reg.GLB_PARTITIONS [(F.GLB_PARTITIONS_enabled, 1)] :: m.base.regs },
                  qe := { descs := [d] } }

/-- Is the operation taken, as the commands of the slices take it? -/
def takes (st op : Nat) (d : Desc) : Bool := ((withCtl st d {}).mod.begun.ctlTake op).2 == some d

theorem meets_sliceControl :
    (withCtl 1 (ctl 1 []) {}).coreIs (withCtl 1 (ctl 1 []) {}).mod.begun ∧
    (takes 5 1 (ctl 1 []) = true ∧ ((withCtl 5 (ctl 1 []) {}).mod.begun.ctlTake 1).1.base.sliceState (ctl 1 []).ctlSlice = 5) ∧
    (takes 1 1 (ctl 1 []) = true ∧ ((withCtl 1 (ctl 1 []) {}).mod.begun.ctlTake 1).1.base.sliceState (ctl 1 []).ctlSlice = 1) ∧
    takes 3 2 (ctl 2 []) = true ∧ takes 6 3 (ctl 3 []) = true ∧ takes 1 4 (ctl 4 []) = true ∧ takes 5 7 (ctl 7 []) = true ∧
    takes 7 8 (ctl 8 []) = true := by
  exact ⟨coreIs_of _ (by decide +kernel), by decide +kernel⟩

/-- A CREATE of one queue pair and one channel finds its resources where no slice is live, the first channel is in queue mode and
no quota is asked. -/
theorem resources_found (m : Mod) (s p pasid vec : Nat) (h : m.base.liveSlices = []) (hd : m.base.direct 0 0 = false) :
    ∃ r, m.resources s p pasid vec 0 1 1 0 0 = .ok r := by
  have hf : 0 < m.base.freeChans.length := by
    refine List.length_pos_of_mem (a := 0) ?_
    simp [Base.freeChans, h, hd]
  simp [Mod.resources, Base.vecOverlap, Base.dupPasid, Base.qpRuns, Base.quotaGiven, h, lowestRun, Nat.not_lt.2 hf]

theorem meets_create :
    let d := ctl 0 [(0x18, 0x81)]
    let n := ((withCtl 0 d {}).mod.begun.ctlTake 0).1
    let other := regs [word (Reg.SLC_STATE 6) [(F.SLC_STATE_state, 1)]]
    let x := ((withCtl 0 d other).mod.begun.ctlTake 0).1
    (takes 0 0 d = true ∧ ∃ r, n.resources d.ctlSlice d.ctlPart d.ctlPasid d.ctlVec d.ctlVecs d.ctlQp d.ctlChan d.ctlMeter d.ctlQuota = .ok r) ∧
    (((withCtl 0 d other).mod.begun.ctlTake 0).2 = some d ∧ x.base.vecOverlap 5 0 0 0 = false ∧ x.base.dupPasid 5 0 0 = true) := by
  refine ⟨⟨by decide +kernel, ?_⟩, by decide +kernel⟩
  have h := resources_found (withCtl 0 (ctl 0 [(0x18, 0x81)]) {}).mod.begun 5 0 0 0 (by decide +kernel) (by decide +kernel)
  have e0 : ((withCtl 0 (ctl 0 [(0x18, 0x81)]) {}).mod.begun.ctlTake 0).1 = (withCtl 0 (ctl 0 [(0x18, 0x81)]) {}).mod.begun := by
    decide +kernel
  have e : (ctl 0 [(0x18, 0x81)]).ctlSlice = 5 ∧ (ctl 0 [(0x18, 0x81)]).ctlPart = 0 ∧ (ctl 0 [(0x18, 0x81)]).ctlPasid = 0 ∧
      (ctl 0 [(0x18, 0x81)]).ctlVec = 0 ∧ (ctl 0 [(0x18, 0x81)]).ctlVecs = 0 ∧ (ctl 0 [(0x18, 0x81)]).ctlQp = 1 ∧
      (ctl 0 [(0x18, 0x81)]).ctlChan = 1 ∧ (ctl 0 [(0x18, 0x81)]).ctlMeter = 0 ∧ (ctl 0 [(0x18, 0x81)]).ctlQuota = 0 := by decide +kernel
  obtain ⟨e1, e2, e3, e4, e5, e6, e7, e8, e9⟩ := e
  simp only [e0, e1, e2, e3, e4, e5, e6, e7, e8, e9]
  exact h

theorem meets_saveRestore :
    let bme : Mod := { base := { cfgs := [reg (0 * 4096 + 4) 4], act := hostRule } }
    let n := fun (d : Desc) (m : Mod) (op : Nat) => ((withCtl (if op = 5 then 5 else 0) d m).mod.begun.ctlTake op).1
    (takes 5 5 (ctl 5 []) = true ∧ (n (ctl 5 []) {} 5).base.bme ((n (ctl 5 []) {} 5).base.slicePart 0) = false) ∧
    (((withCtl 5 (ctl 5 []) bme).mod.begun.ctlTake 5).2 = some (ctl 5 []) ∧
      (n (ctl 5 []) bme 5).base.bme ((n (ctl 5 []) bme 5).base.slicePart 0) = true ∧
      ((n (ctl 5 []) bme 5).base.guard (24 + (n (ctl 5 []) bme 5).base.slicePart 0)
        ((n (ctl 5 []) bme 5).blobAccess (ctl 5 []) (ctl 5 []).ctlBlob 256 true)).2 = none) ∧
    (takes 0 6 (ctl 6 []) = true ∧ (n (ctl 6 []) {} 6).base.bme ((n (ctl 6 []) {} 6).base.slicePart 0) = false) ∧
    (((withCtl 0 (ctl 6 []) bme).mod.begun.ctlTake 6).2 = some (ctl 6 []) ∧
      (n (ctl 6 []) bme 6).base.bme ((n (ctl 6 []) bme 6).base.slicePart 0) = true ∧
      (n (ctl 6 []) bme 6).tagsFree (((n (ctl 6 []) bme 6).base.upstreamPort ((n (ctl 6 []) bme 6).base.slicePart 0)).getD 0) 1 = true) := by
  decide +kernel

theorem meets_sliceEnds :
    let d := ctl 8 []
    let scrub := live 6 (timed (.scrub 1023) { slc := { scrub := some (1, 1023) }, qe := { descs := [d] } })
    let save := live 6 { slc := { blob := some { desc := 1, slice := 5, save := true, addr := 0 } }, qe := { descs := [d] } }
    let read := live 6 { tags := [{ port := 0, tag := 0, owner := some .blob }] }
    let freeze := live 6 (timed (.freezeDeadline 1023) { slc := { runs := [{ slice := 1023, kind := 1 }] } })
    (scrub.coreDue (.scrub 1023) (scrub.mod.begun.timerAt (.scrub 1023) 9) ∧
      (scrub.mod.begun.timerAt (.scrub 1023) 9).slc.scrub = some (1, 1023) ∧ (scrub.mod.begun.timerAt (.scrub 1023) 9).qe.desc 1 = some d) ∧
    (save.coreIs save.mod.begun ∧ save.mod.begun.slc.blob = some { desc := 1, slice := 5, save := true, addr := 0 } ∧
      save.mod.begun.qe.desc 1 = some d) ∧
    (read.coreIs read.mod.begun ∧ (read.mod.begun.tagOf .blob).isSome = true) ∧
    (live 6 (timed (.quiesceLimit 1023) {})).coreDue (.quiesceLimit 1023) ((live 6 (timed (.quiesceLimit 1023) {})).mod.begun.timerAt (.quiesceLimit 1023) 9) ∧
    (freeze.coreDue (.freezeDeadline 1023) (freeze.mod.begun.timerAt (.freezeDeadline 1023) 9) ∧
      (freeze.mod.begun.timerAt (.freezeDeadline 1023) 9).slc.run 1023 = some { slice := 1023, kind := 1 }) ∧
    ([1, 2, 4, 3, 5, 0, 6, 7].map (fun st => (live 6 (regs [word (Reg.SLC_STATE 5) [(F.SLC_STATE_state, st)]])).mod.begun.base.sliceState 5) =
      [1, 2, 4, 3, 5, 0, 6, 7]) := by
  exact ⟨⟨coreDue_of _ _ _ (by decide +kernel), by decide +kernel⟩, ⟨coreIs_of _ (by decide +kernel), by decide +kernel⟩,
    ⟨coreIs_of _ (by decide +kernel), by decide +kernel⟩, coreDue_of _ _ _ (by decide +kernel),
    ⟨coreDue_of _ _ _ (by decide +kernel), by decide +kernel⟩, by decide +kernel⟩
/-! ### Hods and lost reads -/

/-- A run of hod 15 with nothing left to fetch. -/
def hodRun : HodRun :=
  { h := 15, c := 63, slice := 0, gen := 0, part := none, mgmt := true, desc := none, count := 0,
    src := { space := 0, sg := false, port := 0, cur := 0, left := 0, list := 0 },
    dst := { space := 0, sg := false, port := 0, cur := 0, left := 0, list := 0 } }

theorem meets_hods :
    let st : HodStart := { h := 15, c := 63, mgmt := true, desc := none }
    let free := live 6 { base := { regs := [word (Reg.HOD_CFG 15) [(F.HOD_CFG_enable, 1)]] }, hod := { starts := [st] } }
    let hold := live 6 { base := { regs := [word (Reg.HOD_CFG 15) [(F.HOD_CFG_enable, 1)], word (Reg.HOD_CTL 15) [(F.HOD_CTL_hold, 1)]] },
                         hod := { starts := [st] } }
    let run := live 6 { hod := { runs := [hodRun] }, tags := [{ port := 0, tag := 9, owner := some (.hod 15 4) }] }
    let flush := live 6 { hod := { runs := [{ hodRun with flushing := true }] } }
    let gap := live 6 (timed (.retryGap 15 63) { hod := { runs := [hodRun] } })
    (free.coreIs free.mod.begun ∧ free.mod.begun.hod.run 15 = none ∧ free.mod.begun.base.isSet (Reg.HOD_CFG 15) F.HOD_CFG_enable = true ∧
      free.mod.begun.hod.starts.find? (fun x => x.h == 15) = some st ∧ free.mod.begun.hodHold 15 = false) ∧
    (hold.coreIs hold.mod.begun ∧ hold.mod.begun.hod.run 15 = none ∧ hold.mod.begun.base.isSet (Reg.HOD_CFG 15) F.HOD_CFG_enable = true ∧
      hold.mod.begun.hod.starts.find? (fun x => x.h == 15) = some st ∧ hold.mod.begun.hodHold 15 = true) ∧
    (run.coreIs run.mod.begun ∧ run.mod.begun.hod.run 15 = some hodRun ∧ hodRun.failed = [] ∧
      run.mod.begun.tags.find? (fun t => t.tag == 9 && (match t.owner with
        | some (.hod g _) => g == 15
        | _ => false)) = some { port := 0, tag := 9, owner := some (.hod 15 4) }) ∧
    (gap.mod.hod.run 15 = some hodRun ∧ gap.coreDue (.retryGap 15 hodRun.c) (gap.mod.begun.timerAt (.retryGap 15 63) 9)) ∧
    (flush.coreIs flush.mod.begun ∧ flush.mod.begun.hod.run 15 = some { hodRun with flushing := true } ∧
      hodRun.reads.find? (fun x => x.flush) = none) := by
  exact ⟨⟨coreIs_of _ (by decide +kernel), by decide +kernel⟩, ⟨coreIs_of _ (by decide +kernel), by decide +kernel⟩,
    ⟨coreIs_of _ (by decide +kernel), by decide +kernel⟩, ⟨by decide +kernel, coreDue_of _ _ _ (by decide +kernel)⟩,
    coreIs_of _ (by decide +kernel), by decide +kernel⟩

theorem meets_lostReads :
    let used : TagUse := { port := 63, tag := 255, owner := some (.fetch 0 0) }
    let held : TagUse := { port := 63, tag := 255, owner := none, reason := 2 }
    let s := live 6 (timed (.cplTimeout 63 255) { tags := [used] })
    let q := live 6 { tags := [held] }
    let none' := live 6 {}
    (s.coreDue (.cplTimeout 63 255) (s.mod.begun.timerAt (.cplTimeout 63 255) 9) ∧
      (s.mod.begun.timerAt (.cplTimeout 63 255) 9).tags.find? (fun t => t.port == 63 && t.tag == 255 && t.owner.isSome) = some used) ∧
    (live 6 (timed (.quarantine 63 255) {})).coreDue (.quarantine 63 255) ((live 6 (timed (.quarantine 63 255) {})).mod.begun.timerAt
      (.quarantine 63 255) 9) ∧
    (none'.coreIs none'.mod.begun ∧ none'.mod.begun.tags.find? (fun t => t.port == 63 && t.tag == 255) = none) ∧
    (q.coreIs q.mod.begun ∧ q.mod.begun.tags.find? (fun t => t.port == 63 && t.tag == 255) = some held) := by
  exact ⟨⟨coreDue_of _ _ _ (by decide +kernel), by decide +kernel⟩, coreDue_of _ _ _ (by decide +kernel),
    ⟨coreIs_of _ (by decide +kernel), by decide +kernel⟩, coreIs_of _ (by decide +kernel), by decide +kernel⟩

/-! ### Ordering and guards -/

/-- The last byte of a window of 1 GiB, with and without a rule that allows it. -/
theorem meets_parkWindow :
    let m : Mod := { base := { bar2 := [1] } }
    let g : Mod := { base := { bar2 := [1], act := allowAll 24 } }
    let last := 2 ^ 30 - 1
    let ok := fun (m : Mod) (allowed : Bool) =>
      let x := (live 6 m).mod.begun
      x.base.d3hot 0 = false ∧ last + 1 ≤ x.base.bar2Size 0 ∧ x.base.stage = 6 ∧
      (x.base.guard (24 + 0) (x.base.hostAccess 0 last 1 none false true)).2.isNone = allowed ∧
      ((x.drainPath 0).base.guard (24 + 0) ((x.drainPath 0).base.hostAccess 0 last 1 none true false)).2.isNone = allowed
    (live 6 g).coreIs (live 6 g).mod.begun ∧ ok g true ∧ ok m false := by
  exact ⟨coreIs_of _ (by decide +kernel), by decide +kernel⟩

theorem meets_orderingTimers :
    let c := live 6 (timed .guardCommit { base := { commit := some { mask := 1 } } })
    (live 6 (timed (.mergeWindow 7) {})).coreDue (.mergeWindow 7) ((live 6 (timed (.mergeWindow 7) {})).mod.begun.timerAt (.mergeWindow 7) 9) ∧
    (live 6 (timed (.reservation 1023) {})).coreDue (.reservation 1023)
      ((live 6 (timed (.reservation 1023) {})).mod.begun.timerAt (.reservation 1023) 9) ∧
    (c.coreDue .guardCommit (c.mod.begun.timerAt .guardCommit 9) ∧ (c.mod.begun.timerAt .guardCommit 9).base.commit = some { mask := 1 } ∧
      (c.mod.begun.timerAt .guardCommit 9).base.commitWait = []) := by
  exact ⟨coreDue_of _ _ _ (by decide +kernel), coreDue_of _ _ _ (by decide +kernel), coreDue_of _ _ _ (by decide +kernel), by decide +kernel⟩

theorem meets_debug :
    let s := live 6 { base := { act := allowAll 40 }, pl := { debugOpen := true } }
    let m := s.mod.begun
    (({} : State).powerIs ({} : State).mod.begun ∧ (({} : State).mod.begun.pl.dieOn && ({} : State).mod.begun.pl.debugOpen) = false) ∧
    (s.powerIs m ∧ m.pl.dieOn = true ∧ m.pl.debugOpen = true ∧ 8 < ctlAddr 0 ∧ 8 < mgmtAddr 0 ∧ m.base.stage = 6 ∧ m.pl.m2 = 0 ∧
      (m.base.guard 40 { space := 0, addr := 8, len := 8, rd := true, wr := false, secure := true, ident := 40 }).2 = none ∧
      m.dram.poisoned 8 8 = false) := by
  exact ⟨⟨powerIs_of _ rfl, by decide +kernel⟩, powerIs_of _ rfl, by decide +kernel⟩

/-! ### The park store and the shelves -/

/-- A park entry of shelf 55 in state `st`. -/
def entry (st : Nat) : Entry :=
  { idx := 7, state := st, cls := 1, release := false, read := false, shelf := 55, slice := 0, gen := 0, hostAddr := 0, pasid := 0,
    length := 64, shelfAddr := 0, grans := [(0, 1)], seq := 0, parkTime := 0, qp := 0, cid := 0, entryNo := 0, entryLast := 0,
    desc := none }

theorem meets_park :
    let t := fun (o : TagOwner) => live 6 { tags := [{ port := 0, tag := 0, owner := some o }], prk := { entries := [{ entry 6 with flushing := true }] } }
    let age := live 6 (timed (.entryExpiry 7) { base := { regs := [reg (Reg.PRK_CLASS_EXPIRE 1) 1] }, prk := { entries := [entry 2] } })
    let wait := live 6 (timed (.admissionWait 5) { prk := { waits := [{ desc := 5, k := 1, g := 1 }] } })
    let hold := live 6 (timed (.sweepHold 1023) { slc := { runs := [{ slice := 1023, kind := 0 }] } })
    (t .blob).coreIs (t .blob).mod.begun ∧
    (((t (.ingest 7 0)).mod.begun.tagOf (.ingest 7 0)).isSome = true ∧ ((t (.sweepRead 7 0)).mod.begun.tagOf (.sweepRead 7 0)).isSome = true ∧
      ((t (.refetch 7 0)).mod.begun.tagOf (.refetch 7 0)).isSome = true) ∧
    (((t (.sweepFlush 7)).mod.begun.tagOf (.sweepFlush 7)).isSome = true ∧
      ((t (.sweepFlush 7)).mod.begun.freeTagOf (.sweepFlush 7)).prk.entry 7 = some { entry 6 with flushing := true }) ∧
    (wait.mod.begun.firstWait = some ({ desc := 5, k := 1, g := 1 }, 9) ∧
      wait.coreDue (.admissionWait 5) (wait.mod.begun.timerAt (.admissionWait 5) 9)) ∧
    (age.coreDue (.entryExpiry 7) (age.mod.begun.timerAt (.entryExpiry 7) 9) ∧
      (age.mod.begun.timerAt (.entryExpiry 7) 9).prk.entry 7 = some (entry 2) ∧ (entry 2).state ≠ 6 ∧ (entry 2).state ≠ 7 ∧
      (age.mod.begun.timerAt (.entryExpiry 7) 9).base.expireNs 1 ≠ 0) ∧
    (live 6 (timed (.batch 55) {})).coreDue (.batch 55) ((live 6 (timed (.batch 55) {})).mod.begun.timerAt (.batch 55) 9) ∧
    (live 6 (timed (.promote 55) {})).coreDue (.promote 55) ((live 6 (timed (.promote 55) {})).mod.begun.timerAt (.promote 55) 9) ∧
    (hold.coreDue (.sweepHold 1023) (hold.mod.begun.timerAt (.sweepHold 1023) 9) ∧
      ((hold.mod.begun.timerAt (.sweepHold 1023) 9).slc.run 1023).isSome = true) := by
  exact ⟨coreIs_of _ (by decide +kernel), by decide +kernel, by decide +kernel, ⟨by decide +kernel, coreDue_of _ _ _ (by decide +kernel)⟩,
    ⟨coreDue_of _ _ _ (by decide +kernel), by decide +kernel⟩, coreDue_of _ _ _ (by decide +kernel), coreDue_of _ _ _ (by decide +kernel),
    coreDue_of _ _ _ (by decide +kernel), by decide +kernel⟩

/-- Shelf slot 55 in state `st`, behind port 63 where `port`, with its link up where `up`. -/
def shelf (st : Nat) (port up : Bool) (pg : Bool) : Mod :=
  { base := { regs := word (Reg.PRK_SHELF_STATE 55) [(F.PRK_SHELF_STATE_state, st)] ::
                (if port then [word (Reg.PRT_CFG 63) [(F.PRT_CFG_role, 2), (F.PRT_CFG_slot, 55)]] else []) ++
                (if up then [word (Reg.PRT_STATUS 63) [(F.PRT_STATUS_link_up, 1)]] else []) },
    prk := { slots := [{ n := 55, pg := pg }] } }

/-- The module when the timer of `timed` ends. -/
def ended (m : Mod) (k : TimerKey) : Mod := (live 6 (timed k m)).mod.begun.timerAt k 9

theorem meets_wake :
    let m := fun (st : Nat) (port up : Bool) => (live 6 (shelf st port up true)).mod.begun
    (live 6 (shelf 2 false false true)).coreIs (m 2 false false) ∧
    ((m 2 false false).base.slotState 55 = 2 ∧ (m 2 false false).base.slotPort 55 = none) ∧
    ((m 3 false false).base.slotPort 55 = none ∧ (m 3 false false).base.slotState 55 = 3 ∧ (m 6 false false).base.slotState 55 = 6) ∧
    (({} : State).powerIs ({} : State).mod.begun ∧ ({} : State).mod.begun.pl.dieOn = false) ∧
    ((live 6 (timed (.perstRelease 55) (shelf 3 false false true))).coreDue (.perstRelease 55) (ended (shelf 3 false false true) (.perstRelease 55)) ∧
      (ended (shelf 3 false false true) (.perstRelease 55)).base.slotState 55 = 3 ∧
      ((ended (shelf 3 false false true) (.perstRelease 55)).prk.slot 55).pg = true) ∧
    ((m 4 true true).base.slotPort 55 = some 63 ∧ (m 4 true true).base.linkUp 63 = true ∧ (m 4 true true).base.slotState 55 = 4) ∧
    ((m 4 true false).base.slotPort 55 = some 63 ∧ (m 4 true false).base.linkUp 63 = false) ∧
    (live 6 (timed (.readyDelay 55) {})).coreDue (.readyDelay 55) (ended {} (.readyDelay 55)) ∧
    (live 6 (timed (.readyPoll 55) {})).coreDue (.readyPoll 55) (ended {} (.readyPoll 55)) := by
  exact ⟨coreIs_of _ (by decide +kernel), by decide +kernel, by decide +kernel, ⟨powerIs_of _ rfl, by decide +kernel⟩,
    ⟨coreDue_of _ _ _ (by decide +kernel), by decide +kernel⟩, by decide +kernel, by decide +kernel, coreDue_of _ _ _ (by decide +kernel),
    coreDue_of _ _ _ (by decide +kernel)⟩

theorem meets_poll :
    let s := live 6 { (shelf 5 true true true) with tags := [{ port := 0, tag := 0, owner := some (.poll 55) }] }
    let k := s.mod.begun.freeTagOf (.poll 55)
    let mask := live 6 { base := { regs := (shelf 5 true true true).base.regs ++ [reg (Reg.PRK_SHELF_READY_MASK 55) 1, reg (Reg.PRK_SHELF_READY_VAL 55) 1] },
                         tags := [{ port := 0, tag := 0, owner := some (.poll 55) }] }
    let n := mask.mod.begun.freeTagOf (.poll 55)
    let data : List Byte := [0, 0, 0, 0]
    (s.coreIs s.mod.begun ∧ (s.mod.begun.tagOf (.poll 55)).isSome = true ∧ k.base.slotState 55 = 5 ∧ 4 ≤ data.length ∧
      (BitVec.ofNat 32 (fieldAt data 0 4) &&& k.base.word (Reg.PRK_SHELF_READY_MASK 55)) = k.base.word (Reg.PRK_SHELF_READY_VAL 55)) ∧
    (mask.coreIs mask.mod.begun ∧ (mask.mod.begun.tagOf (.poll 55)).isSome = true ∧ n.base.slotState 55 = 5 ∧
      (BitVec.ofNat 32 (fieldAt data 0 4) &&& n.base.word (Reg.PRK_SHELF_READY_MASK 55)) ≠ n.base.word (Reg.PRK_SHELF_READY_VAL 55)) := by
  exact ⟨⟨coreIs_of _ (by decide +kernel), by decide +kernel⟩, coreIs_of _ (by decide +kernel), by decide +kernel⟩

theorem meets_stop :
    let k : TimerKey := .idleHold 55
    let r : TimerKey := .pwrreqRelease 55
    let m : TimerKey := .minOff 55
    let keep : Mod := { base := { regs := [word (Reg.PRK_SHELF_STATE 55) [(F.PRK_SHELF_STATE_state, 8)],
                                           word (Reg.PRK_SHELF_CTL 55) [(F.PRK_SHELF_CTL_pin, 1)],
                                           word (Reg.PRT_CFG 63) [(F.PRT_CFG_role, 2), (F.PRT_CFG_slot, 55)],
                                           word (Reg.PRT_SLOT 63) [(F.PRT_SLOT_present, 1)]] },
                        prk := { slots := [{ n := 55, keepSince := some 3 }] } }
    ((live 6 (timed k (shelf 6 false false true))).coreDue k (ended (shelf 6 false false true) k) ∧
      (ended (shelf 6 false false true) k).base.slotState 55 = 6 ∧ (ended (shelf 6 false false true) k).prk.live 55 = [] ∧
      (ended (shelf 6 false false true) k).base.slotPort 55 = none ∧
      (ended (shelf 6 false false true) k).base.isSet (Reg.PRK_SHELF_CTL 55) F.PRK_SHELF_CTL_pin = false) ∧
    ((live 6 (timed k (shelf 6 true true true))).coreDue k (ended (shelf 6 true true true) k) ∧
      (ended (shelf 6 true true true) k).base.slotState 55 = 6 ∧ (ended (shelf 6 true true true) k).base.slotPort 55 = some 63 ∧
      (ended (shelf 6 true true true) k).jobsTo 63 = false) ∧
    ((live 6 (timed r (shelf 7 false false true))).plinthDue r (ended (shelf 7 false false true) r) ∧
      (ended (shelf 7 false false true) r).pl.dieOn = true ∧ (ended (shelf 7 false false true) r).base.coreOn = true ∧
      (ended (shelf 7 false false true) r).base.slotState 55 = 7 ∧ ((ended (shelf 7 false false true) r).prk.slot 55).pg = true ∧
      ((ended (shelf 7 false false false) r).prk.slot 55).pg = false) ∧
    (({ mod := timed r {} } : State).plinthDue r ((({ mod := timed r {} } : State)).mod.begun.timerAt r 9) ∧
      (((({ mod := timed r {} } : State)).mod.begun.timerAt r 9).pl.dieOn && ((({ mod := timed r {} } : State)).mod.begun.timerAt r 9).base.coreOn) = false) ∧
    ((live 6 (timed m (shelf 8 false false false))).coreDue m (ended (shelf 8 false false false) m) ∧
      (ended (shelf 8 false false false) m).base.slotState 55 = 8 ∧ ((ended (shelf 8 false false false) m).prk.slot 55).keepSince = none) ∧
    ((live 6 (timed m keep)).coreDue m (ended keep m) ∧ (ended keep m).base.slotState 55 = 8 ∧ ((ended keep m).prk.slot 55).keepSince = some 3 ∧
      (({ ended keep m with base := (ended keep m).base.setSlotState 55 0, prk := { (ended keep m).prk with planDue := true } } : Mod).eligible
        55) = true) := by
  exact ⟨⟨coreDue_of _ _ _ (by decide +kernel), by decide +kernel⟩, ⟨coreDue_of _ _ _ (by decide +kernel), by decide +kernel⟩,
    ⟨plinthDue_of _ _ _ rfl, by decide +kernel⟩, ⟨⟨rfl, 9, by decide +kernel, rfl⟩, by decide +kernel⟩,
    ⟨coreDue_of _ _ _ (by decide +kernel), by decide +kernel⟩, coreDue_of _ _ _ (by decide +kernel), by decide +kernel⟩

theorem meets_stopTimers :
    let due := fun k => (live 6 (timed k {})).coreDue k (ended {} k)
    due (.pgTimeout 55) ∧ due (.linkTimeout 55) ∧ due (.readyTimeout 55) ∧
    ((live 6 (timed (.pgOff 55) (shelf 7 false false true))).coreDue (.pgOff 55) (ended (shelf 7 false false true) (.pgOff 55)) ∧
      (ended (shelf 7 false false true) (.pgOff 55)).base.slotState 55 = 7 ∧ ((ended (shelf 7 false false true) (.pgOff 55)).prk.slot 55).pg = true) ∧
    ((live 6 (shelf 6 true true true)).mod.begun.base.slotPort 55 = some 63 ∧ (live 6 (shelf 6 true true true)).mod.begun.base.linkUp 63 = true) := by
  exact ⟨coreDue_of _ _ _ (by decide +kernel), coreDue_of _ _ _ (by decide +kernel), coreDue_of _ _ _ (by decide +kernel),
    ⟨coreDue_of _ _ _ (by decide +kernel), by decide +kernel⟩, by decide +kernel⟩

theorem meets_memoryErrors :
    let s := live 6 { prk := { entries := [entry 2] } }
    let b := s.mod.begun
    let c := live 6 (regs [word (Reg.MEM_CH_CFG 7) [(F.MEM_CH_CFG_ce_thr, 1)], word Reg.PRK_SCRUB [(F.PRK_SCRUB_enable, 1)]])
    let m := c.mod.begun
    s.coreIs b ∧ (b.prk.holder 0 = some (entry 2) ∧ b.prk.holder 4096 = none) ∧
    (c.coreIs m ∧ m.dram.hour = m.base.todSec / 3600 ∧ m.base.rd (Reg.MEM_CH_CFG 7) F.MEM_CH_CFG_ce_thr = 1 ∧
      m.base.rd (Reg.MEM_CH_CFG 7) F.MEM_CH_CFG_ce_thr ≤ tget m.dram.ceHour 7 + 1 ∧ m.dram.ceRaised.contains 7 = false) ∧
    ((live 6 (regs [reg (Reg.MEM_CH_CFG 7) 0])).mod.begun.base.rd (Reg.MEM_CH_CFG 7) F.MEM_CH_CFG_ce_thr = 0) ∧
    (m.base.isSet Reg.PRK_SCRUB F.PRK_SCRUB_enable = true ∧ m.pl.m2 ≠ 2 ∧ m.base.stage = 6) ∧
    m.base.isSet (Reg.MEM_CH_STATUS 7) F.MEM_CH_STATUS_failed = false := by
  exact ⟨coreIs_of _ (by decide +kernel), by decide +kernel, ⟨coreIs_of _ (by decide +kernel), by decide +kernel⟩, by decide +kernel⟩

/-- A commit with and without a frame of an old epoch that waits, and a flush of a read of this module's and of another's. -/
theorem meets_waits :
    let old : Frame := { (frame) with guard := some (0, 5) }
    let c : Mod := { base := { commit := some { mask := 1 } }, sw := { waiting := [old] } }
    let t := fun (far : Option Nat) => live 6 { tags := [{ port := 0, tag := 0, owner := some (.sweepFlush 7) }],
                                                prk := { entries := [{ entry 6 with flushing := true, far := far }] } }
    let k := fun (far : Option Nat) => (t far).mod.begun.freeTagOf (.sweepFlush 7)
    ((live 6 (timed .guardCommit c)).coreDue .guardCommit (ended c .guardCommit) ∧
      (ended c .guardCommit).base.commit = some { mask := 1 } ∧ (ended c .guardCommit).oldEpoch 1 = true) ∧
    (ended { base := { commit := some { mask := 1 } } } .guardCommit).oldEpoch 1 = false ∧
    (((t none).mod.begun.tagOf (.sweepFlush 7)).isSome = true ∧
      (k none).prk.entry 7 = some { entry 6 with flushing := true } ∧ (entry 6).far = none ∧ (entry 6).state = 6) ∧
    (((t (some 3)).mod.begun.tagOf (.sweepFlush 7)).isSome = true ∧
      (k (some 3)).prk.entry 7 = some { entry 6 with flushing := true, far := some 3 }) := by
  exact ⟨⟨coreDue_of _ _ _ (by decide +kernel), by decide +kernel⟩, by decide +kernel⟩

/-- A shelf's link that may and may not train, and a slot whose min-off ends with a former since and nothing to do. -/
theorem meets_shelfTraining :
    let m := (live 6 (shelf 4 true false true)).mod.begun
    let boot := (live 3 (shelf 4 true false true)).mod.begun
    let k : TimerKey := .minOff 55
    let keep : Mod := { (shelf 8 false false false) with prk := { slots := [{ n := 55, keepSince := some 3 }] } }
    (m.base.slotPort 55 = some 63 ∧ m.base.linkUp 63 = false ∧ m.mayTrain 63 = true ∧ boot.base.linkUp 63 = false ∧ boot.mayTrain 63 = false) ∧
    ((live 6 (timed k keep)).coreDue k (ended keep k) ∧ (ended keep k).base.slotState 55 = 8 ∧ ((ended keep k).prk.slot 55).keepSince = some 3 ∧
      (({ ended keep k with base := (ended keep k).base.setSlotState 55 0, prk := { (ended keep k).prk with planDue := true } } : Mod).eligible
        55) = false) := by
  exact ⟨by decide +kernel, coreDue_of _ _ _ (by decide +kernel), by decide +kernel⟩

/-- Bytes of a stored entry, bytes of a park read in flight, and bytes of nobody. -/
theorem meets_dramErrors :
    let r : Entry := { entry 6 with read := true, grans := [], buf := List.replicate 64 0#8 }
    let s := fun (e : Entry) => live 6 { prk := { entries := [e] } }
    let n := fun (e : Entry) (addr : Nat) =>
      let m := (s e).mod.begun
      let i := channelOf addr
      let burst := addr / 64 * 64
      let a := Reg.MEM_CH_ERRADDR i
      let b := (m.base.bump (Reg.MEM_CH_CNT i 1)).bump (Reg.PRK_CNT 9)
      let b := if b.isSet a F.MEM_CH_ERRADDR_valid then b
        else (b.wr a F.MEM_CH_ERRADDR_addr burst).wr a F.MEM_CH_ERRADDR_valid 1
      let b := b.raise { group := 5, bit := 2, sev := 1, detail := burst % 2 ^ 32, detail2 := burst / 2 ^ 32 }
      (({ m with base := b } : Mod).loseRsv (fun r => r.line == some (addr / 64)) 5).burstLost i
    let at' := (s r).mod.begun.base.stageBase (engineOf 55)
    (s r).coreIs (s r).mod.begun ∧ ((n (entry 2) 0).prk.holder 0 = some (entry 2)) ∧
    ((n r at').prk.holder at' = none ∧ (n r at').stageHolder at' = some r) ∧
    ((n r (at' + 64)).prk.holder (at' + 64) = none ∧ (n r (at' + 64)).stageHolder (at' + 64) = none) := by
  exact ⟨coreIs_of _ (by decide +kernel), by decide +kernel⟩
/-! ### Ports, lanes and Camtex links -/

/-- Port 63 of a role, on lane 0, with these further words. -/
def port (role : Nat) (l : List (Nat × W32)) : Mod :=
  regs ([word (Reg.PRT_CFG 63) [(F.PRT_CFG_role, role), (F.PRT_CFG_partition, 7)], word (Reg.SER_STATUS 0) [(F.SER_STATUS_port, 63)]] ++ l)

theorem meets_ports :
    let pll := word (Reg.SER_TILE_STATUS 0) [(F.SER_TILE_STATUS_pll_lock, 1)]
    let up := word (Reg.PRT_STATUS 63) [(F.PRT_STATUS_link_up, 1)]
    let m := fun (role : Nat) (l : List (Nat × W32)) => (live 6 (port role l)).mod.begun
    (live 6 (port 3 [pll])).coreIs (m 3 [pll]) ∧
    ((m 3 [pll]).mayTrain 63 = true ∧ (m 3 [pll]).base.portRole 63 = 3 ∧ (m 3 [pll]).base.linkUp 63 = false) ∧
    ((m 2 [pll]).mayTrain 63 = true ∧ (m 2 []).mayTrain 63 = false ∧ (m 1 [pll]).mayTrain 63 = false ∧
      ({ (m 1 [pll]) with pl := { (m 1 [pll]).pl with hostReset := [7] } } : Mod).mayTrain 63 = true) ∧
    ((m 1 [up]).base.portRole 63 = 1 ∧ (m 1 [up]).base.linkUp 63 = true ∧ (m 3 [up]).base.linkUp 63 = true ∧ (m 1 []).base.linkUp 63 = false) ∧
    (let x := (live 6 { base := { regs := (port 2 []).base.regs, cfgs := [reg ((24 + 63) * 4096 + 0x2A4) (2 ^ 16)] } }).mod.begun
     x.base.portRole 63 = 2 ∧ x.base.cfg (24 + 63) 0x2A4 / 2 ^ 16 % 4 ≠ 0 ∧ x.base.contained 63 = false ∧
      bitOf (x.base.cfg (24 + 63) 0x2A4) 19 = false) := by
  exact ⟨coreIs_of _ (by decide +kernel), by decide +kernel⟩

theorem meets_l1 :
    let k : TimerKey := .l1Idle 63
    let up : Mod := { base := { regs := (port 1 [word (Reg.PRT_STATUS 63) [(F.PRT_STATUS_link_up, 1)]]).base.regs,
                                cfgs := [reg ((8 + 7) * 4096 + 0x80) 2] } }
    ((live 6 (timed k up)).coreDue k (ended up k) ∧ (ended up k).mayL1 63 = true ∧
      (ended up k).base.isSet (Reg.PRT_CFG 63) F.PRT_CFG_l1ss = false) ∧
    ((live 6 (timed k (port 1 []))).coreDue k (ended (port 1 []) k) ∧ (ended (port 1 []) k).mayL1 63 = false) := by
  exact ⟨⟨coreDue_of _ _ _ (by decide +kernel), by decide +kernel⟩, coreDue_of _ _ _ (by decide +kernel), by decide +kernel⟩

/-- HOST_PERST_7# of a running module, and of one in M2 whose held port it is. -/
theorem meets_hostPerst :
    let s := live 6 (port 1 [])
    let cfg := word (Reg.PRT_CFG 63) [(F.PRT_CFG_role, 1), (F.PRT_CFG_partition, 7), (F.PRT_CFG_m2_hold, 1)]
    let z : State := { mod := { base := { regs := [reg Reg.CLK_STATUS 6, cfg, word (Reg.SER_STATUS 0) [(F.SER_STATUS_port, 63)]] },
                                pl := { dieOn := true, m2 := 2 } } }
    let m := z.mod.begun
    let low : Mod := { m with pl := { m.pl with hostReset := m.pl.hostReset.filter (fun x => x != 7) } }
    (s.powerIs s.mod.begun ∧ s.mod.begun.pl.dieOn = true ∧ s.mod.begun.base.stage ≠ 8 ∧ s.mod.begun.base.perstActs 7 = true ∧
      s.mod.begun.base.coreOn = true ∧ (s.mod.begun.base.heldPort.isSome && s.mod.begun.base.heldPort == s.mod.begun.base.upstreamPort 7) = false ∧
      s.mod.begun.base.upstreamPort 7 = some 63 ∧ s.mod.begun.base.linkUp 63 = false ∧
      4 ≤ s.mod.begun.base.rd Reg.CLK_STATUS F.CLK_STATUS_stage) ∧
    (z.powerIs m ∧ m.base.perstActs 7 = true ∧ m.base.coreOn = false ∧
      (m.base.heldPort.isSome && m.base.heldPort == m.base.upstreamPort 7) = true ∧ (low.wakeEvent 1).base.coreOn = true ∧
      (low.wakeEvent 1).pl.dieOn = true ∧ (low.wakeEvent 1).base.stage ≠ 8) := by
  exact ⟨⟨powerIs_of _ rfl, by decide +kernel⟩, powerIs_of _ rfl, by decide +kernel⟩

theorem meets_lanes :
    let s := live 6 (port 2 [])
    let m := s.mod.begun
    let b := ((m.base.wr (Reg.SER_STATUS 191) F.SER_STATUS_sig_det 1).wr (Reg.SER_STATUS 191) F.SER_STATUS_cdr_lock 0).wr
      (Reg.SER_STATUS 191) F.SER_STATUS_adapt_done 0
    let eye := (live 6 (regs [word (Reg.SER_EYE 191) [(F.SER_EYE_paused, 1)]])).mod.begun
    let q := (live 6 { (port 2 []) with sw := { xfers := [{ frame := 0, eg := 23, sub := 0 }] } }).mod.begun
    let t := (live 6 (regs [word (Reg.SER_TILE_CTL 31) [(F.SER_TILE_CTL_test, 1)], word (Reg.SER_PRBS 255) [(F.SER_PRBS_chk_en, 1)]])).mod.begun
    s.coreIs m ∧
    (m.base.isSet (Reg.SER_LANE_CFG 191) F.SER_LANE_CFG_disable = false ∧ m.base.camTile (laneTile 191) = false ∧ b.camTile (laneTile 191) = false) ∧
    (m.base.isSet (Reg.SER_STATUS 191) F.SER_STATUS_sig_det = false ∧ eye.base.isSet (Reg.SER_EYE 191) F.SER_EYE_paused = true ∧
      m.base.isSet (Reg.SER_EYE 191) F.SER_EYE_paused = false) ∧
    (m.base.camTile 23 = false ∧ m.base.inTest 23 = false ∧ m.base.isSet (Reg.SER_TILE_CTL 23) F.SER_TILE_CTL_no_gate = false ∧
      m.base.tileIdle 23 = true ∧ m.cellQueued 23 = false ∧ q.base.tileIdle 23 = true ∧ q.cellQueued 23 = true) ∧
    (3 ≤ m.base.stage ∧ m.base.stage ≤ 6 ∧ (m.base.wr (Reg.SER_TILE_STATUS 23) F.SER_TILE_STATUS_pll_lock 1).inTest 23 = false) ∧
    (t.base.inTest (laneTile 255) = true ∧ t.base.isSet (Reg.SER_PRBS 255) F.SER_PRBS_chk_en = true) := by
  exact ⟨coreIs_of _ (by decide +kernel), by decide +kernel⟩

/-- Camtex port 7 in a state of FAB_STATUS, with these further words and what the port keeps. -/
def camtex (st : Nat) (l : List (Nat × W32)) (c : CamPort) : Mod :=
  { base := { regs := [word (Reg.FAB_STATUS 7) [(F.FAB_STATUS_state, st)], word (Reg.SER_TILE_CFG 31) [(F.SER_TILE_CFG_family, 1)]] ++ l },
    cams := [c] }

theorem meets_camtexLinks :
    let frame := [word (Reg.SER_STATUS 248) [(F.SER_STATUS_frame, 1)]]
    let on : CamPort := { k := 7, running := true, active := 1 }
    let am : CamPort := { on with lanes := [{ lane := 0, missing := 3 }] }
    let m := fun (st : Nat) (l : List (Nat × W32)) (c : CamPort) => (live 6 (camtex st l c)).mod.begun
    (live 6 (camtex 6 frame on)).coreIs (m 6 frame on) ∧
    ((m 6 frame on).base.camTile (laneTile 248) = true ∧ (m 6 frame on).base.isSet (Reg.SER_STATUS 248) F.SER_STATUS_frame = true ∧
      ((m 6 frame on).cam (248 / 8 - 24)).running = true ∧ bitOf ((m 6 frame on).cam (248 / 8 - 24)).active (248 % 8) = true ∧
      ((m 6 frame { k := 7 }).cam (248 / 8 - 24)).running = false) ∧
    (fieldAt ([0] : List Byte) 0 1 ≠ 0x4B ∧ ((m 6 [] on).cam 7 |>.lane 0).missing + 1 < 4 ∧ 4 ≤ ((m 6 [] am).cam 7 |>.lane 0).missing + 1) ∧
    ((2#8).toNat = 2 ∧ (1#8).toNat ≤ 1 ∧ 2 < (3#8).toNat) ∧
    (3 ≤ (m 3 [] on).base.camState 7 ∧ (m 5 [] on).base.camState 7 ≤ 5 ∧ bitOf ((m 3 [] on).cam 7).used 7 = true) ∧
    ((m 6 [] { on with waking := 2 }).cam 7).waking = 2 := by
  exact ⟨coreIs_of _ (by decide +kernel), by decide +kernel⟩

theorem meets_camtexTimers :
    let due := fun (k : TimerKey) (m : Mod) => (live 6 (timed k m)).coreDue k (ended m k)
    let quiet : CamPort := { k := 7 }
    let sleeps : CamPort := { k := 7, sleeping := true }
    let wakes : CamPort := { k := 7, waking := 1 }
    (due (.resetHold 7) (camtex 1 [] quiet) ∧ (ended (camtex 1 [] quiet) (.resetHold 7)).base.camState 7 = 1 ∧
      ((ended (camtex 1 [] quiet) (.resetHold 7)).cam 7).sleeping = false ∧ ((ended (camtex 1 [] quiet) (.resetHold 7)).cam 7).waking = 0) ∧
    (due (.resetHold 7) (camtex 1 [] sleeps) ∧ (ended (camtex 1 [] sleeps) (.resetHold 7)).base.camState 7 = 1 ∧
      ((ended (camtex 1 [] sleeps) (.resetHold 7)).cam 7).sleeping = true) ∧
    (due (.tuneSettle 7 7) (camtex 4 [] quiet) ∧ (ended (camtex 4 [] quiet) (.tuneSettle 7 7)).base.camState 7 = 4) ∧
    due (.tune 7) (camtex 4 [] quiet) ∧
    (due (.train 7) (camtex 3 [] quiet) ∧ (ended (camtex 3 [] quiet) (.train 7)).base.camState 7 = 3 ∧
      5 < (ended (camtex 6 [] quiet) (.train 7)).base.camState 7) ∧
    (due (.backoff 7) (camtex 2 [] quiet) ∧ (ended (camtex 2 [] quiet) (.backoff 7)).base.camState 7 = 2) ∧
    (due (.wakePattern 7) (camtex 1 [] wakes) ∧ ((ended (camtex 1 [] wakes) (.wakePattern 7)).cam 7).waking = 1) := by
  exact ⟨⟨coreDue_of _ _ _ (by decide +kernel), by decide +kernel⟩, ⟨coreDue_of _ _ _ (by decide +kernel), by decide +kernel⟩,
    ⟨coreDue_of _ _ _ (by decide +kernel), by decide +kernel⟩, coreDue_of _ _ _ (by decide +kernel),
    ⟨coreDue_of _ _ _ (by decide +kernel), by decide +kernel⟩, ⟨coreDue_of _ _ _ (by decide +kernel), by decide +kernel⟩,
    coreDue_of _ _ _ (by decide +kernel), by decide +kernel⟩

/-- Records: one whose CRC is that of its bytes, at a port in LOCK with block lock; and one that fails both ways. -/
theorem meets_records :
    let body : List Byte := List.replicate 22 0
    let good := body ++ leBytes 2 (crc16 body)
    let bad : List Byte := List.replicate 24 0x5A
    let c : CamPort := { k := 7, lanes := [{ lane := 7, lock := true }] }
    let m := (live 6 (camtex 3 [] c)).mod.begun
    recordOk good = true ∧ recordOk bad = false ∧ recordOk (bad.map (fun x => ~~~x)) = false ∧
    m.base.camState 7 = 3 ∧ (m.cam 7).running = false ∧ ((m.cam 7).lane 7).lock = true ∧ bitOf (m.cam 7).used 7 = true := by
  decide +kernel

theorem meets_flits :
    let cam := [word (Reg.PRT_CFG 63) [(F.PRT_CFG_role, 4)], word (Reg.SER_STATUS 248) [(F.SER_STATUS_port, 63)]]
    let on : CamPort := { k := 7, running := true }
    let held : CamPort := { on with held := [⟨5, { dstPath := 1 }⟩], replay := some 0 }
    let m := fun (st : Nat) (c : CamPort) => (live 6 (camtex st cam c)).mod.begun
    let n := fun (x : Mod) => (x.growCredit 63 0).growCredit 63 2
    (live 6 (camtex 6 cam on)).coreIs (m 6 on) ∧ (live 6 (camtex 6 cam on)).dieIs (m 6 on) ∧
    (((m 6 on).cam 7).running = true ∧ (m 6 on).base.camPort 7 = some 63 ∧ (n (m 5 on)).base.camActive 7 = false) ∧
    ((n (m 6 held)).base.camActive 7 = true ∧ ((n (m 6 held)).cam 7).replayNext = some (⟨5, { dstPath := 1 }⟩, none)) ∧
    ((n (m 6 on)).base.camActive 7 = true ∧ ((n (m 6 on)).cam 7).replayNext = none ∧ ((n (m 6 on)).cam 7).tx = []) := by
  exact ⟨coreIs_of _ (by decide +kernel), dieIs_of _ (by decide +kernel), by decide +kernel⟩

set_option maxRecDepth 100000 in
theorem meets_flitReceive :
    let flit := fun (w0 : Nat) =>
      let body := leBytes 4 w0 ++ List.replicate 264 (0 : Byte)
      body ++ leBytes 4 (crc32 body)
    let m := (live 6 (camtex 6 [] { k := 7, running := true })).mod.begun
    let n := (m.toActive 7).ackApply 7 0
    let x := (n.setCam ((n.cam 7).takeLimits 0 0)).showCredit 7
    let next := (x.base.rd (Reg.FAB_RX 7) F.FAB_RX_last_rx + 1) % 4096
    (m.cam 7).running = true ∧ next < 4096 ∧
    ([0, 2 ^ 24 + next, 2 ^ 24 + (next + 1) % 4096].all (fun w0 =>
      (flit w0).length == 272 && crc32 ((flit w0).take 268) == fieldAt (flit w0) 268 4 && fieldAt (flit w0) 0 4 == w0 &&
      fieldAt (flit w0) 4 4 == 0 && bits w0 ⟨12, 12⟩ == 0) = true) ∧
    (bits 0 ⟨24, 2⟩ = 0 ∧ bits (2 ^ 24 + next) ⟨24, 2⟩ = 1 ∧ (2 ^ 24 + next) % 4096 = next ∧
      (2 ^ 24 + (next + 1) % 4096) % 4096 ≠ next) := by
  decide +kernel

theorem meets_replayTimer :
    let k : TimerKey := .replay 7
    let m := fun (expiries : Nat) => camtex 6 [] { k := 7, held := [⟨5, {}⟩], expiries := expiries }
    let n := fun (e : Nat) =>
      let x := ended (m e) k
      (({ x with base := x.base.bump (Reg.FAB_CNT 7 5) } : Mod).setCam { x.cam 7 with expiries := (x.cam 7).expiries + 1, replay := some 0 }).showCredit 7
    (live 6 (timed k (m 0))).coreDue k (ended (m 0) k) ∧ ((ended (m 0) k).cam 7).held ≠ [] ∧
    ((ended (m 0) k).cam 7).expiries + 1 < (n 0).base.replayMax 7 ∧
    (n 255).base.replayMax 7 ≤ ((ended (m 255) k).cam 7).expiries + 1 := by
  exact ⟨coreDue_of _ _ _ (by decide +kernel), by decide +kernel⟩

/-! ### Line coding and what a Camtex lane takes in; the expected values are worked out by hand from R231, R232 and R243 -/

theorem test_gray : [(false, false), (false, true), (true, true), (true, false)].map (fun x => grayLevel x.1 x.2) = [0, 1, 2, 3] ∧
    [0, 1, 2, 3].map grayBits = [[false, false], [false, true], [true, true], [true, false]] := by decide

theorem test_scrambler : (scrambleN 64 (2 ^ 58 - 1) 0).2 = 2 ^ 58 - 2 ^ 39 ∧
    (descrambleN 64 (2 ^ 58 - 1) (scrambleN 64 (2 ^ 58 - 1) 0x0123456789ABCDEF).2).2 = 0x0123456789ABCDEF := by decide +kernel

theorem test_prbs7 : (genN 0 0 7 (BitVec.allOnes 64) 0).2.2 = [false, false, false, false, false, false, true] := by decide +kernel

set_option maxRecDepth 100000 in
theorem test_zero_codeword : codewordOf [] = (0, 0, false) := by decide +kernel

/-- Camtex port 7 in a state of FAB_STATUS, with lane 0 as given. -/
def onLane (st : Nat) (run : Bool) (x : CamLane) : Mod :=
  camtex st [word (Reg.SER_STATUS 248) [(F.SER_STATUS_frame, 1)]] { k := 7, running := run, active := 1, lanes := [x] }

/-- A codeword whose blocks have header 0, and one that meets a lane with whole blocks in line already. -/
theorem meets_codewords :
    let ok : LaneCode := { rxMsg := (List.range 77).foldl (fun v i => v + 2 ^ (66 * i)) 0 }
    let m := fun (c : LaneCode) => (live 6 (onLane 6 true { lane := 0, code := c })).mod.begun
    let n := fun (c : LaneCode) =>
      let x := ((m c).cam 7).lane 0
      let r := codewordOf (invertLevels ((m c).base.isSet (Reg.SER_LANE_CFG 248) F.SER_LANE_CFG_rx_inv != x.inverted) [])
      let u := x.code.unpack r.1 r.2.2
      let b := (((m c).base.bumpBy (Reg.SER_CNT 248 2) r.2.1).bumpBy (Reg.SER_CNT 248 3) (b2n r.2.2)).bumpBy (Reg.SER_CNT 248 4) u.2
      let b := (b.occ 0x240 (laneTile 248) none r.2.1).occ 0x241 (laneTile 248) none (b2n r.2.2)
      (u.1.unframed, ({ m c with base := b } : Mod).setLane 7 { x with code := u.1 })
    let idle := (live 6 (onLane 6 false { lane := 0 })).mod.begun
    (live 6 (onLane 6 true { lane := 0 })).coreIs (m {}) ∧ (idle.cam 7).running = false ∧
    (((m {}).cam 7).running = true ∧ bitOf ((m {}).cam 7).active 0 = true) ∧
    ((n {}).1 = true ∧ (n {}).2.base.camTile (laneTile 248) = true ∧ (n {}).2.base.isSet (Reg.SER_STATUS 248) F.SER_STATUS_frame = true ∧
      ((n {}).2.cam 7).running = true ∧ bitOf ((n {}).2.cam 7).active 0 = true) ∧
    (n ok).1 = false := by
  refine ⟨coreIs_of _ (by decide +kernel), by decide +kernel, by decide +kernel, ?_⟩
  simp only [invertLevels, List.map_nil, ite_self, test_zero_codeword]
  decide +kernel

theorem meets_amBlocks :
    let x : RxBlock := { header := 1#2, payload := 0#64 }
    let y : RxBlock := { x with am := true }
    let m := fun (x : RxBlock) (k : Nat) => (live 6 (onLane 6 true { lane := 0, missing := k, code := { blocks := [x] } })).mod.begun
    let n := fun (k : Nat) =>
      let l := ((m y k).cam 7).lane 0
      (m y k).setLane 7 { l with code := { l.code with blocks := [] } }
    let z := fun (k : Nat) => ((n k).cam 7).lane 0
    ((((m x 0).cam 7).lane 0).code.blocks = [x] ∧ x.am = false ∧ 64 ≤ 64 ∧ 64 < 65 ∧ ((m x 0).cam 7).running = true ∧
      bitOf ((m x 0).cam 7).active 0 = true) ∧
    ((((m y 3).cam 7).lane 0).code.blocks = [y] ∧ y.am = true ∧ ((n 3).cam 7).running = true ∧ bitOf ((n 3).cam 7).active 0 = true ∧
      y.control 0x4B = false ∧ (z 2).missing + 1 < 4 ∧ 4 ≤ (z 3).missing + 1) := by
  decide +kernel

/-- LR blocks in every state, in training both within its first reset_us and after. -/
theorem meets_linkResets :
    let m := fun (st : Nat) => (live 6 { (camtex st [] { k := 7 }) with base := { (camtex st [] { k := 7 }).base with now := 5000 } }).mod.begun
    let early := (live 6 (camtex 3 [] { k := 7 })).mod.begun
    let since := fun (x : Mod) => (x.cam 7).resetAt + max 1 (x.base.rd (Reg.FAB_TIME 7) F.FAB_TIME_reset_us) * us
    let late := (live 6 { (camtex 5 [] { k := 7 }) with base := { (camtex 5 [] { k := 7 }).base with now := sec } }).mod.begun
    (m 6).base.camState 7 = 6 ∧ ((2#8).toNat = 2 ∧ (1#8).toNat ≤ 1 ∧ 2 < (3#8).toNat) ∧
    (early.base.camState 7 = 3 ∧ early.base.now ≤ since early) ∧ (late.base.camState 7 = 5 ∧ since late < late.base.now) ∧
    (m 2).base.camState 7 < 3 := by
  decide +kernel

/-- Block lock and TS blocks, upright and inverted, at a lane that trains and at one that does not: no block of a record, a part that is not the
last, and the last part of a record whose CRC is right or wrong. -/
theorem meets_training :
    let good := List.replicate 22 (0 : Byte) ++ leBytes 2 (crc16 (List.replicate 22 0))
    let bad := List.replicate 24 (0x5A : Byte)
    let m := fun (st : Nat) (ps : List (List Byte)) (lock : Bool) =>
      (live 6 (onLane st false { lane := 0, lock := lock, parts := ps })).mod.begun
    let first := fun (r : List Byte) => [r.take 6, (r.drop 6).take 6, (r.drop 12).take 6]
    let part := fun (inv : Bool) (r : List Byte) (i : Nat) => (tsBlocks inv r).getD i 0
    let w := fun (x : BitVec 66) => (m 3 [] true).base.wired 7 0 x
    let all := fun (r : List Byte) => joinPart (((m 3 (first r) true).cam 7).lane 0).parts 3 (r.drop 18)
    ((m 3 [] true).lineTrains 7 0 = true ∧ (m 6 [] true).lineTrains 7 0 = false ∧ (((m 3 [] true).cam 7).lane 0).lock = true ∧
      (((m 3 [] false).cam 7).lane 0).lock = false) ∧
    (tsPart (w 0) = none ∧ tsPart (~~~(w 0)) = none) ∧
    (tsPart (w (part false good 3)) = some (3, good.drop 18) ∧
      tsPart (~~~(w (part true good 0))) = some (0, good.take 6) ∧ tsPart (w (part true good 0)) = none) ∧
    ((joinPart (((m 3 [] true).cam 7).lane 0).parts 0 (good.take 6)).length ≠ 4 ∧ (all good).length = 4 ∧ (all bad).length = 4 ∧
      recordOk (all good).flatten = true ∧ recordOk (all bad).flatten = false ∧ (m 3 (first good) true).base.camState 7 ≠ 4) := by
  decide +kernel

set_option maxRecDepth 100000 in
/-- The 34 blocks of a flit at the only lane of a port: those of a flit whose CRC is right, of one whose CRC is wrong, and too few. -/
theorem meets_flitBlocks :
    let body := leBytes 4 0 ++ List.replicate 264 (0 : Byte)
    let good := body ++ leBytes 4 (crc32 body)
    let blocks := fun (bytes : List Byte) => (List.range 34).map (fun i =>
      ({ header := 2#2, payload := BitVec.ofNat 64 (fieldAt bytes (8 * i) 8) } : RxBlock))
    let c := fun (xs : List RxBlock) => (live 6 (onLane 6 true { lane := 0, logical := 0, code := { blocks := xs } })).mod.begun.cam 7
    let m := (live 6 (onLane 6 true { lane := 0 })).mod.begun
    let ok := fun (bytes : List Byte) =>
      match CamPort.takeBlocks 34 (c (blocks bytes)) with
      | some (xs, d) => xs == blocks bytes && xs.flatMap RxBlock.bytes == bytes && xs.all (fun x => !x.bad && x.header == 2#2) &&
          (xs.find? (fun x => x.control 0x33 && !x.bad)).isNone && ((m.setCam d).cam 7).running
      | none => false
    ok good = true ∧ ok (List.replicate 272 0x5A) = true ∧ crc32 (good.take 268) = fieldAt good 268 4 ∧
    crc32 ((List.replicate 272 (0x5A : Byte)).take 268) ≠ fieldAt (List.replicate 272 0x5A) 268 4 ∧
    CamPort.takeBlocks 34 (c []) = none := by
  decide +kernel

/-- DPC triggers: disabled, masked, and enabled for every error, with the port's interrupt and message off. -/
theorem meets_dpc :
    let f := (24 + 63) * 4096
    let m := fun (te : Nat) (l : List (Nat × W32)) =>
      (live 6 { base := { regs := (port 2 []).base.regs, cfgs := reg (f + 0x2A4) (te * 2 ^ 16) :: l } }).mod.begun
    let fatal := [reg (f + 0x10C) (2 ^ 18)]
    let bit := dpcBit .malformed
    let n := fun (x : Mod) => x.base.portErr 63 bit 1 []
    let te := fun (x : Mod) => x.base.cfg (24 + 63) 0x2A4 / 2 ^ 16 % 4
    ((m 2 []).base.portRole 63 = 2 ∧ te (m 0 []) = 0 ∧ (te (m 1 [reg (f + 0x10C) 0]) = 1 ∧ bitOf ((m 1 [reg (f + 0x10C) 0]).base.cfg (24 + 63) 0x10C) (dpcBit .flowControl) = false) ∧
      bitOf ((m 2 [reg (f + 0x108) (2 ^ 18)]).base.cfg (24 + 63) 0x108) bit = true) ∧
    ([m 2 [], m 1 fatal].all (fun x => (te x == 2 || (te x == 1 && bitOf (x.base.cfg (24 + 63) 0x10C) bit)) &&
      !bitOf (x.base.cfg (24 + 63) 0x108) bit && (n x).portRole 63 == 2 && (n x).cfg (24 + 63) 0x2A4 / 2 ^ 16 % 4 != 0 && !(n x).contained 63 &&
      !bitOf ((n x).cfg (24 + 63) 0x2A4) 19 && !bitOf ((n x).cfg (24 + 63) 0x2A4) 20)) = true := by
  decide +kernel

/-- A lane that adapts, one on a tile that measures, and lanes of a tile in test and of a Loopback slave. -/
theorem meets_laneBits :
    let m := fun (l : List (Nat × W32)) (rts : List LaneRt) => (live 6 { (regs l) with lanes := rts }).mod.begun
    let adapts := m [word (Reg.SER_STATUS 191) [(F.SER_STATUS_sig_det, 1)]] [{ lane := 191, adaptAt := some 0 }]
    let measures := m [word (Reg.SER_EYE_CFG 23) [(F.SER_EYE_CFG_run, 1)]] []
    let test := fun (mode gen chk : Nat) => m [word (Reg.SER_TILE_CTL 23) [(F.SER_TILE_CTL_test, 1)], word (Reg.SER_LOOP 191) [(F.SER_LOOP_mode, mode)],
      word (Reg.SER_PRBS 191) [(F.SER_PRBS_gen_en, gen), (F.SER_PRBS_chk_en, chk)]] []
    let slave := m [] [{ lane := 191, slave := true }]
    (adapts.base.isSet (Reg.SER_STATUS 191) F.SER_STATUS_sig_det = true ∧ (adapts.laneRt 191).adaptAt = some 0 ∧
      adapts.base.camTile (laneTile 191) = false) ∧
    (measures.base.isSet (Reg.SER_EYE 191) F.SER_EYE_paused = false ∧ measures.base.isSet (Reg.SER_EYE_CFG (laneTile 191)) F.SER_EYE_CFG_run = true ∧
      (m [reg (Reg.SER_EYE_CFG 23) 0] []).base.isSet (Reg.SER_EYE_CFG (laneTile 191)) F.SER_EYE_CFG_run = false) ∧
    ([test 0 0 1, test 3 0 0].all (fun x => x.base.inTest (laneTile 191)) = true ∧
      (test 0 0 1).base.rd (Reg.SER_LOOP 191) F.SER_LOOP_mode = 0 ∧ (test 0 0 1).base.isSet (Reg.SER_PRBS 191) F.SER_PRBS_gen_en = false ∧
      (test 0 0 1).base.isSet (Reg.SER_PRBS 191) F.SER_PRBS_chk_en = true ∧ (test 3 0 0).base.rd (Reg.SER_LOOP 191) F.SER_LOOP_mode = 3 ∧
      ((test 3 0 0).base.sendBits 191 [true]).isSet (Reg.SER_PRBS 191) F.SER_PRBS_chk_en = false) ∧
    (slave.base.inTest (laneTile 191) = false ∧ (slave.laneRt 191).slave = true ∧ (adapts.laneRt 191).slave = false) ∧
    ((live 6 (port 2 [])).mod.begun.base.tileEnabled 0 = true ∧ (m [] []).base.tileEnabled 0 = false) := by
  decide +kernel
/-! ### Bonds -/

/-- A module at path 0 of a bond of depth 1, with these further words and this bond logic. -/
def bonded (l : List (Nat × W32)) (b : Bond) : Mod :=
  { base := { regs := [word Reg.BND_CFG [(F.BND_CFG_enable, 1), (F.BND_CFG_fabric, 1), (F.BND_CFG_depth, 1)]] ++ l }, bnd := b }

theorem meets_streams :
    let due := fun (k : TimerKey) (m : Mod) => (live 6 (timed k m)).coreDue k (ended m k)
    let o : OutStream := { path := 1, cls := .request, held := [{ seg := {}, msg := { dstPath := 1, data := [] } }] }
    let m := bonded [] { outs := [o] }
    ((live 6 {}).coreIs (live 6 {}).mod.begun ∧ (live 6 {}).mod.begun.base.isSet Reg.BND_CFG F.BND_CFG_enable = false) ∧
    ((live 6 m).coreIs (live 6 m).mod.begun ∧ (live 6 m).mod.begun.base.isSet Reg.BND_CFG F.BND_CFG_enable = true ∧
      ({ dstPath := 1 } : Segment).dstPath ≠ (live 6 m).mod.begun.base.path ∧ ({ dstPath := 0 } : Segment).dstPath = (live 6 m).mod.begun.base.path) ∧
    due (.cackDelay 4095 .response) {} ∧
    (due (.resend 1 .request) m ∧ (ended m (.resend 1 .request)).bnd.out 1 .request = some o ∧ o.held ≠ [] ∧
      due (.resend 1 .response) m ∧ (ended m (.resend 1 .response)).bnd.out 1 .response = none) ∧
    (due (.stream 1 .request) m ∧ (ended m (.stream 1 .request)).bnd.out 1 .request = some o ∧
      due (.stream 1 .response) m ∧ (ended m (.stream 1 .response)).bnd.out 1 .response = none) := by
  exact ⟨⟨coreIs_of _ (by decide +kernel), by decide +kernel⟩, ⟨coreIs_of _ (by decide +kernel), by decide +kernel⟩,
    coreDue_of _ _ _ (by decide +kernel),
    ⟨coreDue_of _ _ _ (by decide +kernel), by decide +kernel, by decide +kernel, coreDue_of _ _ _ (by decide +kernel), by decide +kernel⟩,
    coreDue_of _ _ _ (by decide +kernel), by decide +kernel, coreDue_of _ _ _ (by decide +kernel), by decide +kernel⟩

/-- Candidates at term 65535 and at the next one, 0, with a lower and a higher key than the module's own (priority 7, serial 0). -/
theorem meets_elections :
    let pr := word Reg.BND_CFG [(F.BND_CFG_enable, 1), (F.BND_CFG_fabric, 1), (F.BND_CFG_depth, 1), (F.BND_CFG_priority, 7)]
    let ks := fun (el self : Nat) =>
      live 6 (regs [pr, word (Reg.BND_KEYSTONE 0) [(F.BND_KEYSTONE_electing, el), (F.BND_KEYSTONE_self, self), (F.BND_KEYSTONE_term, 65535)]])
    let m := fun (el self : Nat) => (ks el self).mod.begun
    let n := fun (el self t : Nat) => (m el self).hearTerm 0 t
    let e := { (n 1 0 65535).elect 0 with prio := 7, serial := 0 }
    ((ks 1 0).coreIs (m 1 0) ∧ (m 1 0).base.bondOn = true ∧ 0 < (m 1 0).base.depth ∧ (n 1 0 65535).base.electing 0 = true ∧
      (m 1 0).base.term 0 = 65535 ∧ keyLess (6, 5) (e.prio, e.serial) = true ∧
      keyLess (7, 0) (((n 1 0 65535).elect 0).prio, ((n 1 0 65535).elect 0).serial) = false) ∧
    ((n 1 0 0).base.electing 0 = true ∧ newer 16 0 ((m 1 0).base.term 0) = true ∧ keyLess (6, 0) (n 1 0 0).base.ownKey = true ∧
      keyLess (7, 1) (n 1 0 0).base.ownKey = false) ∧
    (n 0 0 65535).base.electing 0 = false ∧
    ((n 0 1 65535).base.ksSelf 0 = true ∧ 1 ≠ (m 0 1).base.path ∧
      (newer 16 65535 ((m 0 1).base.term 0) || (65535 == (m 0 1).base.term 0 && keyLess (6, 0) (n 0 1 65535).base.ownKey)) = true ∧
      (newer 16 65535 ((m 0 1).base.term 0) || (65535 == (m 0 1).base.term 0 && keyLess (8, 0) (n 0 1 65535).base.ownKey)) = false) ∧
    ((n 1 0 65535).base.ksSelf 0 = false ∧ 1 ≠ (m 1 0).base.path) := by
  exact ⟨⟨coreIs_of _ (by decide +kernel), by decide +kernel⟩, by decide +kernel⟩

theorem meets_keystones :
    let due := fun (k : TimerKey) (m : Mod) => (live 6 (timed k m)).coreDue k (ended m k)
    let self := word (Reg.BND_KEYSTONE 0) [(F.BND_KEYSTONE_self, 1)]
    let el := word (Reg.BND_KEYSTONE 0) [(F.BND_KEYSTONE_electing, 1)]
    let up := word (Reg.BND_MEMBER 1) [(F.BND_MEMBER_state, 1)]
    let ks := bonded [self, up] { members := [{ level := 0, path := 512, misses := 3 }] }
    let memb := bonded [up] {}
    let other := bonded [el] { elects := [{ level := 0, path := 512 }] }
    let m := (live 6 ks).mod.begun
    let g : Guest := { owner := 4095, idx := 4095, cls := 1, release := false, shelf := 0, seq := 0, grans := [], length := 0, raw := [], orphan := true }
    let orphan : Mod := { prk := { guests := [g] } }
    ((live 6 ks).coreIs m ∧ m.base.memberIndex 0 = none ∧ m.base.memberIndex 512 = some 1 ∧ m.base.ksSelf 0 = true ∧
      m.base.inBond 0 512 = true ∧ m.base.memberState 512 = 1) ∧
    (due (.heartbeat 0) ks ∧ (ended ks (.heartbeat 0)).base.ksSelf 0 = true ∧ due (.heartbeat 3) memb ∧
      (ended memb (.heartbeat 3)).base.ksSelf 3 = false) ∧
    (due (.collect 0) (bonded [el] {}) ∧ (ended (bonded [el] {}) (.collect 0)).base.electing 0 = true ∧
      ((ended (bonded [el] {}) (.collect 0)).elect 0).path = (ended (bonded [el] {}) (.collect 0)).base.path ∧
      due (.collect 0) other ∧ ((ended other (.collect 0)).elect 0).path ≠ (ended other (.collect 0)).base.path) ∧
    due (.ksLoss 3) memb ∧
    (m.base.bondOn = true ∧ m.base.ksSelf (1 / 8) = true ∧
      m.bnd.members.any (fun x => x.level == 1 / 8 && x.path == 512 && decide (3 ≤ x.misses)) = true ∧
      (live 6 memb).mod.begun.base.ksSelf (1 / 8) = false ∧ (live 6 memb).mod.begun.base.memberState 512 = 1 ∧
      (live 6 memb).mod.begun.base.memberIndex 512 = some 1) ∧
    (due (.orphan (guestKey 4095 4095)) orphan ∧ (ended orphan (.orphan (guestKey 4095 4095))).prk.guests.find? (fun x =>
      guestKey x.owner x.idx == guestKey 4095 4095 && x.orphan && !x.sent) = some g) := by
  exact ⟨⟨coreIs_of _ (by decide +kernel), by decide +kernel⟩,
    ⟨coreDue_of _ _ _ (by decide +kernel), by decide +kernel, coreDue_of _ _ _ (by decide +kernel), by decide +kernel⟩,
    ⟨coreDue_of _ _ _ (by decide +kernel), by decide +kernel, by decide +kernel, coreDue_of _ _ _ (by decide +kernel), by decide +kernel⟩,
    coreDue_of _ _ _ (by decide +kernel), by decide +kernel, coreDue_of _ _ _ (by decide +kernel), by decide +kernel⟩

theorem meets_unlendSettle :
    let r : LendReq := { unlend := false, ownerPath := 1, slot := 0, borrowerPath := 2, partition := 0, dev := 1 }
    let l : Lend := { req := r, port := 5, ending := true }
    let m := ended (bonded [] { lends := [l] }) .unlendSettle
    let n := (l.ownerEntries.foldl (fun m e => m.writeAt l.req.ownerPath (rtOff e 0) 0) (m.writeAt l.req.ownerPath (Reg.BND_PORT_LEND l.port) 0)).lendAnswer
      l.req false
    (live 6 (timed .unlendSettle (bonded [] { lends := [l] }))).coreDue .unlendSettle m ∧ m.bnd.lends = [l] ∧ l.ending = true ∧
    n.bnd.lendWait = [] ∧ n.bnd.lends = [l] := by
  exact ⟨coreDue_of _ _ _ (by decide +kernel), by decide +kernel⟩

theorem meets_messages :
    let lent := word (Reg.BND_LEND 255) [(F.BND_LEND_valid, 1), (F.BND_LEND_owner_path, 1), (F.BND_LEND_owner_port, 63)]
    let port := word (Reg.BND_PORT_LEND 63) [(F.BND_PORT_LEND_valid, 1), (F.BND_PORT_LEND_borrower_path, 1)]
    let s := live 6 (bonded [lent, port, word (Reg.BND_KEYSTONE 0) [(F.BND_KEYSTONE_self, 1)], word (Reg.BND_MEMBER 2) [(F.BND_MEMBER_state, 2)],
                             word Reg.BND_FAR_INFO [(F.BND_FAR_INFO_valid, 1)]] {})
    let m := s.mod.begun
    let z := (live 6 {}).mod.begun
    let b := fun (m : Mod) => (m.base.bump (Reg.BND_CNT 14)).raise { group := 12, bit := 5, detail := 1 + 2 ^ 12 * 15 + 2 ^ 16 * 127 }
    s.coreIs m ∧ (live 6 {}).coreIs z ∧ z.base.lentAs 1 63 = none ∧ m.base.lentAs 1 63 = some 255 ∧
    (m.base.isSet (Reg.BND_PORT_LEND 63) F.BND_PORT_LEND_valid && m.base.rd (Reg.BND_PORT_LEND 63) F.BND_PORT_LEND_borrower_path == 1) = true ∧
    (z.base.isSet (Reg.BND_PORT_LEND 63) F.BND_PORT_LEND_valid && z.base.rd (Reg.BND_PORT_LEND 63) F.BND_PORT_LEND_borrower_path == 1) = false ∧
    (z.base.anyKeystone = false ∧ m.base.anyKeystone = true ∧ m.base.memberState 1024 = 2) ∧
    ((b m).isSet Reg.BND_FAR_INFO F.BND_FAR_INFO_valid = true ∧ (b z).isSet Reg.BND_FAR_INFO F.BND_FAR_INFO_valid = false) := by
  exact ⟨coreIs_of _ (by decide +kernel), coreIs_of _ (by decide +kernel), by decide +kernel⟩

theorem meets_lends :
    let self := word (Reg.BND_KEYSTONE 0) [(F.BND_KEYSTONE_self, 1)]
    let r : LendReq := { unlend := false, ownerPath := 1, slot := 0, borrowerPath := 2, partition := 0, dev := 1 }
    let m := (live 6 (bonded [self] {})).mod.begun
    let e : Entry := { entry 2 with remoteTo := some 1 }
    (m.base.anyKeystone = true ∧ m.base.armed .unlendSettle = false ∧ m.lendRefused r = false ∧ m.lendRefused { r with dev := 0 } = true) ∧
    (live 6 (timed .unlendSettle (bonded [self] {}))).mod.begun.base.armed .unlendSettle = true ∧
    (live 6 { prk := { entries := [e] } }).mod.begun.prk.entry 7 = some e ∧ e.remoteTo.isSome = true := by
  decide +kernel

/-! ### Recovery, reset, boot and M2 -/

theorem meets_recovery :
    let sup := live 6 { base := { storms := [{ group := 31, bit := 31, suppressed := true }] } }
    let q := live 6 { base := { cfgs := [reg (7 * 4096 + 4) 4], now := 5 }, qe := { recovered := [(7, 1), (7, 2)] } }
    let p := live 6 { prk := { entries := [entry 1] } }
    let m := fun (s : State) => s.mod.begun
    (sup.dieIs (m sup) ∧ ((m sup).base.storm 31 31).suppressed = true ∧ ((m sup).base.storm 0 0).suppressed = false) ∧
    (q.coreIs (m q) ∧ (m q).engineRuns 7 = true ∧ (m q).qe.turns.any (fun t => t.part == 7) = false ∧
      (recoverUnit ((m q).restartQueueEngine 7).qe.recovered 7 ((m q).restartQueueEngine 7).base.now).2 = true ∧
      (recoverUnit [] 7 5).2 = false) ∧
    (p.coreIs (m p) ∧ (m p).prk.entries.any (fun x => engineOf x.shelf == 3 && (x.state == 1 || x.state == 6)) = true ∧ (m p).tags = [] ∧
      (m p).ingestPaused = false ∧ (m p).pl.parkHeld.contains 3 = false ∧ (m p).pl.m2 = 0 ∧
      (recoverUnit ((m p).restartParkEngine 3).pl.parkRec 3 ((m p).restartParkEngine 3).base.now).2 = false) := by
  exact ⟨⟨dieIs_of _ (by decide +kernel), by decide +kernel⟩, ⟨coreIs_of _ (by decide +kernel), by decide +kernel⟩,
    coreIs_of _ (by decide +kernel), by decide +kernel⟩

theorem meets_coresAndCounters :
    let c := fun (held : List Nat) => (live 6 { base := { now := 5 }, pl := { cores := [(3, 1), (3, 2)], coreHeld := held } }).mod.begun
    let n := (live 6 (regs [reg Reg.BUF_ECC_CE (2 ^ 32 - 1), reg (Reg.BUF_ECC_CE + 4) (2 ^ 16 - 1)])).mod.begun
    ((c []).pl.coreHeld.contains 3 = false ∧ (recoverUnit (c []).pl.cores 3 (c []).base.now).2 = true ∧ (c []).pl.coreHeld.length < 3 ∧
      (c [0, 1, 2]).pl.coreHeld.contains 3 = false ∧ 3 ≤ (c [0, 1, 2]).pl.coreHeld.length ∧
      (recoverUnit (live 6 {}).mod.begun.pl.cores 3 0).2 = false) ∧
    (regAt Reg.BUF_ECC_CE = some (hitAt Reg.BUF_ECC_CE) ∧ isCounter (hitAt Reg.BUF_ECC_CE).row.name = true ∧ (hitAt Reg.BUF_ECC_CE).word = 0 ∧
      2 ^ 48 ≤ n.base.rd Reg.BUF_ECC_CE F.CNT_count + 1 ∧ n.base.rd Reg.BUF_ECC_CE F.CNT_count + 0 < 2 ^ 48) ∧
    (pmcAt (Reg.PMC_CNT 255) = some 255 ∧ pmcAt (Reg.SLC_VC_CNT 1023 7) = none ∧ vcAt (Reg.SLC_VC_CNT 1023 7) = some (1023, 7)) := by
  decide +kernel

theorem meets_takedowns :
    let m := fun (t : TakeDown) (esc : List Nat) => ended { pl := { take := some t, escalations := esc } } .takedown
    let due := fun (t : TakeDown) (esc : List Nat) =>
      (live 6 (timed .takedown { pl := { take := some t, escalations := esc } })).plinthDue .takedown (m t esc)
    let fatal : TakeDown := { cold := true, cause := 5, fatal := true }
    let l := fun (esc : List Nat) =>
      (m fatal esc).pl.escalations.filter (fun x => decide ((m fatal esc).base.now < x + hour)) ++ [(m fatal esc).base.now]
    (due { cause := 4, off := 2 } [] ∧ due { cause := 6, off := 1 } [] ∧ due { cause := 8, cold := true } [] ∧ due { cause := 8 } [] ∧
      due fatal []) ∧
    ((m fatal [1, 2]).pl.take = some fatal ∧ 3 ≤ (l [1, 2]).length ∧ (l [1]).length < 3) := by
  exact ⟨⟨plinthDue_of _ _ _ rfl, plinthDue_of _ _ _ rfl, plinthDue_of _ _ _ rfl, plinthDue_of _ _ _ rfl, plinthDue_of _ _ _ rfl⟩,
    by decide +kernel⟩

theorem meets_resets :
    let img := fun (smbus : Bool) => live 6 { pl := { img := some { kind := 0, len := 1, smbus := smbus } } }
    let busy := regs [word Reg.CLK_CAL_STATUS [(F.CLK_CAL_STATUS_busy, 1)]]
    let lock := live (word Reg.CLK_STATUS [(F.CLK_STATUS_core_lock, 1), (F.CLK_STATUS_dram_lock, 1), (F.CLK_STATUS_stage, 6)]).2.toNat {}
    (live 6 (timed .blockReset {})).coreDue .blockReset (ended {} .blockReset) ∧
    ((img true).dieIs (img true).mod.begun ∧ (img true).mod.begun.pl.img = some { kind := 0, len := 1, smbus := true } ∧
      (img false).mod.begun.pl.img = some { kind := 0, len := 1, smbus := false } ∧ (15 : Fin 16).val ≠ 0) ∧
    ((live 6 (timed .calSave busy)).plinthDue .calSave (ended busy .calSave) ∧
      (ended busy .calSave).base.isSet Reg.CLK_CAL_STATUS F.CLK_CAL_STATUS_busy = true) ∧
    (lock.dieIs lock.mod.begun ∧ lock.mod.begun.base.isSet Reg.CLK_STATUS F.CLK_STATUS_core_lock = true ∧
      lock.mod.begun.base.isSet Reg.CLK_STATUS F.CLK_STATUS_dram_lock = true) := by
  exact ⟨coreDue_of _ _ _ (by decide +kernel), ⟨dieIs_of _ (by decide +kernel), by decide +kernel⟩, ⟨plinthDue_of _ _ _ rfl, by decide +kernel⟩,
    dieIs_of _ (by decide +kernel), by decide +kernel⟩

theorem meets_boot :
    let s := fun (st : Nat) (l : List (Nat × W32)) => (live st (regs l)).mod.begun
    let kept := word Reg.CLK_STATUS [(F.CLK_STATUS_stage, 5), (F.CLK_STATUS_kept, 1)]
    let b := fun (m : Mod) =>
      let b := (List.range 8).foldl (fun (b : Base) c => b.wr (Reg.MEM_CH_STATUS c) F.MEM_CH_STATUS_self_refresh 0) (m.base.setStage 6)
      if m.pl.keep then b else b.raise { group := 2, bit := 6 }
    (live 1 {}).dieIs (s 1 []) ∧ (s 1 []).pl.take = none ∧
    ((s 1 []).base.stage = 1 ∧ pickSlot ⟨false, false⟩ (s 1 []).pl.fwAct = none ∧ pickSlot ⟨false, true⟩ (s 1 []).pl.fwAct = some true ∧
      pickSlot ⟨true, false⟩ (s 1 []).pl.fwAct = some false) ∧
    ((s 2 []).base.stage = 2 ∧ pickSlot ⟨false, false⟩ (s 2 []).pl.imgAct = none ∧ pickSlot ⟨false, true⟩ (s 2 []).pl.imgAct = some true) ∧
    ((s 4 []).base.stage = 4 ∧ (List.range 8).filter (fun c => !(List.replicate 8 true).getD c true) = [] ∧
      (List.range 8).filter (fun c => !([true, true, true, true, true, true, true, false].getD c true)) ≠ []) ∧
    ((s 5 []).base.stage = 5 ∧ (s 5 []).pl.dipEvent = none ∧ (b (s 5 [])).rd Reg.CLK_STATUS F.CLK_STATUS_kept ≠ 1) ∧
    (let m : Mod := { base := { regs := [kept], coreOn := true }, pl := { dieOn := true, keep := true } }
     m.base.stage = 5 ∧ m.pl.dipEvent = none ∧ (b m).rd Reg.CLK_STATUS F.CLK_STATUS_kept = 1) ∧ (s 6 []).base.stage ≠ 5 := by
  exact ⟨dieIs_of _ (by decide +kernel), by decide +kernel⟩

theorem meets_m2 :
    let held := word (Reg.PRT_CFG 63) [(F.PRT_CFG_role, 1), (F.PRT_CFG_m2_hold, 1)]
    let may : Mod := { base := { regs := [held, word (Reg.PRT_STATUS 63) [(F.PRT_STATUS_pm, 3)]] }, pl := { parkHold := true } }
    let bond := word Reg.BND_CFG [(F.BND_CFG_enable, 1), (F.BND_CFG_depth, 1)]
    let m := fun (x : Mod) => (live 6 x).mod.begun
    (live 6 may).coreIs (m may) ∧ (live 6 may).dieIs (m may) ∧ (m {}).m2May = false ∧
    ((m may).m2May = true ∧ (m may).base.m2Acked = true ∧
      (m { may with base := { may.base with regs := bond :: may.base.regs } }).m2May = true ∧
      (m { may with base := { may.base with regs := bond :: may.base.regs } }).base.m2Acked = false) ∧
    ((m {}).base.word64 Reg.CLK_WAKE_AT = 0 ∧ (m (regs [reg Reg.CLK_WAKE_AT 1])).base.word64 Reg.CLK_WAKE_AT ≠ 0 ∧
      (m { pl := { m2 := 1 } }).pl.m2 ≠ 0) ∧
    ((m {}).base.heldPort = none ∧ (m may).base.heldPort = some 63 ∧
      ((m may).wakeEvent 1).base.rd (Reg.PRT_STATUS 63) F.PRT_STATUS_pm = 3 ∧
      ((m (regs [held])).wakeEvent 1).base.rd (Reg.PRT_STATUS 63) F.PRT_STATUS_pm ≠ 3) ∧
    (let up := m (regs [word (Reg.PRT_CFG 63) [(F.PRT_CFG_role, 1)], word (Reg.PRT_STATUS 63) [(F.PRT_STATUS_link_up, 1)]])
     up.base.portRole 63 = 1 ∧ (up.base.heldPort == some 63) = false ∧ (up.wakeEvent 2).base.linkUp 63 = true ∧
      ((m (regs [word (Reg.PRT_CFG 63) [(F.PRT_CFG_role, 1)]])).wakeEvent 2).base.linkUp 63 = false) ∧
    (let at' := fun (now : Nat) => (m { base := { now := now }, pl := { m2 := 1, m2At := 100 } })
     (at' (99 + 20 * us)).base.now < (at' 0).pl.m2At + 20 * us ∧ (at' 0).pl.m2At + 20 * us ≤ (at' (100 + 20 * us)).base.now ∧
      (m { pl := { m2 := 2 } }).pl.m2 = 2 ∧ (m {}).pl.m2 = 0) := by
  exact ⟨coreIs_of _ (by decide +kernel), dieIs_of _ (by decide +kernel), by decide +kernel⟩

/-- Candidates heard while the collection runs, a heartbeat at a keystone and at a module that elects, acknowledgments that ask for M2,
and what the messages meet. -/
theorem meets_bondMore :
    let pr := word Reg.BND_CFG [(F.BND_CFG_enable, 1), (F.BND_CFG_fabric, 1), (F.BND_CFG_depth, 1), (F.BND_CFG_priority, 7)]
    let ks := fun (el self : Nat) => timed (.collect 0)
      (regs [pr, word (Reg.BND_KEYSTONE 0) [(F.BND_KEYSTONE_electing, el), (F.BND_KEYSTONE_self, self), (F.BND_KEYSTONE_term, 65535)]])
    let m := fun (el self : Nat) => (live 6 (ks el self)).mod.begun
    let n := fun (el self t : Nat) => (m el self).hearTerm 0 t
    let e := { (n 1 0 65535).elect 0 with prio := 7, serial := 0 }
    let x := (n 0 1 65535).base.raise { group := 12, bit := 3, sev := 1, detail := 1 }
    let beats := fun (t : Nat) (key : Nat × Nat) => newer 16 t ((m 0 1).base.term 0) || (t == (m 0 1).base.term 0 && keyLess key x.ownKey)
    ((m 1 0).base.bondOn = true ∧ (n 1 0 65535).base.electing 0 = true ∧ (n 1 0 65535).base.armed (.collect 0) = true ∧
      keyLess (6, 5) (e.prio, e.serial) = true ∧ keyLess (7, 0) (((n 1 0 65535).elect 0).prio, ((n 1 0 65535).elect 0).serial) = false) ∧
    ((n 1 0 0).base.electing 0 = true ∧ (n 1 0 0).base.armed (.collect 0) = true ∧ newer 16 0 ((m 1 0).base.term 0) = true ∧
      keyLess (6, 0) (n 1 0 0).base.ownKey = true ∧ keyLess (7, 1) (n 1 0 0).base.ownKey = false) ∧
    ((n 0 1 65535).base.electing 0 = false ∧ (live 6 (regs [pr])).mod.begun.base.armed (.collect 0) = false) ∧
    ((n 0 1 65535).base.ksSelf 0 = true ∧ 1 ≠ (m 0 1).base.path ∧ beats 65535 (6, 0) = true ∧ beats 65535 (8, 0) = false) ∧
    ((n 1 0 65535).base.ksSelf 0 = false ∧ 65535 = (m 1 0).base.term 0) := by
  decide +kernel

theorem meets_acks :
    let self := word (Reg.BND_KEYSTONE 0) [(F.BND_KEYSTONE_self, 1)]
    let up := word (Reg.BND_MEMBER 1) [(F.BND_MEMBER_state, 1)]
    let m := fun (busy : Option (List Nat)) =>
      (live 6 (bonded [self, up] { members := [{ level := 0, path := 512 }, { level := 0, path := 1024, busy := busy }] })).mod.begun
    let n := fun (m : Mod) =>
      let x := (m.bnd.members.find? (fun y => y.level == 0 && y.path == 512)).getD { level := 0, path := 512 }
      let n : Mod := { m with bnd := { m.bnd with members := m.bnd.members.filter (fun y => !(y.level == 0 && y.path == 512)) ++
                                         [{ x with misses := 0, ports := [], kept := [], busy := some [] }] } }
      (n.record 0 1 1).computeRoutes 0
    ([m (some []), m none].all (fun m => m.base.memberIndex 512 == some 1 && m.base.ksSelf 0 && m.base.inBond 0 512 &&
      m.base.memberState 512 == 1) = true ∧ 1 / 8 = 0) ∧
    (n (m (some []))).maySleep 512 = true ∧ (n (m none)).maySleep 512 = false := by
  decide +kernel

/-- A queue engine with a fetched NOP, and a park engine whose work waits for nothing. -/
theorem meets_watchdogs :
    let ring := [word (Reg.SLC_STATE 0) [(F.SLC_STATE_state, 1)], word (Reg.SLC_RES 0) [(F.SLC_RES_qp_count, 64)]]
    let q := (live 6 { base := { regs := ring, cfgs := [reg (0 * 4096 + 4) 4] }, qe := { descs := [{ (desc 0 []) with gqp := 63, slice := 0 }] } }).mod.begun
    let p := (live 6 { prk := { entries := [entry 1] } }).mod.begun
    let e : Entry := { entry 2 with remoteTo := some 1 }
    (q.engineRuns 0 = true ∧ q.qe.turns.any (fun t => t.part == 0) = false ∧ q.queueWork 0 = true ∧
      (recoverUnit (q.restartQueueEngine 0).qe.recovered 0 (q.restartQueueEngine 0).base.now).2 = false) ∧
    p.sw.waiting.any (fun f => f.src == 64 + 3) = false ∧
    p.prk.entry 9 = none ∧ p.prk.entry 7 = some (entry 1) ∧ (entry 1).remoteTo.isSome = false ∧ e.remoteTo.isSome = true ∧
    p.base.anyKeystone = false := by
  decide +kernel
/-! ### The front end and the management connector -/

/-- The plinth with power and the die off, with these register words. -/
def plinth (l : List (Nat × W32)) : State := { mod := { base := { regs := l } } }

/-- The front end in state `st`. -/
def fe (st : Nat) : Nat × W32 := word Reg.PWR_STATUS [(F.PWR_STATUS_state, st)]

/-- A plinth with a timer armed, and its module when that timer ends. -/
def clocked (k : TimerKey) (l : List (Nat × W32)) : State := { mod := timed k (regs l) }
def rung (k : TimerKey) (l : List (Nat × W32)) : Mod := (clocked k l).mod.begun.timerAt k 9

theorem clocked_due (k : TimerKey) (l : List (Nat × W32)) : (clocked k l).plinthDue k (rung k l) := by
  refine ⟨rfl, 9, ?_, rfl⟩
  simp [clocked, timed, Base.due]

theorem meets_powerOn :
    let off : State := { mod := { pl := { powered := false } } }
    let retry : State := { mod := { base := { regs := [word Reg.PWR_STATUS [(F.PWR_STATUS_retry_pending, 1)]] }, pl := { powered := false } } }
    (off.mod.pl.powered = false ∧ (off.mod.begun.base.setWord64 Reg.PWR_ENERGY off.mod.begun.pl.energySaved).isSet Reg.PWR_STATUS
      F.PWR_STATUS_retry_pending = false) ∧
    (retry.mod.pl.powered = false ∧ (retry.mod.begun.base.setWord64 Reg.PWR_ENERGY retry.mod.begun.pl.energySaved).isSet Reg.PWR_STATUS
      F.PWR_STATUS_retry_pending = true) ∧
    (plinth []).powerIs (plinth []).mod.begun ∧
    (clocked .debounce []).plinthDue .debounce (rung .debounce []) ∧ (clocked .inputQual []).plinthDue .inputQual (rung .inputQual []) := by
  exact ⟨by decide +kernel, by decide +kernel, powerIs_of _ rfl, clocked_due _ _, clocked_due _ _⟩

theorem meets_powerUp :
    (let s := clocked .inrush [fe 1]
     s.powerIs s.mod.begun ∧ s.mod.begun.base.feState = 1 ∧ s.mod.begun.base.due .inrush = some 9) ∧
    (let s := clocked .pgQual [fe 2]
     s.powerIs s.mod.begun ∧ s.mod.begun.base.due .pgQual = some 9 ∧ s.mod.begun.base.feState = 2 ∧
      s.mod.begun.base.isSet Reg.PWR_STATUS F.PWR_STATUS_limit = false) ∧
    ((clocked .inrush [fe 1]).plinthDue .inrush (rung .inrush [fe 1]) ∧ (rung .inrush [fe 1]).base.feState = 1) ∧
    ((clocked .faultTimer [fe 3]).plinthDue .faultTimer (rung .faultTimer [fe 3]) ∧ (rung .faultTimer [fe 3]).base.gateOn = true) := by
  exact ⟨⟨powerIs_of _ rfl, by decide +kernel⟩, ⟨powerIs_of _ rfl, by decide +kernel⟩, ⟨clocked_due _ _, by decide +kernel⟩, clocked_due _ _,
    by decide +kernel⟩

/-- The limits of the input, at and just beyond the thresholds. -/
theorem meets_limits :
    let on := (plinth [fe 3]).mod.begun
    let off := (plinth []).mod.begun
    let ov := fun (m : Mod) => { m with base := (m.base.disarm .inputQual).wr Reg.PWR_STATUS F.PWR_STATUS_zone 3, pl := { m.pl with qualified := false } }
    let uv := fun (m : Mod) => { m with base := (m.base.disarm .inputQual).wr Reg.PWR_STATUS F.PWR_STATUS_zone 4, pl := { m.pl with qualified := false } }
    (on.base.gateOn = true ∧ off.base.gateOn = false ∧ 0 < on.base.resetV ∧ on.pl.dip = none) ∧
    (on.base.ovV ≤ on.base.ovV ∧ on.base.ovV < on.base.ovV + 1 ∧ (ov on : Mod).base.gateOn = true) ∧
    (on.base.resetV ≤ on.base.resetV ∧ on.base.resetV - 1 < on.base.resetV ∧ (uv on : Mod).base.gateOn = true ∧ (uv off : Mod).base.gateOn = false) := by
  decide +kernel

theorem meets_presence :
    let here := word Reg.PWR_STATUS [(F.PWR_STATUS_present_a, 1), (F.PWR_STATUS_present_b, 1)]
    let on := word Reg.PWR_STATUS [(F.PWR_STATUS_present_a, 1), (F.PWR_STATUS_present_b, 1), (F.PWR_STATUS_state, 3)]
    let was := fun (m : Mod) => m.base.isSet Reg.PWR_STATUS F.PWR_STATUS_present_a && m.base.isSet Reg.PWR_STATUS F.PWR_STATUS_present_b
    let gone := fun (m : Mod) => ((m.base.flag Reg.PWR_STATUS F.PWR_STATUS_present_a true).flag Reg.PWR_STATUS F.PWR_STATUS_present_b false).disarm .debounce
    let h := (plinth [here]).mod.begun
    let o := (plinth [on]).mod.begun
    let n := (plinth []).mod.begun
    (was o = true ∧ (gone o).gateOn = true) ∧ (was h = true ∧ (gone h).gateOn = false) ∧ was n = false := by
  decide +kernel

theorem meets_retries :
    let r := fun (count used : Nat) => [fe 4, word Reg.PWR_RETRY [(F.PWR_RETRY_count, count), (F.PWR_RETRY_used, used)]]
    let b := fun (count used : Nat) => (rung .retry (r count used)).base.wr Reg.PWR_STATUS F.PWR_STATUS_retry_pending 0
    let a := Reg.PWR_RETRY
    (clocked .gateOff []).plinthDue .gateOff (rung .gateOff []) ∧ (clocked .retryClear []).plinthDue .retryClear (rung .retryClear []) ∧
    (clocked .retry (r 3 3)).plinthDue .retry (rung .retry (r 3 3)) ∧
    ((b 3 3).feState = 4 ∧ (b 3 3).rd a F.PWR_RETRY_count ≠ 0 ∧ (b 3 3).rd a F.PWR_RETRY_count ≤ (b 3 3).rd a F.PWR_RETRY_used) ∧
    ((b 3 2).feState = 4 ∧ (b 3 2).rd a F.PWR_RETRY_used < (b 3 2).rd a F.PWR_RETRY_count ∧ (b 0 2).rd a F.PWR_RETRY_count = 0) ∧
    (plinth []).mod.begun.base.rd Reg.PWR_STATUS F.PWR_STATUS_retry_pending = 0 := by
  exact ⟨clocked_due _ _, clocked_due _ _, clocked_due _ _, by decide +kernel⟩

theorem meets_frontEnd :
    let d : Dip := { minV := 1, since := 0 }
    let dip : State := { mod := { base := { timers := [⟨.dipResume, 9⟩] }, pl := { dip := some d } } }
    let full := (plinth [word Reg.PWR_STATUS [(F.PWR_STATUS_state, 3), (F.PWR_STATUS_gate_full, 1)]]).mod.begun
    let lim : State := { mod := { pl := { limitSince := some 5 } } }
    let cage := (plinth [word (Reg.PWR_CAGE 7) [(F.PWR_CAGE_on, 1)]]).mod.begun
    (65535 < 65536 ∧ [0, 1].all (fun up => sensed (full.base.word Reg.PWR_CAL_V).toNat 65535 up == some 65535) = true ∧
      [0, 1].all (fun up => sensed (full.base.word Reg.PWR_CAL_I).toNat 9999 up == some 9999) = true ∧ 10000 * 65534 % 10000 = 0 ∧
      [0, 1].all (fun up => sensed (full.base.word Reg.PWR_CAL_I).toNat 10000 up == some 10000) = true ∧ 10000 * 65534 / 10000 < 65535) ∧
    (dip.plinthDue .dipResume (dip.mod.begun.timerAt .dipResume 9) ∧ (dip.mod.begun.timerAt .dipResume 9).pl.dip = some d) ∧
    (full.base.isSet Reg.PWR_STATUS F.PWR_STATUS_gate_full = true ∧ full.base.isSet Reg.PWR_STATUS F.PWR_STATUS_limit = false ∧ full.base.gateOn = true) ∧
    (lim.powerIs lim.mod.begun ∧ lim.mod.begun.pl.limitSince = some 5) ∧
    (clocked .limitClear []).plinthDue .limitClear (rung .limitClear []) ∧
    cage.base.isSet (Reg.PWR_CAGE 7) F.PWR_CAGE_on = true := by
  exact ⟨by decide +kernel, ⟨⟨rfl, 9, by decide +kernel, rfl⟩, rfl⟩, by decide +kernel, ⟨powerIs_of _ rfl, rfl⟩, clocked_due _ _, by decide +kernel⟩

theorem meets_cagesAndHeat :
    let k : TimerKey := .cageReset 7
    let pll := [word (Reg.SER_TILE_STATUS 31) [(F.SER_TILE_STATUS_pll_lock, 1)]]
    let bad := fun (m : Mod) => m.base.inTest (24 + 7) || !m.base.isSet (Reg.SER_TILE_STATUS (24 + 7)) F.SER_TILE_STATUS_pll_lock
    let heat := plinth [word Reg.PWR_TEMP_CFG [(F.PWR_TEMP_CFG_temp_warn_c, 90), (F.PWR_TEMP_CFG_temp_crit_c, 105)], fe 3]
    let m := heat.mod.begun
    let w : Mod := { m with pl := { m.pl with tempWarnAt := some 5 } }
    ((clocked k pll).plinthDue k (rung k pll) ∧ (rung k pll).base.camTile (24 + 7) = false ∧ bad (rung k pll) = false ∧ bad (rung k []) = true) ∧
    (heat.powerIs m ∧ tempReaches (256 * 90) (m.base.rd Reg.PWR_TEMP_CFG F.PWR_TEMP_CFG_temp_warn_c) = true ∧
      tempReaches (256 * 90 - 1) (m.base.rd Reg.PWR_TEMP_CFG F.PWR_TEMP_CFG_temp_warn_c) = false ∧ m.pl.tempWarnAt = none ∧
      w.base.now < 5 + 60 * sec ∧ 5 + 60 * sec ≤ ({ w.base with now := 5 + 60 * sec } : Base).now ∧
      tempReaches (256 * 105) (m.base.rd Reg.PWR_TEMP_CFG F.PWR_TEMP_CFG_temp_crit_c) = true ∧ m.base.gateOn = true ∧ m.pl.dieOn = false ∧
      (live 6 {}).mod.begun.pl.dieOn = true) := by
  exact ⟨⟨clocked_due _ _, by decide +kernel⟩, powerIs_of _ rfl, by decide +kernel⟩

theorem meets_shelfAlerts :
    let lend := word (Reg.BND_PORT_LEND 63) [(F.BND_PORT_LEND_valid, 1)]
    let cfg := word (Reg.PRT_CFG 63) [(F.PRT_CFG_role, 2), (F.PRT_CFG_slot, 55)]
    let s := live 6 (regs [cfg])
    let t := live 6 (regs [cfg, lend])
    s.dieIs s.mod.begun ∧ (s.mod.begun.prk.slot 55).alert = false ∧ (s.mod.begun.prk.slot 55).alert ≠ true ∧
    s.mod.begun.base.slotPort 55 = some 63 ∧ s.mod.begun.base.isSet (Reg.BND_PORT_LEND 63) F.BND_PORT_LEND_valid = false ∧
    t.mod.begun.base.isSet (Reg.BND_PORT_LEND 63) F.BND_PORT_LEND_valid = true := by
  exact ⟨dieIs_of _ (by decide +kernel), by decide +kernel⟩

theorem meets_smbus :
    let off := fun (addr : Nat) => (({ mod := { pl := { smbAddr := addr } } } : State)).mod.begun
    let on := (live 7 {}).mod.begun
    let upd : ImgRun := { kind := 0, len := 1, got := 992, smbus := true }
    let full : ImgRun := { kind := 0, len := 1, got := 993, smbus := true }
    (plinth []).powerIs (plinth []).mod.begun ∧
    ((off Reg.PWR_CTL).plinthOnly = true ∧ (off Reg.PWR_CTL).pl.smbAddr % 4 = 0 ∧ (off Reg.PWR_CTL).plinthReads (off Reg.PWR_CTL).pl.smbAddr = true ∧
      plinthClkMask (off Reg.PWR_CTL).pl.smbAddr = 0 ∧ inPwr (off Reg.PWR_CTL).pl.smbAddr = true ∧
      (off Reg.XBR_CTRL).plinthReads (off Reg.XBR_CTRL).pl.smbAddr = false) ∧
    (on.plinthOnly = false ∧ (on.readAccess .smbus on.pl.smbAddr 4 none).2.isSome = true) ∧
    ((leBytes 2 Config.resetCode).length = 2 ∧ leNat (leBytes 2 Config.resetCode) = Config.resetCode ∧ leNat (leBytes 2 7) ≠ Config.resetCode) ∧
    ((leBytes 4 7).length = 4 ∧ ([] : List Byte).length ≠ 4 ∧ (off 0).imgBusy = false ∧
      ({ off 0 with pl := { (off 0).pl with img := some upd } } : Mod).imgBusy = true) ∧
    ((List.replicate 32 (0 : Byte)).length = 32 ∧ upd.got + 32 ≤ 1024 * upd.len ∧ 1024 * full.len < full.got + 32 ∧ upd.smbus = true) ∧
    ((off 0).base.smbAlert = false ∧ (plinth [word Reg.PWR_FAULT [(F.PWR_FAULT_valid, 1)]]).mod.begun.base.smbAlert = true) := by
  exact ⟨powerIs_of _ rfl, by decide +kernel⟩

theorem meets_jtag :
    let m := fun (st lc : Nat) => (live st { pl := { lc := lc } }).mod.begun
    (plinth []).powerIs (plinth []).mod.begun ∧ (live 6 {}).powerIs (live 6 {}).mod.begun ∧ (plinth []).mod.begun.pl.dieOn = false ∧
    ((m 0 2).pl.dieOn = true ∧ (m 0 2).base.stage = 0 ∧ (m 7 2).base.stage = 7 ∧ (m 8 2).base.stage = 8 ∧ 0 < (m 6 2).base.stage ∧
      (m 6 2).base.stage < 7) ∧ ((m 6 4).pl.lc = 4 ∧ (m 6 2).pl.lc ≠ 4) := by
  exact ⟨powerIs_of _ rfl, powerIs_of _ rfl, by decide +kernel⟩

/-! ### Rules of the machine -/

/-- Rule 0 of guard 40 with an attribute word, over all addresses. -/
def ruled (attr : Nat) : Base :=
  { act := [reg (Reg.GRD_RULE_ATTR 40 0) attr, reg (Reg.GRD_RULE_LIMIT 40 0) (2 ^ 32 - 1), reg (Reg.GRD_RULE_LIMIT 40 0 + 4) (2 ^ 32 - 1)] }

theorem meets_guards :
    let x : Access := { space := 0, addr := 0, len := 8, rd := true, secure := true, ident := 40 }
    let p : Base := { regs := [word (Reg.GRD_STATUS 40) [(F.GRD_STATUS_parity, 1)]] }
    let dev : Base := { (ruled (0x17 + 2 ^ 31)) with regs := [word Reg.CLK_LC_STATE [(F.CLK_LC_STATE_state, 1)]] }
    p.isSet (Reg.GRD_STATUS 40) F.GRD_STATUS_parity = true ∧ ({} : Base).isSet (Reg.GRD_STATUS 40) F.GRD_STATUS_parity = false ∧
    x.badKs = false ∧ ({ x with bounds := false } : Access).bounds = false ∧
    ((ruled 0x17).ruleMatches 40 0 x = true ∧ bitOf ((ruled 0x17).ruleAttr 40 0) 3 = false ∧ bitOf ((ruled 0x1F).ruleAttr 40 0) 3 = true ∧
      (ruled 0x1F).ruleMatches 40 0 x = true) ∧
    ((ruled (0x17 + 2 ^ 31)).ruleMatches 40 0 x = true ∧ bitOf ((ruled (0x17 + 2 ^ 31)).ruleAttr 40 0) 31 = true ∧
      (ruled (0x17 + 2 ^ 31)).rd Reg.CLK_LC_STATE F.CLK_LC_STATE_state ≠ 1 ∧ dev.rd Reg.CLK_LC_STATE F.CLK_LC_STATE_state = 1) ∧
    (bitOf ((ruled 0x17).ruleAttr 40 0) 4 = true ∧ bitOf ((ruled 0x07).ruleAttr 40 0) 4 = false ∧ bitOf ((ruled 0x15).ruleAttr 40 0) 1 = false) ∧
    (∀ r : Fin 64, ({} : Base).ruleMatches 40 r.val x = false) ∧ 0 < x.len := by
  decide +kernel

theorem meets_rules :
    Reg.GRD_RULE_ATTR 40 63 ∈ ruleWords 40 63 ∧ (ruled 0).ruleLocked 40 0 = false ∧ (ruled (2 ^ 31)).ruleLocked 40 0 = true ∧
    Reg.GRD_RULE_BASE 0 0 ∈ ruleWords 0 0 := by
  decide +kernel

theorem meets_memory :
    Memory.wf ([] : List Host.Cell) = true ∧ Memory.wf [((4095 : Nat), (1 : Byte))] = true ∧ (0 ≤ 8 * 0 ∧ 8 * 0 + 8 ≤ 0 + (List.replicate 8 (0 : Byte)).length) := by
  decide +kernel

theorem meets_keeps :
    ([(Reg.PWR_CTL, (1 : W32)), (Reg.XBR_CTRL, 1)].map Prod.fst).Nodup ∧ plinthReg Reg.PWR_CTL = true ∧ plinthReg Reg.XBR_CTRL = false := by
  decide +kernel

theorem meets_meters :
    let t : MeterSt := { m := 4095 }
    let on : Mod := { base := { regs := [word (Reg.SCH_METER_CIR 4095) [(F.SCH_METER_CIR_enable, 1)]] }, sw := { meters := [t] } }
    let off : Mod := { sw := { meters := [t] } }
    t ∈ on.sw.meters ∧ on.base.meterOn 4095 = true ∧ t ∈ off.sw.meters ∧ off.base.meterOn 4095 = false := by
  decide +kernel
/-! ### Worked examples of the manual -/

/-- R12: bytes of 0x0180_0040, and its field [27:20]. R20: 0x002 is newer than 0xFFE in 12 bits. R269: digits of 0x040. -/
theorem test_examples_of_notation :
    leBytes 4 0x01800040 = [0x40, 0x00, 0x80, 0x01] ∧ bits 0x01800040 ⟨20, 8⟩ = 24 ∧ newer 12 0x002 0xFFE = true ∧
    newer 12 0xFFE 0x002 = false ∧ pathDigit 0x040 1 = 0 ∧ pathDigit 0x040 2 = 1 ∧ pathDigit 0x200 1 = 1 := by
  decide +kernel

/-- The check value of CRC-32 of IEEE 802.3 over "123456789" is 0xCBF4_3926. -/
theorem test_crc32 : crc32 [0x31, 0x32, 0x33, 0x34, 0x35, 0x36, 0x37, 0x38, 0x39] = 0xCBF43926 := by decide +kernel

/-- R378's example: 0x01C3_2A88 is HOD_CH_STATUS of hod 3, channel 26, and 0x0242_5418 is SLC_QP_STATUS of slice 37, pair 0;
partition 3, which is not the manager and owns slice 37, sees the second alone. -/
theorem test_example_of_offsets :
    let b := (live 6 (regs [word (Reg.SLC_STATE 37) [(F.SLC_STATE_state, 1)], word (Reg.SLC_BIND 37) [(F.SLC_BIND_partition, 3)],
                            word (Reg.SLC_RES 37) [(F.SLC_RES_qp_count, 1)]])).mod.base
    ((hitAt 0x01C32A88).row.name = .HOD_CH_STATUS ∧ (hitAt 0x01C32A88).i1 = 3 ∧ (hitAt 0x01C32A88).i2 = 26) ∧
    ((hitAt 0x02425418).row.name = .SLC_QP_STATUS ∧ (hitAt 0x02425418).i1 = 37 ∧ (hitAt 0x02425418).i2 = 0) ∧
    b.sight (.host 3) 0x01C32A88 (hitAt 0x01C32A88) = .hidden ∧ b.sight (.host 3) 0x02425418 (hitAt 0x02425418) = .full := by
  decide +kernel

/-- R44's example: the slot carries 9 to 36 and 2 to 33; gptr[36] becomes 10, aptr[9] 37, and gptr[33] stays 4. -/
theorem test_example_of_a_matching :
    let m := regs [word (Reg.XBR_PTR 33) [(F.XBR_PTR_gptr, 4)], word (Reg.XBR_PTR 36) [(F.XBR_PTR_gptr, 8)],
                   word (Reg.XBR_PTR 9) [(F.XBR_PTR_aptr, 35)]]
    let r := (List.range 3).foldl (fun acc r => Mod.matchRound [(2, 33), (2, 36), (9, 33), (9, 36)] (r + 1) acc) (m, [])
    r.2 = [⟨9, 36, 1⟩, ⟨2, 33, 2⟩] ∧ r.1.base.rd (Reg.XBR_PTR 36) F.XBR_PTR_gptr = 10 ∧ r.1.base.rd (Reg.XBR_PTR 9) F.XBR_PTR_aptr = 37 ∧
    r.1.base.rd (Reg.XBR_PTR 33) F.XBR_PTR_gptr = 4 := by
  decide +kernel

/-- The example of R49: P0's posted charge stops at a shared share of 25,864 cells, with alpha_exp 3. -/
theorem test_example_of_admission :
    let w := fun (shared : Nat) =>
      { gmin := [(0, 512), (3, 51712)], gMirror := 8192, stored := [(0, 512 + shared), (3, 51712 + 150000)] : Switch }
    (w 0).sharedSize = 201728 ∧ (w 25863).admits 3 0 1 = true ∧ (w 25864).admits 3 0 1 = false := by
  decide +kernel

/-- The example of R67: frames 0, 19, 20, 60, 61 of 1,040 B, at the token counts of its table, are green, green, yellow, yellow, red. -/
theorem test_example_of_a_meter :
    let c := fun (tc tp : Nat) => ({ base := { regs := [word (Reg.SCH_METER_CIR 0) [(F.SCH_METER_CIR_enable, 1)]] },
                                     sw := { meters := [{ m := 0, tc := 256 * tc, tp := 256 * tp }] } } : Mod).colour (some 0) 1040
    [c 16384 32768, c 1488 22736, c 704 22208, c 544 1088, c 800 560] = [0, 0, 1, 1, 2] := by
  decide +kernel

/-- The example of R71: at tick 1,000,000 a queue shaped at 164 that sends 1,040 B is due at tick 1,001,624, and at 1 at 1,266,240. -/
theorem test_example_of_a_shaper :
    let q := fun (inc : Nat) => (({ base := { regs := [word (Reg.SCH_Q_CFG 0) [(F.SCH_Q_CFG_shape_en, 1)], word (Reg.SCH_Q_SHAPE 0) [(F.SCH_Q_SHAPE_inc, inc)]],
                                              coreOn := true, stamp := 64000000 } } : Mod).shape 0 1040).sw.qst 0
    (q 164).tNext = 256000000 + 415594 ∧ (q 164).due = some 1001624 ∧ (q 1).due = some 1266240 := by
  decide +kernel

/-- The example of R143: guard 26's four accesses. -/
theorem test_example_of_guards :
    let a := fun (r v : Nat) => reg (Reg.GRD_RULE_ATTR 26 r) v
    let wide := fun (x v : Nat) => [reg x (v % 2 ^ 32), reg (x + 4) (v / 2 ^ 32)]
    let span := fun (r lo hi : Nat) => wide (Reg.GRD_RULE_BASE 26 r) lo ++ wide (Reg.GRD_RULE_LIMIT 26 r) hi
    let b : Base := { act := [a 0 (0x27 + 2 ^ 31), a 1 (0x09 + 2 ^ 31), a 2 0x27, a 3 (0x67 + 2 * 2 ^ 8 + 2 ^ 14),
                              reg (Reg.GRD_RULE_MATCH 26 3) 0x123] ++
                        span 0 0x40000000 0x7FFFFFFF ++ span 1 0 0x1FFFFFFFFFF ++ span 2 0x800000000000 0x800007FFFFFF ++ span 3 0 (2 ^ 64 - 1) }
    let fetch : Access := { space := 1, sel := 2, addr := 0x820000000, len := 64, rd := true, secure := false, pasid := some 0x123, ident := 26 }
    b.guardDecide 26 { space := 0, addr := 0x40001000, len := 64, wr := true, secure := false, ident := 26 } = none ∧
    b.guardDecide 26 { space := 0, addr := 0x01000000, len := 8, rd := true, secure := false, ident := 26 } = some ⟨1, 1⟩ ∧
    b.guardDecide 26 fetch = none ∧ b.guardDecide 26 { fetch with pasid := some 0x124 } = some ⟨0, 0x40⟩ := by
  decide +kernel

/-- R237's example: sub-eyes of indices 70, 85 and 75; the lower one limits the lane. -/
theorem test_example_of_an_eye :
    eyeIndex 38 33 = 70 ∧ eyeIndex 46 40 = 85 ∧ eyeIndex 40 36 = 75 ∧ limiting [38, 46, 40] [33, 40, 36] = (0, 38, 33, 70) := by
  decide +kernel

/-- R323's example: after a sleep of 500 µs the time-stamp resumes one above its saved value. -/
theorem test_example_of_the_time_stamp :
    ({ now := 3000600000500000, stamp := 3000600000900000 } : Base).startCore.ns = 3000600000900001 ∧
    ({ now := 3000600000500000 } : Base).tod = 98323660816 := by
  decide +kernel

/-! ### Single steps with the switch die off -/

theorem test_steps_of_the_plinth :
    (match exec (.regAddr [0x00, 0x00, 0x30, 0x00] true) State.reset with
     | .next t => t.mod.pl.smbAddr == 0x300000 && t.mod.base.out == []
     | _ => false) = true ∧
    (match exec .jtagDebug State.reset with
     | .next t => t.mod.pl.debugOpen
     | _ => true) = false ∧
    (match exec .plinthPowerLoss State.reset with
     | .next t => t.mod.pl.powered
     | _ => true) = false := by
  decide +kernel

end Sys2Proof.Tests
end

section
/-! PROOFS of the statements of spec/00_scope.md: the access codes bit by bit (R13), an ordinary register's write (R15, R16), a refused
access (R16), and the register file over a reset of the die (R14, R328). Their lemmas stand first: the register map, the codes at one
bit, registers with no rule of their own, and the register file over a reset. -/

namespace Sys2Proof.Machine

/-! ### The register map -/

theorem RegRow.hit_row {r : RegRow} {a : Nat} {h : RegHit} (hh : r.hit a = some h) : h.row = r := by
  unfold RegRow.hit at hh
  simp only [Option.ite_none_left_eq_some, Option.ite_none_right_eq_some, Option.some.injEq] at hh
  obtain ⟨-, -, rfl⟩ := hh
  rfl

theorem blockRows_subset_allRows (a : Nat) : blockRows a ⊆ allRows := by
  unfold blockRows
  repeat' refine iteInduction (motive := (· ⊆ allRows)) (fun _ => ?_) (fun _ => ?_)
  pick_goal -1
  · exact List.nil_subset _
  all_goals
    intro r hr
    simp only [allRows, List.mem_append, hr, true_or, or_true]

theorem regAt_row_mem {a : Nat} {h : RegHit} (hat : regAt a = some h) : h.row ∈ allRows := by
  obtain ⟨r, hr, hit⟩ := List.exists_of_findSome?_eq_some hat
  rw [RegRow.hit_row hit]
  exact blockRows_subset_allRows a hr

/-- No bit of a register of the index has w1c and another code that a write acts by (R13). -/
theorem allRows_w1c_apart : ∀ r ∈ allRows, r.rw &&& r.w1c = 0 ∧ r.w1c &&& r.w1s = 0 := by
  decide +kernel

/-! ### The access codes at one bit (R13) -/

theorem testBit_eq_false_of_and_eq_zero {x y k : Nat} (h : x &&& y = 0) (hx : x.testBit k = true) : y.testBit k = false := by
  have both : (x.testBit k && y.testBit k) = false := by rw [← Nat.testBit_and, h, Nat.zero_testBit]
  rwa [hx, Bool.true_and] at both

theorem testBit_wordOfMask (mask word : Nat) {i : Nat} (hi : i < 32) :
    (mask >>> (32 * word) % 2 ^ 32).testBit i = mask.testBit (32 * word + i) := by
  rw [Nat.testBit_mod_two_pow, decide_eq_true hi, Bool.true_and, Nat.testBit_shiftRight]

theorem testBit_complement {x i : Nat} (hi : i < 32) (hx : x < 2 ^ 32) : (2 ^ 32 - 1 - x).testBit i = !x.testBit i := by
  rw [Nat.sub_sub, Nat.add_comm 1 x, Nat.testBit_two_pow_sub_succ hx, decide_eq_true hi, Bool.true_and]

/-- The rw bit is taken, then the w1c bit is cleared, then the w1s bit is set. -/
theorem codedWord_testBit (h : RegHit) (old v : Nat) {i : Nat} (hi : i < 32) :
    (codedWord h old v).testBit i =
      let k := 32 * h.word + i
      ((old.testBit i && !h.row.rw.testBit k || v.testBit i && h.row.rw.testBit k) && !(v.testBit i && h.row.w1c.testBit k)
        || v.testBit i && h.row.w1s.testBit k) := by
  have hpart (mask : Nat) : mask >>> (32 * h.word) % 2 ^ 32 < 2 ^ 32 := Nat.mod_lt _ (Nat.two_pow_pos 32)
  simp only [codedWord, Nat.testBit_or, Nat.testBit_and, testBit_wordOfMask _ _ hi,
    testBit_complement hi (hpart _), testBit_complement hi (Nat.and_le_right.trans_lt (hpart _))]

/-! ### Registers with no rule of their own -/

/-- Every arm of `wordWrite` but the last names a register that is not ordinary. -/
theorem Mod.wordWrite_ordinary (m : Mod) (w : Who) (off : Nat) {h : RegHit} (v : Nat) (ho : h.row.name.ordinary = true) :
    m.wordWrite w off h v = { m with base := m.base.codedWrite off h v } := by
  unfold Mod.wordWrite
  split
  case h_87 => rfl
  all_goals
    rename_i hn
    rw [hn] at ho
    exact absurd ho Bool.false_ne_true

theorem wholeWrite_of_ordinary {n : RegName} (ho : n.ordinary = true) : wholeWrite n = false := by
  unfold wholeWrite
  split
  case h_10 => rfl
  all_goals exact absurd ho Bool.false_ne_true

/-- A 64-bit write acts on the lower offset first (R16). -/
theorem Mod.decodeWide_ordinary (m : Mod) (w : Who) {off : Nat} {h : RegHit} (v : Nat) (hat : regAt off = some h)
    (ho : h.row.name.ordinary = true) :
    m.decodeWide w off v = (m.decodeWrite w off (v % 2 ^ 32)).decodeWrite w (off + 4) (v / 2 ^ 32) := by
  simp only [Mod.decodeWide, hat, wholeWrite_of_ordinary ho, Bool.and_false, Bool.false_and, Bool.false_eq_true, if_false]

theorem regAt_PRK_PEEK_IDX_name : (regAt Reg.PRK_PEEK_IDX).map (·.row.name) = some .PRK_PEEK_IDX := by
  decide +kernel

/-- A write that may hang before READY (R327) is none of an ordinary register. -/
theorem ne_PRK_PEEK_IDX_of_ordinary {off : Nat} {h : RegHit} (hat : regAt off = some h) (ho : h.row.name.ordinary = true) :
    off ≠ Reg.PRK_PEEK_IDX := by
  rintro rfl
  have hn := regAt_PRK_PEEK_IDX_name
  rw [hat, Option.map_some, Option.some_inj] at hn
  rw [hn] at ho
  exact absurd ho Bool.false_ne_true

/-! ### The register file over a reset of the die (R14, R328) -/

theorem lookup_eq_none_of_notMem_keys {β : Type} {l : List (Nat × β)} {a : Nat} (h : a ∉ l.map Prod.fst) : l.lookup a = none := by
  rw [List.lookup_eq_none_iff]
  rintro ⟨b, v⟩ hx
  refine bne_iff_ne.2 ?_
  rintro rfl
  exact h (List.mem_map_of_mem hx)

/-- Where no key is listed twice, a map that drops entries or changes their values acts on the value looked up. -/
theorem lookup_filterMap {β : Type} (f : Nat × β → Option (Nat × β)) (hf : ∀ x y, f x = some y → y.1 = x.1) {l : List (Nat × β)}
    (hl : (l.map Prod.fst).Nodup) (a : Nat) :
    (l.filterMap f).lookup a = (l.lookup a).bind (fun v => (f (a, v)).map Prod.snd) := by
  induction l with
  | nil => rfl
  | cons x t ih =>
    obtain ⟨b, v⟩ := x
    obtain ⟨hb, ht⟩ := List.nodup_cons.1 hl
    cases hx : f (b, v) with
    | none =>
      rw [List.filterMap_cons_none hx, ih ht]
      by_cases hab : a = b
      · subst hab
        rw [List.lookup_cons_self, lookup_eq_none_of_notMem_keys hb, Option.bind_some, hx]
        rfl
      · rw [List.lookup_cons, beq_eq_false_iff_ne.2 hab]
    | some y =>
      obtain ⟨c, w⟩ := y
      obtain rfl : c = b := hf _ _ hx
      rw [List.filterMap_cons_some hx]
      by_cases hab : a = c
      · subst hab
        rw [List.lookup_cons_self, List.lookup_cons_self, Option.bind_some, hx]
        rfl
      · rw [List.lookup_cons, List.lookup_cons, beq_eq_false_iff_ne.2 hab, ih ht]

theorem and_or_and_not_self (x y : W32) : x &&& y ||| x &&& ~~~y = x := by
  rw [← BitVec.and_or_distrib_left, BitVec.or_not_self, BitVec.and_allOnes]

/-- A word that is not listed reads as its reset entry, whose rs bits a warm reset keeps. -/
theorem RegFile.get_overReset {r : RegFile} (hr : (r.map Prod.fst).Nodup) (warm : Bool) (a : Nat) :
    (r.overReset warm).get a =
      if plinthReg a then r.get a
      else if warm then r.get a &&& maskWord RegRow.rs a ||| regReset a &&& ~~~maskWord RegRow.rs a
      else regReset a := by
  unfold RegFile.overReset RegFile.get
  rw [lookup_filterMap _ _ hr]
  · cases r.lookup a with
    | none => simp [and_or_and_not_self]
    | some v =>
      cases hp : plinthReg a with
      | true => simp [hp]
      | false =>
        cases warm with
        | false => simp [hp]
        | true =>
          by_cases hv : v &&& maskWord RegRow.rs a ||| regReset a &&& ~~~maskWord RegRow.rs a = regReset a
          · simp [hp, hv]
          · simp [hp, hv]
  · intro x y hxy
    dsimp only at hxy
    split_ifs at hxy <;> cases hxy <;> rfl

end Sys2Proof.Machine

open Sys2Proof Sys2Proof.Machine

/-- Settles O11: the masks of a row's access codes do not overlap where their order would tell. -/
theorem accessCodesBitByBit : Obligations.AccessCodesBitByBit := by
  intro off h old v i hat hi
  obtain ⟨hrw, hset⟩ := allRows_w1c_apart h.row (regAt_row_mem hat)
  rw [codedWord_testBit h old v hi]
  dsimp only
  split_ifs with h1 h2 h3
  · rw [testBit_eq_false_of_and_eq_zero hrw h1, h1]
    cases v.testBit i <;> simp
  · simp [h1, h2, testBit_eq_false_of_and_eq_zero hset h2]
  · simp [h1, h2, h3]
  · simp [h1, h2, h3]

/-- Settles O14: the access is refused on its way, and its event is a host's or the module's. -/
theorem refusedAccessesAreLogged : Obligations.RefusedAccessesAreLogged := by
  intro s w off wr width href
  calc exec (.refusedRegisterAccess w off wr width) s
      = .next (s.run (fun m => m.rowRefused w off wr width.val)) := rfl
    _ = _ := by
      rw [State.run_refused href]
      unfold Base.badAccess
      cases whoPart w <;> rfl

/-- Settles O16: the write reaches the decoder, where no arm but the access codes is an ordinary register's. -/
theorem ordinaryRegisterWrites : Obligations.OrdinaryRegisterWrites := by
  intro s w off v m h
  constructor
  · intro hw ho
    have ⟨_, hat, _⟩ := hw
    calc exec (.registerWrite w off false v) s
        = .next (s.run (fun m => m.rowWrite w off false v.toNat)) := rfl
      _ = .next (s.ends (m.wordWrite w off h v.toNat)) := by rw [State.run_writes_at hw _ (ne_PRK_PEEK_IDX_of_ordinary hat ho)]
      _ = _ := by rw [Mod.wordWrite_ordinary m w off _ ho]; rfl
  · intro hr hat ho
    calc exec (.registerWrite w off true v) s
        = .next (s.run (fun m => m.rowWrite w off true v.toNat)) := rfl
      _ = .next (s.ends (m.decodeWide w off v.toNat)) := by rw [State.run_wide hr _ (ne_PRK_PEEK_IDX_of_ordinary hat ho)]
      _ = _ := by rw [Mod.decodeWide_ordinary m w _ hat ho]

/-- Settles O58: the word that a reset leaves, and its bits under the mask of the rs fields. -/
theorem resetsKeepWhatTheyMust : Obligations.ResetsKeepWhatTheyMust := by
  intro r a i hr hi
  refine ⟨fun hp warm => ?_, fun hp => ⟨?_, ?_⟩⟩
  · rw [RegFile.get_overReset hr, if_pos hp]
  · simp [RegFile.get_overReset hr, hp]
  · rw [RegFile.get_overReset hr, hp]
    simp only [Bool.false_eq_true, if_false, if_true, BitVec.getLsbD_or, BitVec.getLsbD_and, BitVec.getLsbD_not, decide_eq_true hi]
    cases (maskWord RegRow.rs a).getLsbD i <;> simp
end

section
/-! PROOFS of the statements of spec/01_architecture.md: what the commands of the queue engines do (R25, R26), what happens to a port
(R35), the messages of a bond (R32), and M2 (R34, R35); and a counterexample to the statement on Camtex training. First stand the rules by
which a command acts on the module that it finds; then, for each statement, what the functions that its commands call do in each case. -/

namespace Sys2Proof.Machine

/-! ### A command acts on the module that it finds -/

section
variable {s : State} {m : Mod} {c : Instr} {f : Mod → Mod}

theorem exec_of_coreIs (h : s.coreIs m) (hc : exec c s = .next (s.run (fun m => m.onCore f))) : exec c s = .next (s.ends (f m)) := by
  obtain ⟨hlive, rfl⟩ := h
  rw [hc, State.run_onCore s f hlive]

theorem exec_of_dieIs (h : s.dieIs m) (hc : exec c s = .next (s.run (fun m => m.onDie f))) : exec c s = .next (s.ends (f m)) := by
  obtain ⟨hlive, rfl⟩ := h
  rw [hc, State.run_onDie s f hlive]

theorem exec_of_powerIs (h : s.powerIs m) (hc : exec c s = .next (s.run f)) : exec c s = .next (s.ends (f m)) := by
  obtain ⟨hpow, rfl⟩ := h
  rw [hc, State.run_powered s f hpow]

theorem exec_of_coreDue {k : TimerKey} (h : s.coreDue k m) (hc : exec c s = .next (s.run (fun m => m.onCoreTimer k f))) :
    exec c s = .next (s.ends (f m)) := by
  obtain ⟨hlive, d, hdue, rfl⟩ := h
  rw [hc, State.run_onCoreTimer s k d f hlive hdue]

end

/-! ### Descriptors at the front of a pair (R25, R26, R132, R149, R165, R177) -/

section
variable {s : State} {m n : Mod} {g : Fin 4096} {d : Desc}

theorem exec_move (h : s.coreIs m) (hd : m.frontOp g.val 1 = some d) : exec (.move g) s = .next (s.ends (m.routeMove d)) := by
  rw [exec_of_coreIs h rfl]
  simp only [hd]

theorem exec_parkWrite (h : s.coreIs m) (hd : m.frontOp g.val 2 = some d) :
    exec (.parkWrite g) s = .next (s.ends (m.routePark d)) := by
  rw [exec_of_coreIs h rfl]
  simp only [hd]

theorem exec_parkRead (h : s.coreIs m) (hd : m.frontOp g.val 3 = some d) :
    exec (.parkRead g) s = .next (s.ends (m.routePark d)) := by
  rw [exec_of_coreIs h rfl]
  simp only [hd]

theorem exec_nop (h : s.coreIs m) (hd : m.frontOp g.val 5 = some d) :
    exec (.nop g) s = .next (s.ends ((m.complete d.id 0).fences)) := by
  rw [exec_of_coreIs h rfl]
  simp only [hd]

theorem exec_guardCommit (h : s.coreIs m) (hd : m.frontOp g.val 0x11 = some d) :
    exec (.guardCommit g) s = .next (s.ends (m.routeCommit d)) := by
  rw [exec_of_coreIs h rfl]
  simp only [hd]

theorem Mod.beginFence_found
    (hd : m.qe.descs.find? (fun d => d.gqp == g.val && d.phase == .queued && d.opcode == 4 && !d.bad) = some d) :
    m.beginFence g.val = ({ m with qe := m.qe.setDesc { d with phase := .waiting } } : Mod).fences := by
  simp only [Mod.beginFence, hd]

theorem Mod.answered_tagged {o : TagOwner} (h : (m.tagOf o).isSome = true) (c : Cpl) : m.answered o c = m.ownerDone o c :=
  if_pos h

theorem Mod.routeMove_denied {e : Denial} (h : m.routeGuard d = (n, some e)) :
    m.routeMove d = (n.completeDenied d.id (24 + n.base.slicePart d.slice) e).fences := by
  simp only [Mod.routeMove, h]

theorem Mod.routeMove_asleep (h : m.routeGuard d = (n, none)) (ha : d.awake = false) :
    m.routeMove d = (n.complete d.id 0x21).fences := by
  simp only [Mod.routeMove, h, ha, Bool.not_false, if_true]

theorem Mod.routeMove_awake (h : m.routeGuard d = (n, none)) (ha : d.awake = true) :
    m.routeMove d = n.makeJob d (fieldAt d.raw 0x10 8) (fieldAt d.raw 0x18 8) d.length (d.field 0x28 ⟨0, 32⟩) 0 := by
  simp only [Mod.routeMove, h, ha, Bool.not_true, Bool.false_eq_true, if_false]

/-- A shelf that no port reaches takes no job: its descriptor goes to admission. -/
theorem Mod.routePark_noPort (h : m.routeGuard d = (n, none)) (hp : n.parkPort d = none) : m.routePark d = n.letIn d := by
  simp only [Mod.routePark, h, hp]

/-- So does the descriptor of a shelf that is asleep or has live entries. -/
theorem Mod.routePark_notReady {p : Nat} (h : m.routeGuard d = (n, none)) (hp : n.parkPort d = some p)
    (hl : (d.awake && !d.live) = false) : m.routePark d = n.letIn d := by
  simp only [Mod.routePark, h, hp, hl, Bool.false_eq_true, if_false]

theorem Mod.routePark_write {p : Nat} (h : m.routeGuard d = (n, none)) (hp : n.parkPort d = some p)
    (hl : (d.awake && !d.live) = true) (ho : d.opcode = 2) :
    m.routePark d = n.makeJob d d.hostAddr d.shelfAddr d.length (2 ^ 4 * 1 + 2 ^ 16 * p) 1 := by
  simp only [Mod.routePark, h, hp, hl, ho, if_true]

theorem Mod.routePark_read {p : Nat} (h : m.routeGuard d = (n, none)) (hp : n.parkPort d = some p)
    (hl : (d.awake && !d.live) = true) (ho : d.opcode = 3) :
    m.routePark d = n.makeJob d d.shelfAddr d.hostAddr d.length (1 + 2 ^ 8 * p) 1 := by
  simp only [Mod.routePark, h, hp, hl, ho, if_true, if_neg (show ¬3 = 2 by decide)]

theorem Mod.routeCommit_idle (h : m.base.isSet Reg.GRD_COMMIT F.GRD_COMMIT_done = true) :
    m.routeCommit d = ({ m with qe := m.qe.setDesc { d with phase := .waiting } } : Mod).startCommit (d.field 0x10 ⟨0, 41⟩)
      (some (d.gqp, d.id)) := if_pos h

theorem Mod.routeCommit_busy (h : m.base.isSet Reg.GRD_COMMIT F.GRD_COMMIT_done = false) :
    m.routeCommit d = { m with qe := m.qe.setDesc { d with phase := .waiting },
                               base := { m.base with commitWait := m.base.commitWait ++ [(d.gqp, d.id, d.field 0x10 ⟨0, 41⟩)] } } :=
  if_neg (ne_true_of_eq_false h)

theorem exec_irqTimeExpiry {sl q : Nat} (h : s.coreDue (.irqTime g.val) m) (ho : m.base.qpOwner g.val = some (sl, q)) :
    exec (.irqTimeExpiry g) s = .next (s.ends (m.ringMessage sl q g.val)) := by
  rw [exec_of_coreDue h rfl]
  simp only [ho]

end

end Sys2Proof.Machine

open Sys2Proof Sys2Proof.Machine

/-- Settles O29: each command by what its descriptor's guard, shelf and port decide. -/
theorem queueCommands : Obligations.QueueCommands := by
  intro s m g
  refine ⟨fun p h => by rw [exec_of_coreIs h rfl], fun p id c h htag => ?fetched,
    fun d n h hd => ⟨fun e hg => ?denied, fun hg => ?allowed⟩, fun d n h hg hp => ?noPort,
    fun d n p h hg hp => ⟨fun hd ho => ?write, fun hd ho => ?read⟩, fun d h hd => ?fence, fun d h hd => exec_nop h hd,
    fun d h hd => ?commit, fun sl q h ho => exec_irqTimeExpiry h ho⟩
  case fetched =>
    rw [exec_of_coreIs h rfl, Mod.answered_tagged htag]
    rfl
  case denied => rw [exec_move h hd, Mod.routeMove_denied hg]
  case allowed =>
    rw [exec_move h hd]
    exact ⟨fun ha => by rw [Mod.routeMove_asleep hg ha], fun ha => by rw [Mod.routeMove_awake hg ha]⟩
  case noPort =>
    rw [← Mod.routePark_noPort hg hp]
    exact ⟨exec_parkWrite h, exec_parkRead h⟩
  case write =>
    rw [exec_parkWrite h hd]
    exact ⟨fun hl => by rw [Mod.routePark_write hg hp hl ho], fun hl => by rw [Mod.routePark_notReady hg hp hl]⟩
  case read =>
    rw [exec_parkRead h hd]
    exact ⟨fun hl => by rw [Mod.routePark_read hg hp hl ho], fun hl => by rw [Mod.routePark_notReady hg hp hl]⟩
  case fence => rw [exec_of_coreIs h rfl, Mod.beginFence_found hd]
  case commit =>
    rw [exec_guardCommit h hd]
    exact ⟨fun hdone => by rw [Mod.routeCommit_idle hdone], fun hdone => by rw [Mod.routeCommit_busy hdone]⟩

namespace Sys2Proof.Machine

/-! ### M2 and what ends it (R34, R35, R341) -/

section
variable {m : Mod} {cause : Nat}

theorem Mod.wakeEvent_awake (h : m.pl.m2 = 0) : m.wakeEvent cause = m := by
  simp [Mod.wakeEvent, h]

theorem Mod.wakeEvent_asleep (h : m.pl.m2 = 2) : m.wakeEvent cause = m.m2Exit cause :=
  if_pos h

/-- Before 20 us of the entry, a wake event gives the entry up. -/
theorem Mod.wakeEvent_early (h : m.pl.m2 = 1) (ht : m.base.now < m.pl.m2At + 20 * us) :
    m.wakeEvent cause = { m.m2Resume with base := m.m2Resume.base.raise { group := 2, bit := 9 } } := by
  simp [Mod.wakeEvent, h, ht]

/-- Later it is kept, the first one's cause with it, and the exit follows the entry. -/
theorem Mod.wakeEvent_late (h : m.pl.m2 = 1) (ht : m.pl.m2At + 20 * us ≤ m.base.now) :
    m.wakeEvent cause = { m with pl := { m.pl with m2Wake := some (m.pl.m2Wake.getD cause) } } := by
  simp [Mod.wakeEvent, h, Nat.not_lt.2 ht]

theorem Mod.m2Entry_refused (h : m.m2May = false) : m.m2Entry = m := by
  simp [Mod.m2Entry, h]

theorem Mod.m2Entry_asks (h : m.m2May = true) (ha : m.base.m2Acked = false) :
    m.m2Entry = { m with bnd := { m.bnd with m2ask := true } } := by
  simp [Mod.m2Entry, h, ha]

theorem Mod.wakeTimer_unset (h : m.base.word64 Reg.CLK_WAKE_AT = 0) : m.wakeTimer = m := by
  simp [Mod.wakeTimer, h]

theorem Mod.wakeTimer_set (h : m.base.word64 Reg.CLK_WAKE_AT ≠ 0) (hm : m.pl.m2 ≠ 0) :
    m.wakeTimer =
      ({ m with base := { m.base with now := max m.base.now (cdiv (m.base.word64 Reg.CLK_WAKE_AT * sec) 32768) } }
        : Mod).m2Due.wakeEvent 3 := by
  simp [Mod.wakeTimer, h, hm]

theorem Mod.heldPortWake_noPort (h : m.base.heldPort = none) : m.heldPortWake = m := by
  simp only [Mod.heldPortWake, h]

/-- The held port's link leaves L1.2 only where it shows that state. -/
theorem Mod.heldPortWake_port {p : Nat} (h : m.base.heldPort = some p) :
    m.heldPortWake =
      if (m.wakeEvent 1).base.rd (Reg.PRT_STATUS p) F.PRT_STATUS_pm = 3 then
        { m.wakeEvent 1 with base := ((m.wakeEvent 1).base.wr (Reg.PRT_STATUS p) F.PRT_STATUS_pm 0).restartL1 p }
      else m.wakeEvent 1 := by
  simp only [Mod.heldPortWake, h]

theorem Mod.hostTraining_host {p : Nat} (hr : m.base.portRole p = 1) (hh : (m.base.heldPort == some p) = false) :
    m.hostTraining p =
      if (m.wakeEvent 2).base.linkUp p = true then m.wakeEvent 2
      else { m.wakeEvent 2 with base := (m.wakeEvent 2).base.trainPort p } := by
  simp [Mod.hostTraining, hr, hh]

end

/-! ### Messages of a bond (R32, R98, R214, R216, R284 to R292) -/

section
variable {m : Mod} {src port : Nat}

theorem Mod.alertIn_notLent (h : m.base.lentAs src port = none) (level : Bool) : m.alertIn src port level = m := by
  simp only [Mod.alertIn, h]

theorem Mod.linkStateIn_notLent (h : m.base.lentAs src port = none) (a b c : Bool) : m.linkStateIn src port a b c = m := by
  simp only [Mod.linkStateIn, h]

theorem Mod.powerGoodIn_notLent (h : m.base.lentAs src port = none) (pg : Bool) : m.powerGoodIn src port pg = m := by
  simp only [Mod.powerGoodIn, h]

theorem Mod.alertIn_lent {v : Nat} (h : m.base.lentAs src port = some v) (level : Bool) :
    m.alertIn src port level =
      let up := (m.base.upstreamPort (v / 32)).getD 0
      { m with base := m.base.raise { group := 8 + up / 32, bit := up % 32, cause := 4, scope := .part (v / 32),
                                      detail := b2n level + 2 * (v % 32) + 2 ^ 6 * (v / 32) } } := by
  simp only [Mod.alertIn, h]

theorem Mod.linkStateIn_lent {v : Nat} (h : m.base.lentAs src port = some v) (a b c : Bool) :
    m.linkStateIn src port a b c = { m with base := m.base.virtualLink (88 + v) (v / 32) a (a && !b && !c) false } := by
  simp only [Mod.linkStateIn, h]

theorem Mod.powerGoodIn_lent {v : Nat} (h : m.base.lentAs src port = some v) (pg : Bool) :
    m.powerGoodIn src port pg = { m with base := m.base.flag (Reg.BND_LEND v) F.BND_LEND_pg pg } := by
  simp only [Mod.powerGoodIn, h]

theorem Mod.resetReqIn_borrower {set : Bool}
    (h : (m.base.isSet (Reg.BND_PORT_LEND port) F.BND_PORT_LEND_valid &&
      m.base.rd (Reg.BND_PORT_LEND port) F.BND_PORT_LEND_borrower_path == src) = true) :
    m.resetReqIn src port set = m.busReset port set := if_pos h

theorem Mod.resetReqIn_stranger {set : Bool}
    (h : (m.base.isSet (Reg.BND_PORT_LEND port) F.BND_PORT_LEND_valid &&
      m.base.rd (Reg.BND_PORT_LEND port) F.BND_PORT_LEND_borrower_path == src) = false) :
    m.resetReqIn src port set = m := if_neg (ne_true_of_eq_false h)

/-- The one lend that ends does so with its table cleared, its owner's entries gone and its owner told. -/
theorem Mod.unlendEnd_single {l : Lend} (hl : m.bnd.lends = [l]) (he : l.ending = true) {n : Mod}
    (hn : ((l.ownerEntries.foldl (fun m e => m.writeAt l.req.ownerPath (rtOff e 0) 0)
      (m.writeAt l.req.ownerPath (Reg.BND_PORT_LEND l.port) 0)).lendAnswer l.req false) = n)
    (hw : n.bnd.lendWait = []) (hs : n.bnd.lends = [l]) :
    m.unlendEnd = { n with bnd := { n.bnd with lends := [], lendWait := [] } } := by
  simp [Mod.unlendEnd, hl, he, hn, hw, hs]

theorem Mod.wakeReq_notKeystone {sleeper : Nat} (h : m.base.anyKeystone = false) : m.wakeReq sleeper = m := by
  simp [Mod.wakeReq, h]

theorem Mod.wakeReq_keystone {sleeper : Nat} (h : m.base.anyKeystone = true) (hs : m.base.memberState sleeper = 2) :
    m.wakeReq sleeper =
      (((m.bnd.members.filter (fun x => x.path != sleeper && x.ports.any (fun r => r.partner == sleeper))).map
        Member.path).eraseDups).foldl
        (fun m p => m.toBond { dstPath := p, stype := .msg, data := leBytes 4 (5 + 2 ^ 8) ++ leBytes 4 sleeper })
        (m.wakeOrder sleeper) := by
  simp [Mod.wakeReq, h, hs]

/-- The base that an error report leaves before it is logged: counted and raised. -/
def Base.farError (b : Base) (src cause origin : Nat) : Base :=
  (b.bump (Reg.BND_CNT 14)).raise { group := 12, bit := 5, detail := src + 2 ^ 12 * cause + 2 ^ 16 * origin }

variable {cause origin : Nat} (hc : cause < 16) (ho : origin < 128)
include hc ho

theorem Mod.errIn_more {hdr : List Nat} (h : (m.base.farError src cause origin).isSet Reg.BND_FAR_INFO F.BND_FAR_INFO_valid = true) :
    m.errIn src cause origin hdr = { m with base := (m.base.farError src cause origin).wr Reg.BND_FAR_INFO F.BND_FAR_INFO_more 1 } := by
  unfold Base.farError at *
  simp only [Mod.errIn, Nat.mod_eq_of_lt hc, Nat.mod_eq_of_lt ho, h, if_true]

theorem Mod.errIn_first {hdr : List Nat} (hs : src < 4096)
    (h : (m.base.farError src cause origin).isSet Reg.BND_FAR_INFO F.BND_FAR_INFO_valid = false) :
    m.errIn src cause origin hdr =
      { m with base := (List.range 4).foldl (fun b i => b.setWord (Reg.BND_FAR_LOG i) (BitVec.ofNat 32 (hdr.getD i 0)))
                 ((m.base.farError src cause origin).setWord Reg.BND_FAR_INFO
                   (BitVec.ofNat 32 (src + 2 ^ 12 * cause + 2 ^ 16 * origin + 2 ^ 31))) } := by
  unfold Base.farError at *
  simp only [Mod.errIn, Nat.mod_eq_of_lt hc, Nat.mod_eq_of_lt ho, Nat.mod_eq_of_lt hs, h, Bool.false_eq_true, if_false]

end

theorem exec_park {s : State} {m : Mod} (h : s.coreIs m) (src : Fin 4096) (x : ParkMsg) :
    exec (.park src x) s = .next (s.ends (m.parkIn src.val x)) := by
  rw [exec_of_coreIs h rfl]

/-- A refusal ends an entry that went to its shelf's owner (R32); of any other entry it refuses the partner's copy (R98). -/
theorem Mod.parkIn_refuse {m : Mod} (src : Nat) {i : Nat} {e : Entry} (h : m.prk.entry i = some e) :
    m.parkIn src (.refuse i) = if e.remoteTo.isSome = true then m.finishIdx i 0x27 else m.peerNo i := by
  simp only [Mod.parkIn, h]

theorem Mod.parkIn_refuse_unknown {m : Mod} (src : Nat) {i : Nat} (h : m.prk.entry i = none) : m.parkIn src (.refuse i) = m := by
  simp only [Mod.parkIn, h]

section
variable {m : Mod} {r : LendReq}

theorem Mod.lendIn_notKeystone (h : m.base.anyKeystone = false) : m.lendIn r = m := by
  simp [Mod.lendIn, h]

theorem Mod.lendIn_waits (h : m.base.anyKeystone = true) (ha : m.base.armed .unlendSettle = true) :
    m.lendIn r = { m with bnd := { m.bnd with lendWait := m.bnd.lendWait ++ [r] } } := by
  simp [Mod.lendIn, h, ha]

theorem Mod.lendIn_acts (h : m.base.anyKeystone = true) (ha : m.base.armed .unlendSettle = false) :
    m.lendIn r =
      if r.unlend = true then m.startUnlend r else if m.lendRefused r = true then m.lendAnswer r true else m.doLend r := by
  simp [Mod.lendIn, h, ha]

end

end Sys2Proof.Machine

/-- Settles O50: each source of a wake event by what the module's sleep makes of it. -/
theorem sleepAndWakeCommands : Obligations.SleepAndWakeCommands := by
  intro s m
  refine ⟨fun h => ?entry, fun h => ⟨?timerUnset, ?timerSet, ?noPort, fun p hp => ?port, fun p hr hh => ?host⟩, fun h => ?command⟩
  case entry =>
    rw [exec_of_coreIs h rfl]
    refine ⟨fun hm => by rw [Mod.m2Entry_refused hm], fun hm ha => by rw [Mod.m2Entry_asks hm ha], fun hm ha => ?_⟩
    simp only [Mod.m2Entry, hm, ha, Bool.not_true, Bool.false_eq_true, if_false]
  case timerUnset => exact fun h0 => by rw [exec_of_dieIs h rfl, Mod.wakeTimer_unset h0]
  case timerSet => exact fun h0 hm => by rw [exec_of_dieIs h rfl, Mod.wakeTimer_set h0 hm]
  case noPort => exact fun hp => by rw [exec_of_dieIs h rfl, Mod.heldPortWake_noPort hp]
  case port =>
    rw [exec_of_dieIs h rfl, Mod.heldPortWake_port hp]
    exact ⟨fun hpm => by rw [if_pos hpm], fun hpm => by rw [if_neg hpm]⟩
  case host =>
    rw [exec_of_dieIs h rfl, Mod.hostTraining_host hr hh]
    exact ⟨fun hup => by rw [if_neg (ne_true_of_eq_false hup)], fun hup => by rw [if_pos hup]⟩
  case command =>
    rw [exec_of_powerIs h rfl, Mod.withPec, if_pos rfl]
    exact ⟨fun h0 => by rw [Mod.wakeEvent_awake h0], fun h2 => by rw [Mod.wakeEvent_asleep h2],
      fun h1 ht => by rw [Mod.wakeEvent_early h1 ht], fun h1 ht => by rw [Mod.wakeEvent_late h1 ht]⟩

/-- Settles O46: each message by the lend, the bond's role or the entry that it speaks of. -/
theorem messageCommands : Obligations.MessageCommands := by
  intro s m src port
  refine ⟨fun l h hl he => ?settled, fun h hl => ?notLent, fun v h hl => ?lent, fun set h => ?reset, fun sleeper h => ?wake,
    fun cause origin header h => ?report, fun i h => ?park, fun r h => ?lend⟩
  case settled =>
    intro _ _ hw hs
    rw [exec_of_coreDue h rfl, Mod.unlendEnd_single hl he rfl hw hs]
  case notLent =>
    exact ⟨fun level => by rw [exec_of_coreIs h rfl, Mod.alertIn_notLent hl],
      fun a b c => by rw [exec_of_coreIs h rfl, Mod.linkStateIn_notLent hl],
      fun pg => by rw [exec_of_coreIs h rfl, Mod.powerGoodIn_notLent hl]⟩
  case lent =>
    exact ⟨fun level => by rw [exec_of_coreIs h rfl, Mod.alertIn_lent hl],
      fun a b c => by rw [exec_of_coreIs h rfl, Mod.linkStateIn_lent hl],
      fun pg => by rw [exec_of_coreIs h rfl, Mod.powerGoodIn_lent hl]⟩
  case reset =>
    rw [exec_of_coreIs h rfl]
    exact ⟨fun hb => by rw [Mod.resetReqIn_borrower hb], fun hb => by rw [Mod.resetReqIn_stranger hb]⟩
  case wake =>
    rw [exec_of_coreIs h rfl]
    exact ⟨fun hk => by rw [Mod.wakeReq_notKeystone hk], fun hk hs => by rw [Mod.wakeReq_keystone hk hs]⟩
  case report =>
    rw [exec_of_coreIs h rfl]
    exact ⟨fun hv => by rw [Mod.errIn_more cause.isLt origin.isLt hv]; rfl,
      fun hv => by rw [Mod.errIn_first cause.isLt origin.isLt src.isLt hv]; rfl⟩
  case park =>
    refine ⟨exec_park h src _, exec_park h src _, fun st bytes detail => exec_park h src _, exec_park h src _, exec_park h src _,
      fun raw => exec_park h src _, fun hn => by rw [exec_park h, Mod.parkIn_refuse_unknown _ hn], fun e he => ?_⟩
    rw [exec_park h, Mod.parkIn_refuse _ he]
    exact ⟨fun hr => by rw [if_pos hr], fun hr => by rw [if_neg (ne_true_of_eq_false hr)]⟩
  case lend =>
    rw [exec_of_coreIs h rfl]
    refine ⟨fun hk => by rw [Mod.lendIn_notKeystone hk], fun hk => ⟨fun ha => by rw [Mod.lendIn_waits hk ha], fun ha => ?_⟩⟩
    rw [Mod.lendIn_acts hk ha]
    exact ⟨fun hu => by rw [if_pos hu], fun hu hr => by rw [if_neg (ne_true_of_eq_false hu), if_pos hr],
      fun hu hr => by rw [if_neg (ne_true_of_eq_false hu), if_neg (ne_true_of_eq_false hr)]⟩

namespace Sys2Proof.Machine

/-! ### Ports and a partition's reset (R35, R95, R214, R217, R219, R221, R222, R332, R365) -/

section
variable {m : Mod} {f : Mod → Mod}

theorem Mod.onDie_live (hd : m.pl.dieOn = true) (hs : m.base.stage ≠ 8) : m.onDie f = f m := by
  simp [Mod.onDie, hd, hs]

theorem Mod.onCore_live (hc : m.base.coreOn = true) (hd : m.pl.dieOn = true) (hs : m.base.stage ≠ 8) : m.onCore f = f m := by
  simp [Mod.onCore, hc, hd, hs]

end

@[simp] theorem Base.bumpBy_now (b : Base) (a n : Nat) : (b.bumpBy a n).now = b.now := by
  simp only [Base.bumpBy, Base.addCount]
  split
  · rw [Base.wr_now]
  · cases wrapEvent a with
    | none => rw [Base.wr_now, Base.wr_now]
    | some e => rw [Base.raise_now, Base.wr_now, Base.wr_now]

section
variable {m : Mod} {p : Nat}

/-- An analysis port's link shows no link registers to a host and holds no shelf. -/
theorem Mod.portUp_analysis {l : LinkUp} (hr : m.base.portRole p = 3) (hup : m.base.linkUp p = false) :
    m.portUp p l =
      let a := Reg.PRT_STATUS p
      let rate := min l.rate 5
      let b := (((m.base.wr a F.PRT_STATUS_link_up 1).wr a F.PRT_STATUS_width (min l.width 16)).wr a F.PRT_STATUS_rate rate).wr a
        F.PRT_STATUS_flit (b2n (l.flit || rate == 5))
      let n := ({ m with base := (b.wr a F.PRT_STATUS_pm 0).setLanes p (rate + 1) } : Mod).trained p l
      let b := { n.base with released := n.base.released.filter (fun q => q != p) }
      let b := (b.raise (b.portEv p 3 0)).restartL1 p
      (List.range 3).foldl (fun (x : Mod) v => x.advertise p v l.scaled) { n with base := b } := by
  simp [Mod.portUp, hr, hup]

theorem Mod.portDown_down (h : m.base.linkUp p = false) : m.portDown p = m := by
  simp [Mod.portDown, h]

theorem Mod.portDown_analysis (hr : m.base.portRole p = 3) (hup : m.base.linkUp p = true) : m.portDown p = m.linkGone p := by
  simp [Mod.portDown, hr, hup]

theorem Mod.portDown_upstream (hr : m.base.portRole p = 1) (hup : m.base.linkUp p = true) :
    m.portDown p =
      let n := m.linkGone p
      ({ n with base := n.base.raise (n.base.portEv p 2 1) } : Mod).upstreamReset (n.base.portPart p) := by
  simp [Mod.portDown, hr, hup]

theorem Base.portFn_shelf {b : Base} (hr : b.portRole p = 2) : b.portFn p = 24 + p := by
  simp [Base.portFn, hr]

/-- Has the host enabled DPC for this error of shelf port `p`, and not masked it (R217)? -/
def Base.dpcWants (b : Base) (p bit : Nat) : Bool :=
  !bitOf (b.cfg (24 + p) 0x108) bit &&
    (b.cfg (24 + p) 0x2A4 / 2 ^ 16 % 4 == 2 || (b.cfg (24 + p) 0x2A4 / 2 ^ 16 % 4 == 1 && bitOf (b.cfg (24 + p) 0x10C) bit))

theorem Base.dpcWants_eq_false {b : Base} {bit : Nat}
    (h : b.cfg (24 + p) 0x2A4 / 2 ^ 16 % 4 = 0 ∨ (b.cfg (24 + p) 0x2A4 / 2 ^ 16 % 4 = 1 ∧ bitOf (b.cfg (24 + p) 0x10C) bit = false) ∨
      bitOf (b.cfg (24 + p) 0x108) bit = true) : b.dpcWants p bit = false := by
  unfold Base.dpcWants
  rcases h with hoff | ⟨hfatal, hnot⟩ | hmask
  · rw [hoff]; simp
  · rw [hfatal, hnot]; simp
  · rw [hmask]; rfl

theorem Base.dpcWants_eq_true {b : Base} {bit : Nat}
    (h : b.cfg (24 + p) 0x2A4 / 2 ^ 16 % 4 = 2 ∨ (b.cfg (24 + p) 0x2A4 / 2 ^ 16 % 4 = 1 ∧ bitOf (b.cfg (24 + p) 0x10C) bit = true))
    (hmask : bitOf (b.cfg (24 + p) 0x108) bit = false) : b.dpcWants p bit = true := by
  unfold Base.dpcWants
  rcases h with hall | ⟨hfatal, hit⟩
  · rw [hall, hmask]; rfl
  · rw [hfatal, hit, hmask]; rfl

/-- The error is reported, and triggers DPC where the host wants it. -/
theorem Mod.linkError_shelf (hr : m.base.portRole p = 2) (bit : Nat) (hdr : List Nat) :
    m.linkError p bit hdr =
      let n : Mod := { m with base := m.base.portErr p bit 1 hdr }
      if n.base.portRole p == 2 && m.base.dpcWants p bit then n.dpcTrigger p 0 0 else n := by
  rw [Mod.linkError, Base.portFn_shelf hr]
  simp only [Base.dpcWants, Bool.and_assoc]
  rfl

theorem Mod.dpcTrigger_contains (hr : m.base.portRole p = 2) (hon : m.base.cfg (24 + p) 0x2A4 / 2 ^ 16 % 4 ≠ 0)
    (hc : m.base.contained p = false) (reason ext : Nat) :
    m.dpcTrigger p reason ext = ({ m with base := m.base.dpcStatus p reason ext } : Mod).containPort p 0 := by
  have hdpc : m.base.dpcOn p = true := bne_iff_ne.2 hon
  simp [Mod.dpcTrigger, hr, hdpc, hc]

/-- With neither its interrupt nor its correctable message enabled, a trigger shows in the status alone. -/
theorem Base.dpcStatus_silent {b : Base} (hi : bitOf (b.cfg (24 + p) 0x2A4) 19 = false) (hm : bitOf (b.cfg (24 + p) 0x2A4) 20 = false) :
    b.dpcStatus p 0 0 =
      b.setCfg (24 + p) 0x2A8 (b.cfg (24 + p) 0x2A8 / 2 ^ 7 * 2 ^ 7 + 1 + 2 ^ 3 * b2n (bitOf (b.cfg (24 + p) 0x2A8) 3)) := by
  simp [Base.dpcStatus, hi, hm]

theorem Mod.l1Expiry_enters (hm : m.mayL1 p = true) (hs : m.base.isSet (Reg.PRT_CFG p) F.PRT_CFG_l1ss = false) :
    m.l1Expiry p =
      { m with base := ((m.base.wr (Reg.PRT_STATUS p) F.PRT_STATUS_pm 1).bump (Reg.PRT_CNT p 7)).emit (.l1Entry p),
               sw := { m.sw with idleAt := tset m.sw.idleAt p m.base.now } } := by
  simp [Mod.l1Expiry, hm, hs, Base.bump]

theorem Mod.l1Expiry_waits (hm : m.mayL1 p = false) : m.l1Expiry p = { m with base := m.base.restartL1 p } := by
  simp [Mod.l1Expiry, hm]

theorem Mod.perstUp_trains {k : Nat} (hp : m.base.upstreamPort k = some p) (hup : m.base.linkUp p = false)
    (hs : 4 ≤ m.base.rd Reg.CLK_STATUS F.CLK_STATUS_stage) : m.perstUp k = { m with base := m.base.trainPort p } := by
  simp [Mod.perstUp, hp, hup, hs]

end

theorem State.next_ends_congr (s : State) {m n : Mod} (h : m = n) : (.next (s.ends m) : Answer) = .next (s.ends n) := h ▸ rfl

/-- The module with these partitions' pins HOST_PERST_k# high. -/
def Mod.setHostReset (m : Mod) (l : List Nat) : Mod := { m with pl := { m.pl with hostReset := l } }

section
variable {s : State} {m : Mod} {k : Fin 8} (h : s.powerIs m) (hd : m.pl.dieOn = true) (hs : m.base.stage ≠ 8)
include h hd hs

theorem exec_hostPerstAssert (ha : m.base.perstActs k.val = true) :
    exec (.hostPerstAssert k) s =
      let low := m.setHostReset (m.pl.hostReset.filter (fun x => x != k.val))
      let held := m.base.heldPort.isSome && m.base.heldPort == m.base.upstreamPort k.val
      .next (s.ends ((if held then low.wakeEvent 1 else low).onCore (fun m => m.perstDown k.val))) := by
  rw [exec_of_powerIs h rfl]
  change Host.Outcome.next (s.ends ((m.setHostReset _).onDie _)) = _
  rw [Mod.onDie_live (by exact hd) (by exact hs)]
  exact State.next_ends_congr s (if_neg (by simp [Mod.setHostReset, ha]))

theorem exec_hostPerstDeassert (hc : m.base.coreOn = true) (ha : m.base.perstActs k.val = true) :
    exec (.hostPerstDeassert k) s =
      .next (s.ends ((m.setHostReset (m.pl.hostReset.filter (fun x => x != k.val) ++ [k.val])).perstUp k.val)) := by
  rw [exec_of_powerIs h rfl]
  change Host.Outcome.next (s.ends ((m.setHostReset _).onCore _)) = _
  rw [Mod.onCore_live (by exact hc) (by exact hd) (by exact hs)]
  exact State.next_ends_congr s (if_pos ha)

end

end Sys2Proof.Machine

/-- Settles O40: links by their port's role, an error by what the host enabled, and a reset's pin by what runs. -/
theorem portCommands : Obligations.PortCommands := by
  intro s m p
  refine ⟨fun l h => ?up, fun h => ⟨fun hr hup => ?upstreamDown, fun hr hup => ?analysisDown, fun hup => ?alreadyDown, ?loopback⟩,
    fun e h hr => ?dpc, fun h => ⟨fun hm hs => ?enters, fun hm => ?waits⟩, fun k h hd hs ha => ?perst⟩
  case up =>
    rw [exec_of_coreIs h rfl]
    exact ⟨fun hm hr hup => by rw [if_pos hm, Mod.portUp_analysis hr hup], fun hm => by rw [if_pos hm],
      fun hm => by rw [if_neg (ne_true_of_eq_false hm)]⟩
  case upstreamDown => rw [exec_of_coreIs h rfl, Mod.portDown_upstream hr hup]; rfl
  case analysisDown => rw [exec_of_coreIs h rfl, Mod.portDown_analysis hr hup]; rfl
  case alreadyDown => rw [exec_of_coreIs h rfl, Mod.portDown_down hup]; rfl
  case loopback => rw [exec_of_coreIs h rfl]; rfl
  case dpc =>
    rw [exec_of_coreIs h rfl, Mod.linkError_shelf hr]
    refine ⟨fun hq => by simp only [Base.dpcWants_eq_false hq, Bool.and_false, Bool.false_eq_true, if_false],
      fun ht hmask hn hon hc => ?_⟩
    dsimp only at hn ⊢
    rw [if_pos (by rw [hn, Base.dpcWants_eq_true ht hmask]; rfl),
      Mod.dpcTrigger_contains (by exact hn) (by exact hon) (by exact hc)]
    exact ⟨rfl, fun hi hmsg => by rw [Base.dpcStatus_silent hi hmsg]⟩
  case enters => rw [exec_of_coreDue h rfl, Mod.l1Expiry_enters hm hs]
  case waits => rw [exec_of_coreDue h rfl, Mod.l1Expiry_waits hm]
  case perst =>
    refine ⟨fun hc hh => ?_, fun hc hh hc' hd' hs' => ?_, fun q hc hq hup hst => ?_⟩
    · rw [exec_hostPerstAssert h hd hs ha, hh]
      exact State.next_ends_congr s (Mod.onCore_live (m := m.setHostReset _) hc hd hs)
    · rw [exec_hostPerstAssert h hd hs ha, hh]
      exact State.next_ends_congr s (Mod.onCore_live hc' hd' hs')
    · rw [exec_hostPerstDeassert h hd hs hc ha]
      exact State.next_ends_congr s (Mod.perstUp_trains (m := m.setHostReset _) hq hup hst)

namespace Sys2Proof.Machine

/-! ### A sleeper's signal: the lanes in use are counted anew (R284) -/

/-- Camtex port 0 has sent its wake pattern, and its lane 7 was disabled since its lanes were last counted. -/
def laneDisabledAsleep : State :=
  let b := ({ coreOn := true } : Base).wr Reg.CLK_STATUS F.CLK_STATUS_stage 6
  let b := b.wr (Reg.FAB_CFG 0) F.FAB_CFG_enable 1
  let b := (b.wr (Reg.SER_TILE_CFG 24) F.SER_TILE_CFG_family 1).wr (Reg.SER_TILE_STATUS 24) F.SER_TILE_STATUS_pll_lock 1
  { mod := { base := b.wr (Reg.SER_LANE_CFG (camLaneNo 0 7)) F.SER_LANE_CFG_disable 1, pl := { dieOn := true },
             cams := [{ k := 0, waking := 2, used := 255 }] } }

/-- The lanes in use of Camtex port `k` in the state that a command answers. -/
def usedAfter (k : Nat) : Answer → Option Nat
  | .next t => some (t.mod.cam k).used
  | _ => none

/-- The model counts them where the signal is seen: lane 7 is no longer in use. -/
theorem usedAfter_sleeperSignalDetect : usedAfter 0 (exec (.sleeperSignalDetect 0) laneDisabledAsleep) = some 127 := by
  decide +kernel

end Sys2Proof.Machine

/-- Refutes O42: a sleeper's signal counts the lanes in use anew, where the statement keeps the lanes last counted. With lane 7 of
port 0 disabled since, the model ends with lanes 0 to 6 in use and the statement with all eight. -/
theorem not_camtexTrainingCommands : ¬ Obligations.CamtexTrainingCommands := by
  intro h
  obtain ⟨-, -, -, -, -, -, -, -, -, -, -, -, hseen, -⟩ := h laneDisabledAsleep laneDisabledAsleep.mod.begun 0 0 0
  have hstated := hseen ⟨by decide +kernel, rfl⟩ (by decide +kernel) (by decide +kernel)
  have hused := usedAfter_sleeperSignalDetect
  rw [hstated] at hused
  exact absurd hused (by decide +kernel)
end

section
/-! PROOFS of the statements of spec/02_switch_core.md: a counter's two words (R61), the writes of the matcher, the buffer commit and the
meters (R44, R53, R68), the commands of the switch core (R40, R41, R51, R54, R59), the matching (R44), and the commands of recovery and of
counters (R302, R308, R309, R317, R319, R320). Before each statement stand the lemmas that say what the functions it speaks of do. -/

namespace Sys2Proof.Machine

/-! ### Counters are read (R61) -/

section
variable {s : State} {m : Mod} {w : Who} {off : Nat} {h : RegHit} {c : Instr}

theorem exec_of_reaches (hr : s.reaches w off 4 false m) (hc : exec c s = .next (s.run (fun m => m.rowRead w off false))) :
    exec c s = .next (s.ends
      { (m.readWord w off false).1 with
        base := (m.readWord w off false).1.base.emit (.readData w (BitVec.ofNat 64 (m.readWord w off false).2)) }) := by
  rw [hc, State.run_read hr]

theorem exec_of_writes {v : Nat} (hw : s.writes w off m h) (hp : off ≠ Reg.PRK_PEEK_IDX)
    (hc : exec c s = .next (s.run (fun m => m.rowWrite w off false v))) :
    exec c s = .next (s.ends (m.wordWrite w off h v)) := by
  rw [hc, State.run_writes_at hw v hp]

/-- Every bit of a counter of the index can be read. -/
theorem allRows_counter_wo : ∀ r ∈ allRows, isCounter r.name = true → r.wo = 0 := by
  decide +kernel

/-- No counter shows anything but its word. -/
theorem Mod.showWord_counter (hat : regAt off = some h) (hc : isCounter h.row.name = true) :
    m.showWord w off h = (m, (m.base.word off).toNat) := by
  have hwo := allRows_counter_wo h.row (regAt_row_mem hat) hc
  unfold Mod.showWord
  extract_lets b raw half i
  split
  case h_31 =>
    dsimp only [raw, b]
    rw [hwo, Nat.zero_shiftRight, Nat.zero_mod, Nat.sub_zero, Nat.and_two_pow_sub_one_of_lt_two_pow (BitVec.isLt _)]
  all_goals
    rename_i hn
    rw [hn] at hc
    exact absurd hc Bool.false_ne_true

theorem ne_of_isCounter {n n' : RegName} (hc : isCounter n = true) (hn : isCounter n' = false) : (n == n') = false := by
  refine beq_eq_false_iff_ne.2 ?_
  rintro rfl
  exact absurd hc (ne_true_of_eq_false hn)

/-- A read of a counter that visibility lets through. -/
theorem Mod.readWord_counter (hat : regAt off = some h) (hc : isCounter h.row.name = true)
    (hs : m.base.sight w off h = .full ∨ m.base.sight w off h = .readOnly) (wide : Bool) :
    m.readWord w off wide =
      if wide then (m, (m.base.word off).toNat)
      else if h.word = 0 then
        ({ m with base := { m.base with latches := m.base.latches.set (off + 4) (m.base.word (off + 4)) } }, (m.base.word off).toNat)
      else match m.base.latches.lookup off with
        | some v => ({ m with base := { m.base with latches := m.base.latches.filter (fun x => x.1 != off) } }, v.toNat)
        | none => (m, (m.base.word off).toNat) := by
  simp only [Mod.readWord, hat, ne_of_isCounter hc (n' := .SLC_RSV_LR) rfl, ne_of_isCounter hc (n' := .SLC_RSV_SC) rfl, hc,
    Mod.showWord_counter hat hc, Bool.true_and]
  rcases hs with hs | hs <;> rw [hs] <;> cases wide <;> rfl

theorem Mod.readAccess_wide (hr : s.reaches w off 8 false m) :
    s.mod.begun.readAccess w off 8 none =
      let lo := m.readWord w off true
      let hi := lo.1.readWord w (off + 4) true
      (hi.1, some (lo.2 % 2 ^ 32 + 2 ^ 32 * hi.2)) := by
  obtain ⟨hl, rfl⟩ := hr
  rw [Mod.readAccess, State.reach_go hl]
  rfl

end

/-! ### The matcher, the buffer commit and the meters are written (R44, R53, R68) -/

section
variable {m : Mod} {w : Who} {off v : Nat} {h : RegHit}

theorem name_of_regAt {n : RegName} (hn : (regAt off).map (·.row.name) = some n) (hat : regAt off = some h) : h.row.name = n := by
  rw [hat, Option.map_some] at hn
  exact Option.some_inj.1 hn

theorem regAt_XBR_CTRL_name : (regAt Reg.XBR_CTRL).map (·.row.name) = some .XBR_CTRL := by
  decide +kernel

theorem regAt_BUF_COMMIT_name : (regAt Reg.BUF_COMMIT).map (·.row.name) = some .BUF_COMMIT := by
  decide +kernel

theorem Mod.wordWrite_XBR_CTRL (hn : h.row.name = .XBR_CTRL) : m.wordWrite w off h v = m.xbrWrite v := by
  unfold Mod.wordWrite
  rw [hn]

theorem Mod.wordWrite_BUF_COMMIT (hn : h.row.name = .BUF_COMMIT) : m.wordWrite w off h v = m.bufCommitWrite v := by
  unfold Mod.wordWrite
  rw [hn]

theorem Mod.bufCommitWrite_go (hgo : bitOf v 0 = true) (herr : bitOf v 2 = false)
    (hdone : m.base.isSet Reg.BUF_COMMIT F.BUF_COMMIT_done = true) :
    m.bufCommitWrite v = ({ m with base := m.base.wr Reg.BUF_COMMIT F.BUF_COMMIT_error 0 } : Mod).bufCommit.afterRelease := by
  simp [Mod.bufCommitWrite, hgo, herr, hdone]

/-- The cells that the staged minimums and the mirror pool take (R53). -/
def Base.stagedCells (b : Base) : Nat :=
  b.stagedMin.foldl (fun k x => k + x.2) 0 + b.rd Reg.BUF_MIRROR_POOL F.BUF_MIRROR_POOL_cells

theorem Mod.bufCommit_fits (hfit : m.base.stagedCells ≤ 262144) :
    m.bufCommit =
      let w : Switch := { m.sw with gmin := m.base.stagedMin, gMirror := m.base.rd Reg.BUF_MIRROR_POOL F.BUF_MIRROR_POOL_cells }
      { m with base := ((m.base.wr Reg.BUF_COMMIT F.BUF_COMMIT_done 0).arm .bufCommit us).mark (Reg.SCH_BUF_HWM 219)
                 F.SCH_BUF_HWM_mark w.sharedUse, sw := w } :=
  if_pos hfit

theorem Mod.bufCommit_misfits (hfit : 262144 < m.base.stagedCells) :
    m.bufCommit =
      { m with base := ((((m.base.wr Reg.BUF_COMMIT F.BUF_COMMIT_done 0).arm .bufCommit us).wr Reg.BUF_COMMIT
                 F.BUF_COMMIT_error 1).raise { group := 3, bit := 8 }) } :=
  if_neg (Nat.not_le.2 hfit)

/-- The registers of a meter (R67). -/
def RegName.ofMeter (n : RegName) : Bool := [.SCH_METER_CIR, .SCH_METER_PIR, .SCH_METER_CBS, .SCH_METER_PBS].contains n

theorem Mod.wordWrite_meter (hn : h.row.name.ofMeter = true) : m.wordWrite w off h v = m.meterWrite h.i1 off h v := by
  simp only [RegName.ofMeter, List.contains_iff_mem, List.mem_cons, List.not_mem_nil, or_false] at hn
  unfold Mod.wordWrite
  rcases hn with hn | hn | hn | hn <;> rw [hn]

/-- Where the last of a row's registers ends. -/
def RegRow.ends (r : RegRow) : Nat :=
  r.base + if r.s1 = 0 then (if r.s2 = 0 then 4 * r.words else r.s2 * r.n2) else r.s1 * r.n1

theorem RegRow.lt_ends_of_hit {r : RegRow} {a : Nat} (hh : r.hit a = some h) : a < r.ends := by
  unfold RegRow.hit at hh
  simp only [Option.ite_none_left_eq_some, Option.ite_none_right_eq_some] at hh
  obtain ⟨hlo, ⟨hi1, hi2, hd⟩, -⟩ := hh
  have hin : a - r.base < if r.s1 = 0 then (if r.s2 = 0 then 4 * r.words else r.s2 * r.n2) else r.s1 * r.n1 := by
    split_ifs at hi1 hi2 hd ⊢ with h1 h2
    · exact hd
    · rwa [Nat.div_lt_iff_lt_mul (Nat.pos_of_ne_zero h2), Nat.mul_comm] at hi2
    all_goals rwa [Nat.div_lt_iff_lt_mul (Nat.pos_of_ne_zero h1), Nat.mul_comm] at hi1
  unfold RegRow.ends
  omega

/-- A hit of a row with one index, whose registers stand `s1` apart. -/
theorem RegRow.hit_strided {r : RegRow} {a : Nat} (h1 : r.s1 ≠ 0) (h2 : r.s2 = 0) (hh : r.hit a = some h) :
    r.base ≤ a ∧ (a - r.base) % r.s1 < 4 * r.words ∧ h.i1 = (a - r.base) / r.s1 := by
  unfold RegRow.hit at hh
  simp only [h1, h2, if_false, if_true, Option.ite_none_left_eq_some, Option.ite_none_right_eq_some, Option.some.injEq] at hh
  obtain ⟨hlo, ⟨-, -, hd⟩, rfl⟩ := hh
  exact ⟨Nat.not_lt.1 hlo, hd, rfl⟩

/-- The rows of the scheduler's block end below the meters, or are the four of the meters, 16 bytes to a meter. -/
theorem rowsSCH_meter : ∀ r ∈ rowsSCH, r.ends ≤ 0x1410000 ∨
    (r.name.ofMeter = true ∧ r.s1 = 16 ∧ r.s2 = 0 ∧ r.words = 1 ∧ 0x1410000 ≤ r.base ∧ r.base < 0x1410010 ∧ r.base % 4 = 0) := by
  decide

theorem regAt_meter {i k : Nat} (hi : i < 4096) (hk : k < 4) (hat : regAt (Reg.SCH_METER_CIR i + 4 * k) = some h) :
    h.row.name.ofMeter = true ∧ h.i1 = i := by
  obtain ⟨a, ha⟩ : ∃ a, a = 0x1410000 + i * 0x10 + 4 * k := ⟨_, rfl⟩
  rw [show Reg.SCH_METER_CIR i + 4 * k = a from ha.symm] at hat
  have hblock : blockRows a = rowsSCH := by
    unfold blockRows
    iterate 9 rw [if_neg (by omega)]
    exact if_pos (by omega)
  obtain ⟨r, hr, hh⟩ := List.exists_of_findSome?_eq_some hat
  rcases rowsSCH_meter r (hblock ▸ hr) with hend | ⟨hn, h1, h2, hw, hlo, hhi, h4⟩
  · have := RegRow.lt_ends_of_hit hh
    omega
  · obtain ⟨hb, hd, hi1⟩ := RegRow.hit_strided (by omega) h2 hh
    rw [h1, hw] at hd
    rw [h1] at hi1
    exact ⟨RegRow.hit_row hh ▸ hn, by omega⟩

end

end Sys2Proof.Machine

open Sys2Proof Sys2Proof.Machine

/-- Settles O15: a read that reaches the decoder finds the counter's word, and latches where it is a 32-bit one. -/
theorem counterReadsLatchTheUpperWord : Obligations.CounterReadsLatchTheUpperWord := by
  intro s w off m h hat hc hs
  refine ⟨fun h0 hr => ?lower, fun v h1 hl hr => ?upper, fun h0 hat' hs' hr => ?wide⟩
  case lower =>
    rw [exec_of_reaches hr rfl, Mod.readWord_counter hat hc hs]
    simp only [h0, if_true, Bool.false_eq_true, if_false]
  case upper =>
    rw [exec_of_reaches hr rfl, Mod.readWord_counter hat hc hs]
    simp only [h1, hl, one_ne_zero, Bool.false_eq_true, if_false]
  case wide =>
    have hlo : m.readWord w off true = (m, (m.base.word off).toNat) := Mod.readWord_counter hat hc hs true
    have hhi : m.readWord w (off + 4) true = (m, (m.base.word (off + 4)).toNat) := Mod.readWord_counter hat' hc hs' true
    rw [Mod.readAccess_wide hr, hlo]
    dsimp only
    rw [hhi, Nat.mod_eq_of_lt (BitVec.isLt _)]

/-- Settles O18: the write reaches the register's own rule. -/
theorem switchCoreWrites : Obligations.SwitchCoreWrites := by
  intro s w m h v
  refine ⟨fun hw => ?matcher, fun hw hgo herr hdone => ?commit, fun i r hw => ?meter⟩
  case matcher =>
    have ⟨_, hat, _⟩ := hw
    rw [exec_of_writes hw (by decide) rfl, Mod.wordWrite_XBR_CTRL (name_of_regAt regAt_XBR_CTRL_name hat)]
    rfl
  case commit =>
    have ⟨_, hat, _⟩ := hw
    rw [exec_of_writes hw (by decide) rfl, Mod.wordWrite_BUF_COMMIT (name_of_regAt regAt_BUF_COMMIT_name hat),
      Mod.bufCommitWrite_go hgo herr hdone]
    exact ⟨fun hfit => by rw [Mod.bufCommit_fits hfit], fun hfit => by rw [Mod.bufCommit_misfits hfit]⟩
  case meter =>
    have ⟨_, hat, _⟩ := hw
    obtain ⟨hn, hi⟩ := regAt_meter i.isLt r.isLt hat
    have hp : Reg.SCH_METER_CIR i.val + 4 * r.val ≠ Reg.PRK_PEEK_IDX := by
      unfold Reg.SCH_METER_CIR Reg.PRK_PEEK_IDX
      omega
    rw [exec_of_writes hw hp rfl, Mod.wordWrite_meter hn, hi]
    rfl

namespace Sys2Proof.Machine

/-! ### One matching (R44) -/

theorem searchUp_eq_some {n start i : Nat} {p : Nat → Bool} (h : searchUp n start p = some i) : i < n ∧ p i = true := by
  obtain ⟨k, hk, hi⟩ := List.exists_of_findSome?_eq_some h
  dsimp only at hi
  split_ifs at hi with hp
  cases hi
  exact ⟨Nat.mod_lt _ (Nat.zero_lt_of_lt (List.mem_range.1 hk)), hp⟩

/-- The ingress that egress `e` grants (R44 step 2), with the pairs `ms` of earlier rounds. -/
def Mod.grantOf (m : Mod) (req : List (Nat × Nat)) (ms : List Match) (e : Nat) : Option Nat :=
  if ms.any (fun x => x.eg == e) then none
  else searchUp 42 (m.base.rd (Reg.XBR_PTR e) F.XBR_PTR_gptr) (fun i => !ms.any (fun x => x.ing == i) && req.contains (i, e))

/-- The grants of a round, as pairs of an ingress and an egress. -/
def Mod.grants (m : Mod) (req : List (Nat × Nat)) (ms : List Match) : List (Nat × Nat) :=
  (List.range 41).filterMap (fun e => (m.grantOf req ms e).map (fun i => (i, e)))

/-- Ingress `i` accepts one of the grants that it has (R44 step 3). -/
def Mod.accept (ms : List Match) (grants : List (Nat × Nat)) (round : Nat) (acc : Mod × List Match) (i : Nat) : Mod × List Match :=
  let (m, l) := acc
  if ms.any (fun x => x.ing == i) then acc
  else
    match searchUp 42 (m.base.rd (Reg.XBR_PTR i) F.XBR_PTR_aptr) (fun e => grants.contains (i, e)) with
    | none => acc
    | some e =>
      let b := if round = 1 then
        (m.base.wr (Reg.XBR_PTR e) F.XBR_PTR_gptr ((i + 1) % 42)).wr (Reg.XBR_PTR i) F.XBR_PTR_aptr ((e + 1) % 42)
        else m.base
      ({ m with base := b }, l ++ [⟨i, e, round⟩])

section
variable {m : Mod} {req : List (Nat × Nat)} {ms : List Match} {i e n : Nat}

theorem Mod.matchRound_eq (acc : Mod × List Match) :
    Mod.matchRound req n acc = (List.range 42).foldl (Mod.accept acc.2 (acc.1.grants req acc.2) n) acc := by
  unfold Mod.matchRound Mod.grants Mod.grantOf
  simp only [apply_ite (Option.map _), Option.map_none]
  rfl

theorem Mod.mem_grants : (i, e) ∈ m.grants req ms ↔ e < 41 ∧ m.grantOf req ms e = some i := by
  simp only [Mod.grants, List.mem_filterMap, List.mem_range, Option.map_eq_some_iff, Prod.mk.injEq]
  constructor
  · rintro ⟨_, he, _, hg, rfl, rfl⟩
    exact ⟨he, hg⟩
  · rintro ⟨he, hg⟩
    exact ⟨e, he, i, hg, rfl, rfl⟩

/-- Every grant meets a request of an ingress and an egress that no earlier round has paired. -/
theorem Mod.grantOf_eq_some (h : m.grantOf req ms e = some i) :
    i < 42 ∧ (i, e) ∈ req ∧ ∀ p ∈ ms, p.ing ≠ i ∧ p.eg ≠ e := by
  unfold Mod.grantOf at h
  split_ifs at h with heg
  obtain ⟨hi, hp⟩ := searchUp_eq_some h
  simp only [Bool.and_eq_true, Bool.not_eq_true', List.any_eq_false, beq_iff_eq, List.contains_iff_mem] at hp
  simp only [List.any_eq_true, beq_iff_eq, not_exists, not_and] at heg
  exact ⟨hi, hp.2, fun p hpm => ⟨hp.1 p hpm, heg p hpm⟩⟩

theorem Mod.accept_cases (gr : List (Nat × Nat)) (acc : Mod × List Match) :
    (Mod.accept ms gr n acc i).2 = acc.2 ∨ ∃ e, (i, e) ∈ gr ∧ (Mod.accept ms gr n acc i).2 = acc.2 ++ [⟨i, e, n⟩] := by
  unfold Mod.accept
  dsimp only
  by_cases hi : ms.any (fun x => x.ing == i) = true
  · exact .inl (by rw [if_pos hi])
  · rw [if_neg hi]
    cases hs : searchUp 42 (acc.1.base.rd (Reg.XBR_PTR i) F.XBR_PTR_aptr) (fun e => gr.contains (i, e)) with
    | none => exact .inl rfl
    | some e => exact .inr ⟨e, List.contains_iff_mem.1 (searchUp_eq_some hs).2, rfl⟩

/-- The pairs of a matching that has come through `n` rounds. -/
structure OneToOne (req : List (Nat × Nat)) (n : Nat) (l : List Match) : Prop where
  ing : (l.map Match.ing).Nodup
  eg : (l.map Match.eg).Nodup
  pair : ∀ p ∈ l, p.ing < 42 ∧ p.eg < 41 ∧ (p.ing, p.eg) ∈ req ∧ 1 ≤ p.round ∧ p.round ≤ n

theorem OneToOne.succ {l : List Match} (h : OneToOne req n l) : OneToOne req (n + 1) l where
  ing := h.ing
  eg := h.eg
  pair p hp := by
    obtain ⟨hi, he, hr, hlo, hhi⟩ := h.pair p hp
    exact ⟨hi, he, hr, hlo, hhi.trans n.le_succ⟩

/-- A grant whose ingress and egress are unpaired makes one more pair. -/
theorem OneToOne.append {l : List Match} (h : OneToOne req (n + 1) l) (hg : (i, e) ∈ m.grants req ms)
    (hnew : ∀ p ∈ l, p.ing ≠ i ∧ p.eg ≠ e) : OneToOne req (n + 1) (l ++ [⟨i, e, n + 1⟩]) := by
  obtain ⟨he, hgrant⟩ := Mod.mem_grants.1 hg
  obtain ⟨hi, hr, -⟩ := Mod.grantOf_eq_some hgrant
  refine ⟨?_, ?_, fun p hp => ?_⟩
  · rw [List.map_append, List.map_singleton, ← List.concat_eq_append]
    exact h.ing.concat (by simpa using fun p hp => (hnew p hp).1)
  · rw [List.map_append, List.map_singleton, ← List.concat_eq_append]
    exact h.eg.concat (by simpa using fun p hp => (hnew p hp).2)
  · rcases List.mem_append.1 hp with hp | hp
    · exact h.pair p hp
    · obtain rfl := List.mem_singleton.1 hp
      exact ⟨hi, he, hr, Nat.succ_pos n, le_rfl⟩

/-- The ingresses `is` have still to accept; the pairs of this round are grants that others have accepted. An egress grants one
ingress, so that no egress is paired twice. -/
theorem OneToOne.accept_foldl (is : List Nat) (his : is.Nodup) (acc : Mod × List Match) (h : OneToOne req (n + 1) acc.2)
    (hold : ∀ p ∈ acc.2, p ∈ ms ∨ ((p.ing, p.eg) ∈ m.grants req ms ∧ p.ing ∉ is)) :
    OneToOne req (n + 1) (is.foldl (Mod.accept ms (m.grants req ms) (n + 1)) acc).2 := by
  induction is generalizing acc with
  | nil => exact h
  | cons i is ih =>
    obtain ⟨hi, his⟩ := List.nodup_cons.1 his
    rw [List.foldl_cons]
    rcases Mod.accept_cases (ms := ms) (n := n + 1) (i := i) (m.grants req ms) acc with hsame | ⟨e, hg, hnew⟩
    · refine ih his _ (hsame ▸ h) (fun p hp => ?_)
      rw [hsame] at hp
      exact (hold p hp).imp_right (fun x => ⟨x.1, fun hin => x.2 (List.mem_cons_of_mem i hin)⟩)
    · have hgrant := Mod.mem_grants.1 hg
      have happ : ∀ p ∈ acc.2, p.ing ≠ i ∧ p.eg ≠ e := by
        intro p hp
        rcases hold p hp with hms | ⟨hpg, hpi⟩
        · exact (Mod.grantOf_eq_some hgrant.2).2.2 p hms
        · have hne : p.ing ≠ i := fun hpe => hpi (hpe ▸ List.mem_cons_self)
          refine ⟨hne, fun hpe => hne ?_⟩
          have hp2 := (Mod.mem_grants.1 hpg).2
          rw [hpe, hgrant.2] at hp2
          exact (Option.some_inj.1 hp2).symm
      refine ih his _ (hnew ▸ h.append hg happ) (fun p hp => ?_)
      rw [hnew] at hp
      rcases List.mem_append.1 hp with hp | hp
      · exact (hold p hp).imp_right (fun x => ⟨x.1, fun hin => x.2 (List.mem_cons_of_mem i hin)⟩)
      · obtain rfl := List.mem_singleton.1 hp
        exact .inr ⟨hg, hi⟩

/-- A round keeps the matching one to one. -/
theorem OneToOne.matchRound {acc : Mod × List Match} (h : OneToOne req n acc.2) :
    OneToOne req (n + 1) (Mod.matchRound req (n + 1) acc).2 := by
  rw [Mod.matchRound_eq]
  exact OneToOne.accept_foldl (List.range 42) List.nodup_range acc h.succ (fun p hp => .inl hp)

theorem oneToOne_rounds (m : Mod) (req : List (Nat × Nat)) (n : Nat) :
    OneToOne req n ((List.range n).foldl (fun acc r => Mod.matchRound req (r + 1) acc) (m, [])).2 := by
  induction n with
  | zero => exact ⟨List.nodup_nil, List.nodup_nil, fun p hp => absurd hp List.not_mem_nil⟩
  | succ n ih =>
    rw [List.range_succ, List.foldl_append]
    exact ih.matchRound

end

end Sys2Proof.Machine

/-- Settles O59, by induction on the rounds: a round pairs what earlier rounds left, and an egress grants one ingress. -/
theorem matchingsAreOneToOne : Obligations.MatchingsAreOneToOne := by
  intro m req rounds
  have h := oneToOne_rounds m req rounds
  exact ⟨h.ing, h.eg, h.pair⟩

namespace Sys2Proof.Machine

/-! ### Frames come in and go out (R40, R51, R54, R59, R65) -/

section
variable {m : Mod} {p : Nat} {t : Tlp} {credit : Frame → Bool}

/-- An analysis port discards what arrives (R59). -/
theorem Mod.tlpReceive_analysis (ha : m.admits p = true) (hr : m.base.portRole p = 3) :
    m.tlpReceive p t .good = { m with base := m.base.bump (Reg.PRT_CNT p 1) } := by
  simp [Mod.tlpReceive, ha, hr]

/-- A frame that the link layer rejects is gone (R40). -/
theorem Mod.tlpReceive_rejected {x : LinkCheck} {e : Nat} (ha : m.admits p = true)
    (hr : m.base.portRole p = 1 ∨ m.base.portRole p = 2) (hx : linkCheckBit x = some e) :
    m.tlpReceive p t x = { m with base := m.base.portCor p e } := by
  rcases hr with hr | hr <;> simp [Mod.tlpReceive, ha, hr, hx]

/-- A frame that its sender had credit for, of a size that the port takes and to no multicast group, goes on (R40, R51). -/
theorem Mod.tlpReceive_unicast (ha : m.admits p = true) (hr : m.base.portRole p = 1 ∨ m.base.portRole p = 2)
    (hh : 0 < (m.sw.credit p (tlpVc t)).hdrOut) (hd : cdiv (tlpPadded t).length 16 ≤ (m.sw.credit p (tlpVc t)).dataOut)
    (hn : (tlpPadded t).length ≤ 1024)
    (hg : (((m.base.occ 0x200 p none 1).occ 0x201 p none (tlpBytes t)).restartL1 p).mcGroup p t = none) :
    m.tlpReceive p t .good =
      let n : Mod := { m with base := ((m.base.occ 0x200 p none 1).occ 0x201 p none (tlpBytes t)).restartL1 p,
                              sw := m.sw.spendCredit p (tlpVc t) (tlpPadded t).length false }
      (if m.base.portRole p = 1 then n.fromHost p t else n.fromShelf p t).releaseCredit p (tlpVc t) := by
  rcases hr with hr | hr <;>
    simp [Mod.tlpReceive, ha, hr, linkCheckBit, Nat.pos_iff_ne_zero.1 hh, Nat.not_lt.2 hd, Nat.not_lt.2 hn, hg]

theorem Mod.sendPcie_disposes {d : Bool} {f : Frame} (hu : m.base.undeliverable p = some d) (ho : m.sw.oldestAt p = some f) :
    m.sendPcie p credit = m.dispose p f d := by
  simp only [Mod.sendPcie, hu, ho]

theorem Mod.sendPcie_picks {n : Mod} {q : Nat} {f : Frame} (hu : m.base.undeliverable p = none) (hh : m.hostHeld p = none)
    (hp : m.pick p credit = (n, some (q, f))) :
    m.sendPcie p credit =
      let n := (n.accountSend p q f).tap f p true
      let x := n.sw.dequeue p f.id
      ({ n with base := n.base.emit (.frame p (n.base.mcOverlay p f).marked),
                sw := if n.base.portRole p == 2 && f.vc == 1 && decide (f.src < 64) then
                  { x with forwarded := x.forwarded ++ [(p, f)] } else x } : Mod).dropRef f.id := by
  simp only [Mod.sendPcie, hu, hh, hp]

end

section
variable {s : State} {m : Mod} {p : Fin 64} (a : PartnerCredit)

/-- A port that is not Camtex sends as PCI Express does. -/
theorem exec_egressSend_pcie (h : s.coreIs m) (hr : m.base.portRole p.val ≠ 4) :
    exec (.egressSend p a.p a.np a.cpl) s = .next (s.ends (m.sendPcie p.val (partnerCredit a))) := by
  rw [exec_of_coreIs h rfl]
  simp only [beq_eq_false_iff_ne.2 hr, Bool.false_eq_true, if_false]

theorem exec_egressSend_camtex {k : Nat} (h : s.coreIs m) (hr : m.base.portRole p.val = 4)
    (hk : (List.range 8).find? (fun k => m.base.camPort k == some p.val) = some k) :
    exec (.egressSend p a.p a.np a.cpl) s = .next (s.ends (m.sendCam k p.val)) := by
  rw [exec_of_coreIs h rfl]
  simp only [hr, hk, BEq.rfl, if_true]

end

/-! ### An ECC error in a stored frame (R41) -/

section
variable {m : Mod} {id : Nat} {f : Frame}

theorem Mod.eccError_data (hf : m.sw.frame id = some f) :
    m.eccError id .data =
      { m with base := (m.base.bump Reg.BUF_ECC_UE).raise { group := 3, bit := 1, sev := 1 },
               sw := m.sw.setFrame { f with poison := true } } := by
  simp only [Mod.eccError, hf]

theorem Mod.eccError_sideband (hf : m.sw.frame id = some f) :
    m.eccError id .sideband =
      let x := m.sw.setFrame { f with errFrame := true, refs := 1, dstXp := 40, dstSub := 0 }
      { m with base := (m.base.bump Reg.BUF_ECC_UE).raise { group := 3, bit := 1, sev := 1 },
               sw := { x with xfers := x.xfers.filter (fun y => y.frame != id) ++ [{ frame := id, eg := 40, sub := 0 }],
                              egress := x.egress.filter (fun y => y.frame != id) } } := by
  simp only [Mod.eccError, hf]

end

end Sys2Proof.Machine

/-- Settles O28: each command finds the core running, and its function takes the branch that the case names. -/
theorem switchCommands : Obligations.SwitchCommands := by
  intro s m
  refine ⟨fun p t h ha => ⟨fun hr => ?analysis, fun hr => ⟨fun x e hx => ?rejected, fun hh hd hn hg => ?received⟩⟩, fun h => ?cell,
    fun id f h hf => ⟨?corrected, ?data, ?sideband⟩, fun h => ?commit,
    fun p a h hr => ⟨fun d f hu ho => ?disposed, fun n q f hu hh hp => ?sent⟩, fun p a k h hr hk => ?camtex, fun h => ⟨?meter, ?wheel⟩⟩
  case analysis => rw [exec_of_coreIs h rfl, Mod.tlpReceive_analysis ha hr]
  case rejected => rw [exec_of_coreIs h rfl, Mod.tlpReceive_rejected ha hr hx]
  case received => rw [exec_of_coreIs h rfl, Mod.tlpReceive_unicast ha hr hh hd hn hg]
  case cell => rw [exec_of_coreIs h rfl]
  case corrected => rw [exec_of_coreIs h rfl]; rfl
  case data => rw [exec_of_coreIs h rfl, Mod.eccError_data hf]
  case sideband => rw [exec_of_coreIs h rfl, Mod.eccError_sideband hf]
  case commit => rw [exec_of_coreDue h rfl]
  case disposed => rw [exec_egressSend_pcie a h hr, Mod.sendPcie_disposes hu ho]
  case sent => rw [exec_egressSend_pcie a h hr, Mod.sendPcie_picks hu hh hp]
  case camtex => rw [exec_egressSend_camtex a h hr hk]
  case meter => rw [exec_of_coreIs h rfl]; rfl
  case wheel => rw [exec_of_coreIs h rfl]; rfl

namespace Sys2Proof.Machine

/-! ### Storms and watchdogs (R302, R308, R309) -/

section
variable {m : Mod} {b : Base} {g i p e c : Nat}

theorem Base.stormEnd_suppressed (h : (b.storm g i).suppressed = true) :
    b.stormEnd g i =
      ({ b with now := max b.now ((b.storm g i).last + b.stormWindow) } : Base).setStorm { b.storm g i with suppressed := false } := by
  simp [Base.stormEnd, h]

theorem Base.stormEnd_heard (h : (b.storm g i).suppressed = false) : b.stormEnd g i = b := by
  simp [Base.stormEnd, h]

/-- An engine that has work, with nothing of it out, restarts; the third recovery in time holds it. -/
theorem Mod.queueWatchdog_restarts (hrun : m.engineRuns p = true) (hout : m.qe.turns.any (fun t => t.part == p) = false)
    (hwork : m.queueWork p = true) :
    m.queueWatchdog p =
      let n := m.restartQueueEngine p
      let r := recoverUnit n.qe.recovered p n.base.now
      let b := n.base.raise { group := 0, bit := 3, sev := 1 }
      { n with base := if r.2 then b.raise { group := 0, bit := 5, sev := 1 } else b,
               qe := { n.qe with recovered := r.1, engineHeld := if r.2 then n.qe.engineHeld ++ [p] else n.qe.engineHeld } } := by
  simp [Mod.queueWatchdog, hrun, hout, hwork]

theorem Mod.parkWatchdog_restarts
    (hwork : m.prk.entries.any (fun x => engineOf x.shelf == e && (x.state == 1 || x.state == 6)) = true) (htags : m.tags = [])
    (hwait : m.sw.waiting.any (fun f => f.src == 64 + e) = false) (hpause : m.ingestPaused = false)
    (hheld : m.pl.parkHeld.contains e = false) (hm2 : m.pl.m2 = 0) :
    m.parkWatchdog e =
      let n := m.restartParkEngine e
      let r := recoverUnit n.pl.parkRec e n.base.now
      let b := n.base.raise { group := 0, bit := 4, sev := 1 }
      if r.2 then
        ((List.range 56).filter (fun n => n % 4 == e)).foldl (fun m n => m.failSlot n)
          { n with base := b.raise { group := 0, bit := 5, sev := 1 },
                   pl := { n.pl with parkRec := r.1, parkHeld := n.pl.parkHeld ++ [e] } }
      else { n with base := b, pl := { n.pl with parkRec := r.1 } } := by
  simp only [Mod.parkWatchdog, hwork, htags, hwait, hpause, hheld, hm2, List.any_nil, Bool.not_true, bne_self_eq_false, Bool.or_self,
    Bool.false_eq_true, if_false]

theorem Mod.coreWatchdog_restarts (hheld : m.pl.coreHeld.contains c = false) :
    m.coreWatchdog c =
      let r := recoverUnit m.pl.cores c m.base.now
      let held := if r.2 then m.pl.coreHeld ++ [c] else m.pl.coreHeld
      let b := m.base.raise { group := 0, bit := 2, sev := 1 }
      let b := if r.2 then b.raise { group := 0, bit := 5, sev := 1 } else b
      { m with base := if r.2 && decide (4 ≤ held.length) then b.raise { group := 0, bit := 9, sev := 2 } else b,
               pl := { m.pl with cores := r.1, coreHeld := held } } := by
  simp only [Mod.coreWatchdog, hheld, Bool.false_eq_true, if_false]

end

/-! ### Counts that wrap and sample points (R61, R317, R319, R320) -/

section
variable {b : Base} {off incr : Nat} {h : RegHit}

theorem Base.counterWrap_counter (hat : regAt off = some h) (hc : isCounter h.row.name = true) (h0 : h.word = 0) :
    b.counterWrap off incr = if 2 ^ 48 ≤ b.rd off F.CNT_count + incr then b.addCount off incr (wrapOf off) else b := by
  simp [Base.counterWrap, hat, hc, h0]

theorem Base.samplePoint_module {i : Nat} (hi : pmcAt off = some i) : b.samplePoint off = b.pmcSample i := by
  simp only [Base.samplePoint, hi]

theorem Base.samplePoint_virtual {i v : Nat} (hi : pmcAt off = none) (hv : vcAt off = some (i, v)) :
    b.samplePoint off = b.vcSample i v := by
  simp only [Base.samplePoint, hi, hv]

end

end Sys2Proof.Machine

/-- Settles O47: each unit by whether its recovery is the third in time, and a count by whether it passes 2^48 - 1. -/
theorem recoveryCommands : Obligations.RecoveryCommands := by
  intro s m
  refine ⟨fun g i h => ?storm, fun p h hrun hout hwork => ?queue, fun e h hwork htags hwait hpause hheld hm2 => ?park,
    fun c h hheld => ?core, fun w off wr h => ?access, fun off incr hit h hat hc h0 => ?wrap, fun off h => ?sample⟩
  case storm =>
    rw [exec_of_dieIs h rfl]
    exact ⟨fun hs => by rw [Base.stormEnd_suppressed hs], fun hs => by rw [Base.stormEnd_heard hs]⟩
  case queue =>
    rw [exec_of_coreIs h rfl, Mod.queueWatchdog_restarts hrun hout hwork]
    exact ⟨fun hr => by simp only [hr, Bool.false_eq_true, if_false], fun hr => by simp only [hr, if_true]⟩
  case park =>
    rw [exec_of_coreIs h rfl, Mod.parkWatchdog_restarts hwork htags hwait hpause hheld hm2]
    exact ⟨fun hr => by simp only [hr, Bool.false_eq_true, if_false], fun hr => by simp only [hr, if_true]⟩
  case core =>
    rw [exec_of_coreIs h rfl, Mod.coreWatchdog_restarts hheld]
    refine ⟨fun hr => ?goesOn, fun hr hn => ?held, fun hr hn => ?last⟩
    case goesOn => simp only [hr, Bool.false_eq_true, if_false, Bool.false_and]
    case held =>
      have hlen : ¬4 ≤ (m.pl.coreHeld ++ [c.val]).length := by rw [List.length_append, List.length_singleton]; omega
      simp only [hr, if_true, hlen, decide_false, Bool.and_false, Bool.false_eq_true, if_false]
    case last =>
      have hlen : 4 ≤ (m.pl.coreHeld ++ [c.val]).length := by rw [List.length_append, List.length_singleton]; omega
      simp only [hr, if_true, hlen, decide_true, Bool.and_true]
  case access => rw [exec_of_dieIs h rfl]; rfl
  case wrap =>
    rw [exec_of_dieIs h rfl, Base.counterWrap_counter hat hc h0]
    exact ⟨fun hn => by rw [if_pos hn], fun hn => by rw [if_neg (Nat.not_le.2 hn)]⟩
  case sample =>
    rw [exec_of_dieIs h rfl]
    exact ⟨fun i hi => by rw [Base.samplePoint_module hi], fun i v hi hv => by rw [Base.samplePoint_virtual hi hv]⟩
end

section
/-! PROOFS of the statement of spec/03_scheduling.md: the buckets of meters over ticks (R67). Before it stand the lemmas that say what
`Mod.passTicks` makes of one meter, and that capped increments, one after another, come to one capped sum. -/

namespace Sys2Proof.Machine

/-! ### Meters over ticks (R67) -/

/-- The cap of an increment makes no difference to the next one: where it cut, the bucket is full at both. -/
theorem min_add_capped (x s a cap : Nat) : min (min (x + s) cap + a) cap = min (x + (s + a)) cap := by
  omega

/-- Both buckets after one tick and after more: the cap is taken once, at the end. Over no tick at all it is not taken. -/
theorem foldl_capped_increments (x : Nat × Nat) (a capA c capC d : Nat) :
    (List.range (d + 1)).foldl (fun x _ => (min (x.1 + a) capA, min (x.2 + c) capC)) x =
      (min (x.1 + (d + 1) * a) capA, min (x.2 + (d + 1) * c) capC) := by
  induction d with
  | zero => simp
  | succ d ih =>
    rw [List.range_succ, List.foldl_append, ih]
    simp only [List.foldl_cons, List.foldl_nil, min_add_capped, Nat.succ_mul]

section
variable {m : Mod} {t : MeterSt} {d : Nat}

/-- The wheel moves queues only, and the fill of a meter that is off is the meter as it was. -/
theorem Mod.mem_passTicks_of_off (ht : t ∈ m.sw.meters) (hoff : m.base.meterOn t.m = false) : t ∈ (m.passTicks d).sw.meters := by
  cases d with
  | zero => exact ht
  | succ d =>
    refine List.mem_map.2 ⟨t, ht, ?_⟩
    simp [hoff]

theorem Mod.mem_passTicks_of_on (ht : t ∈ m.sw.meters) (hon : m.base.meterOn t.m = true) :
    { t with tc := min (t.tc + (d + 1) * m.base.cir t.m) (m.base.cbs t.m),
             tp := min (t.tp + (d + 1) * m.base.pir t.m) (m.base.pbs t.m) } ∈ (m.passTicks (d + 1)).sw.meters := by
  refine List.mem_map.2 ⟨t, ht, ?_⟩
  simp [hon]

end

end Sys2Proof.Machine

open Sys2Proof.Machine

/-- Settles O60: over no tick the buckets stand as they are, and over d + 1 ticks the model's one capped sum is what the increments give,
by induction on the ticks. -/
theorem metersFillToTheirSizes : Obligations.MetersFillToTheirSizes := by
  intro m d t ht
  refine ⟨fun hon => ?enabled, fun hoff => Mod.mem_passTicks_of_off ht hoff⟩
  case enabled =>
    cases d with
    | zero => exact ⟨t, ht, rfl, rfl⟩
    | succ d => exact ⟨_, Mod.mem_passTicks_of_on ht hon, rfl, (foldl_capped_increments (t.tc, t.tp) _ _ _ _ d).symm⟩
end

section
/-! PROOFS of the statements of spec/04_park_store.md: the writes of the park store's registers (R80, R89, R91), entries and admissions
(R81, R84, R86, R87), a shelf's wake and stop (R92 to R96), errors of memory (R85, R99, R299, R386), the stages of the boot (R100, R332),
and what park DRAM keeps (R78, R299). Before each statement stand the lemmas that say what the functions it speaks of do in each case. -/

open Sys2Proof Sys2Proof.Machine

namespace Sys2Proof.Machine

/-! ### A command acts on the module that it finds -/

section
variable {s : State} {m : Mod} {c : Instr} {f g : Mod → Mod}

/-- What a command does to the module that it finds is all that counts. -/
theorem State.run_congr (h : f s.mod.begun = g s.mod.begun) : s.run f = s.run g := by
  change ({ s with mod := if s.mod.begun.pl.powered then Mod.settle s.mod.begun (f s.mod.begun) else s.mod.begun } : State) = _
  rw [h]
  rfl

theorem exec_of_plinthDue {k : TimerKey} (h : s.plinthDue k m) (hc : exec c s = .next (s.run (fun m => m.onTimer k f))) :
    exec c s = .next (s.ends (f m)) := by
  obtain ⟨hpow, d, hdue, rfl⟩ := h
  rw [hc, State.run_onTimer s k d f hpow hdue]

theorem Mod.endTag_ok (m : Mod) (o : TagOwner) : m.endTag o .ok = m.freeTagOf o := rfl

end

/-! ### The park store's registers are written (R80, R89, R91, R92, R95) -/

theorem regAt_PRK_LEDGER_BUDGET_name : (regAt Reg.PRK_LEDGER_BUDGET).map (·.row.name) = some .PRK_LEDGER_BUDGET := by
  decide +kernel

theorem regAt_PRK_SHELF_CTL_name : ∀ n : Fin 56,
    (regAt (Reg.PRK_SHELF_CTL n.val)).map (fun h => (h.row.name, h.i1)) = some (.PRK_SHELF_CTL, n.val) := by
  decide +kernel

section
variable {s : State} {m : Mod} {w : Who} {off n v : Nat} {h : RegHit}

/-- The register is slot n's. -/
theorem name_of_regAt_PRK_SHELF_CTL {n : Fin 56} (hat : regAt (Reg.PRK_SHELF_CTL n.val) = some h) :
    h.row.name = .PRK_SHELF_CTL ∧ h.i1 = n.val := by
  have hn := regAt_PRK_SHELF_CTL_name n
  rw [hat, Option.map_some, Option.some_inj, Prod.mk.injEq] at hn
  exact hn

theorem PRK_SHELF_CTL_ne_PRK_PEEK_IDX (n : Fin 56) : Reg.PRK_SHELF_CTL n.val ≠ Reg.PRK_PEEK_IDX := by
  unfold Reg.PRK_SHELF_CTL Reg.PRK_PEEK_IDX
  omega

theorem Mod.wordWrite_PRK_LEDGER_BUDGET (hn : h.row.name = .PRK_LEDGER_BUDGET) :
    m.wordWrite w off h v = { m with base := m.base.codedWrite off h v, prk := { m.prk with planDue := true } } := by
  unfold Mod.wordWrite
  rw [hn]

theorem Mod.wordWrite_PRK_SHELF_CTL (hn : h.row.name = .PRK_SHELF_CTL) : m.wordWrite w off h v = m.shelfCtl h.i1 v := by
  unfold Mod.wordWrite
  rw [hn]

theorem Mod.wordWrite_PRK_PEEK_IDX (hn : h.row.name = .PRK_PEEK_IDX) : m.wordWrite w off h v = m.peek v := by
  unfold Mod.wordWrite
  rw [hn]

/-- A write of a slot's control register, by any row that makes it. -/
theorem exec_of_shelfWrites {c : Instr} {n : Fin 56} (hw : s.writes w (Reg.PRK_SHELF_CTL n.val) m h)
    (hc : exec c s = .next (s.run (fun m => m.rowWrite w (Reg.PRK_SHELF_CTL n.val) false v))) :
    exec c s = .next (s.ends (m.shelfCtl n.val v)) := by
  have ⟨_, hat, _⟩ := hw
  obtain ⟨hn, hi⟩ := name_of_regAt_PRK_SHELF_CTL hat
  rw [exec_of_writes hw (PRK_SHELF_CTL_ne_PRK_PEEK_IDX n) hc, Mod.wordWrite_PRK_SHELF_CTL hn, hi]

/-- The registers once slot n's pin is written: it holds off the idle hold, and its end starts the idle time anew (R92). -/
def Mod.pinWritten (m : Mod) (n v : Nat) : Base :=
  let a := Reg.PRK_SHELF_CTL n
  let b := m.base.wr a F.PRK_SHELF_CTL_pin (v % 2)
  if bitOf v 0 then b.disarm (.idleHold n)
  else if m.base.isSet a F.PRK_SHELF_CTL_pin && b.slotState n == 6 && !(m.prk.slot n).sweeping then
    b.arm (.idleHold n) (b.rd (Reg.PRK_SHELF_TIME n) F.PRK_SHELF_TIME_idle_hold_s * sec)
  else b

/-- Slot n's record once its control register is written: idle since its pin ended, and woken now for a live entry (R91). -/
def Mod.slotWritten (m : Mod) (n v : Nat) : Slot :=
  let x := m.prk.slot n
  let x := if m.base.isSet (Reg.PRK_SHELF_CTL n) F.PRK_SHELF_CTL_pin && !bitOf v 0 then { x with idleFrom := (m.pinWritten n v).now } else x
  if bitOf v 1 && !(m.prk.live n).isEmpty then { x with wakeNow := true } else x

theorem Mod.shelfCtl_eq : m.shelfCtl n v =
    let b := m.pinWritten n v
    { m with base := if bitOf v 2 && b.slotState n == 9 && !m.pl.parkHeld.contains (n % 4) then
               (b.setSlotState n 0).wr (Reg.PRK_SHELF_STATE n) F.PRK_SHELF_STATE_fails 0 else b,
             dirty := if bitOf v 2 then m.dirty ++ (m.base.slotPort n).toList else m.dirty,
             prk := { (m.prk.setSlot (m.slotWritten n v)) with planDue := true } } := rfl

theorem Mod.shelfCtl_noClear (hclear : bitOf v 2 = false) : m.shelfCtl n v =
    { m with base := m.pinWritten n v, prk := { (m.prk.setSlot (m.slotWritten n v)) with planDue := true } } := by
  simp only [Mod.shelfCtl_eq, hclear, Bool.false_and, Bool.false_eq_true, if_false]

theorem Mod.shelfCtl_clears (hclear : bitOf v 2 = true) (hst : (m.pinWritten n v).slotState n = 9)
    (hheld : m.pl.parkHeld.contains (n % 4) = false) : m.shelfCtl n v =
    { m with base := ((m.pinWritten n v).setSlotState n 0).wr (Reg.PRK_SHELF_STATE n) F.PRK_SHELF_STATE_fails 0,
             dirty := m.dirty ++ (m.base.slotPort n).toList,
             prk := { (m.prk.setSlot (m.slotWritten n v)) with planDue := true } } := by
  simp only [Mod.shelfCtl_eq, hclear, hst, hheld, beq_self_eq_true, Bool.not_false, Bool.and_self, if_true]

theorem Mod.peek_entry {e : Entry} (hgo : bitOf v 31 = true) (he : m.prk.entry (v % 2 ^ 22) = some e) : m.peek v =
    { m with base := ((List.range 16).foldl (fun b j => b.setWord (Reg.PRK_PEEK_DATA j) (BitVec.ofNat 32 (fieldAt e.raw (4 * j) 4)))
                       (m.base.wr Reg.PRK_PEEK_IDX F.PRK_PEEK_IDX_index (v % 2 ^ 22))).wr
                       Reg.PRK_PEEK_STATUS F.PRK_PEEK_STATUS_done 1 } := by
  simp only [Mod.peek, hgo, Bool.not_true, Bool.false_eq_true, if_false, he]

end

end Sys2Proof.Machine

/-- Settles O23: each write reaches its register's own rule, a peek once the park engine has its tables. -/
theorem parkRegisterWrites : Obligations.ParkRegisterWrites := by
  intro s w m h n
  refine ⟨fun v hw => ?budget, fun v hw => ⟨fun hclear => ?pin, fun hclear hst hheld => ?clears⟩,
    fun hw => ⟨exec_of_shelfWrites hw ?wakeNow, exec_of_shelfWrites hw ?clearFail⟩, fun v e hw hst hgo he => ?peek⟩
  case budget =>
    have ⟨_, hat, _⟩ := hw
    rw [exec_of_writes hw (by decide) rfl, Mod.wordWrite_PRK_LEDGER_BUDGET (name_of_regAt regAt_PRK_LEDGER_BUDGET_name hat)]
    rfl
  case pin =>
    rw [exec_of_shelfWrites hw rfl, Mod.shelfCtl_noClear hclear]
    rfl
  case clears =>
    rw [exec_of_shelfWrites hw rfl, Mod.shelfCtl_clears hclear hst hheld]
    rfl
  case wakeNow => exact congrArg Host.Outcome.next (State.run_congr rfl)
  case clearFail => exact congrArg Host.Outcome.next (State.run_congr rfl)
  case peek =>
    have ⟨_, hat, _⟩ := hw
    have hrun : exec (.peekGo w v) s = .next (s.ends (m.wordWrite w Reg.PRK_PEEK_IDX h v.toNat)) :=
      congrArg Host.Outcome.next (State.run_writes hw v.toNat (fun hearly => hearly.2.2 hst))
    rw [hrun, Mod.wordWrite_PRK_PEEK_IDX (name_of_regAt regAt_PRK_PEEK_IDX_name hat), Mod.peek_entry hgo he]

namespace Sys2Proof.Machine

/-! ### Entries, admissions and the plan (R81, R84, R86, R87, R91, R101, R131) -/

section
variable {s : State} {m : Mod} {e : Nat} {x : Entry}

/-- A whole flush of an entry's reads, where the delivery is this member's own. -/
theorem Mod.sweepFlushDone_own (he : (m.freeTagOf (.sweepFlush e)).prk.entry e = some x) (hf : x.flushing = true) (hfar : x.far = none)
    (hst : x.state = 6) :
    m.sweepFlushDone e .ok =
      let k := m.freeTagOf (.sweepFlush e)
      ({ k with base := k.base.occ 0x101 (engineOf x.shelf) (some x.slice) (entryGrans x.length) } : Mod).finish x
        (if x.evicted then 0x04 else 0x03) := by
  simp [Mod.sweepFlushDone, Mod.endTag_ok, he, hf, hfar, hst]

/-- Another member delivered the read and told its status (R131; log entry 12). -/
theorem Mod.sweepFlushDone_far {st : Nat} (he : (m.freeTagOf (.sweepFlush e)).prk.entry e = some x) (hf : x.flushing = true)
    (hfar : x.far = some st) : m.sweepFlushDone e .ok = (m.freeTagOf (.sweepFlush e)).finish x st := by
  simp [Mod.sweepFlushDone, Mod.endTag_ok, he, hf, hfar]

theorem Mod.expire_retained (he : m.prk.entry e = some x) (h6 : x.state ≠ 6) (h7 : x.state ≠ 7) (hr : x.release = false)
    (hn : m.base.expireNs x.cls ≠ 0) : m.expire e = m.finish x 0x24 := by
  simp [Mod.expire, he, h6, h7, hr, hn]

theorem Mod.sweepHoldDone_running {i : Nat} (h : (m.slc.run i).isSome = true) : m.sweepHoldDone i = m.quiesceEntries i true :=
  if_pos h

/-- The admission whose deadline comes first, by its own timer. -/
theorem exec_admissionWaitExpiry {w : AdmWait} {d : Nat} (hw : s.mod.begun.firstWait = some (w, d))
    (h : s.coreDue (.admissionWait w.desc) m) : exec .admissionWaitExpiry s = .next (s.ends (m.admissionExpired w)) := by
  have hrun : exec .admissionWaitExpiry s =
      .next (s.run (fun m => m.onCoreTimer (.admissionWait w.desc) (fun m => m.admissionExpired w))) :=
    congrArg Host.Outcome.next (State.run_congr (by simp only [hw]))
  exact exec_of_coreDue (f := fun m => m.admissionExpired w) h hrun

end

end Sys2Proof.Machine

/-- Settles O36: a completion by the entry that asked, a timer by the entry, admission, slot or slice that armed it. -/
theorem parkCommands : Obligations.ParkCommands := by
  intro s m e off n
  refine ⟨fun c h => ⟨fun htag => ?ingest, fun htag => ?sweepRead, fun htag => ?refetch,
      fun x htag he hf => ⟨fun hfar hst => ?flush, fun st hfar => ?farFlush⟩⟩,
    fun h => ?resume, fun w d hw h => exec_admissionWaitExpiry hw h, fun x h he h6 h7 hr hn => ?expiry, fun h => ?plan, fun h => ?batch,
    fun h => ?promote, fun i h hrun => ?sweepHold⟩
  case ingest =>
    rw [exec_of_coreIs h rfl, Mod.answered_tagged htag]
    rfl
  case sweepRead =>
    rw [exec_of_coreIs h rfl, Mod.answered_tagged htag]
    rfl
  case refetch =>
    rw [exec_of_coreIs h rfl, Mod.answered_tagged htag]
    rfl
  case flush => rw [exec_of_coreIs h rfl, Mod.answered_tagged htag, Mod.ownerDone, Mod.sweepFlushDone_own he hf hfar hst]
  case farFlush => rw [exec_of_coreIs h rfl, Mod.answered_tagged htag, Mod.ownerDone, Mod.sweepFlushDone_far he hf hfar]
  case resume => rw [exec_of_coreIs h rfl]
  case expiry => rw [exec_of_coreDue h rfl, Mod.expire_retained he h6 h7 hr hn]
  case plan =>
    rw [exec_of_coreIs h rfl]
    rfl
  case batch =>
    rw [exec_of_coreDue h rfl]
    rfl
  case promote =>
    rw [exec_of_coreDue h rfl]
    rfl
  case sweepHold => rw [exec_of_coreDue h rfl, Mod.sweepHoldDone_running hrun]

namespace Sys2Proof.Machine

/-! ### A shelf's power-good line (R94 step 2) -/

section
variable {s : State} {m : Mod} {c : Instr} {f : Mod → Mod} {n : Nat} {pg : Bool}

theorem Mod.pgLine_dieOff (hd : m.pl.dieOn = false) :
    m.pgLine n pg f = { m with prk := m.prk.setSlot { (m.prk.slot n) with pg := pg } } := by
  simp [Mod.pgLine, hd]

/-- While the core runs, the line is the core's to act on. -/
theorem exec_of_pgLine (h : s.coreIs m) (hc : exec c s = .next (s.run (fun m => m.pgLine n pg f))) :
    exec c s = .next (s.ends (f m)) := by
  obtain ⟨hlive, rfl⟩ := h
  obtain ⟨hdie, hcore⟩ := (State.coreLive_iff s).1 hlive
  obtain ⟨hpow, hon, hst⟩ := (State.dieLive_iff s).1 hdie
  rw [hc, State.run_powered s _ hpow]
  simp [Mod.pgLine, hon, hst, hcore]

theorem Mod.tellBorrower_noPort (hp : m.base.slotPort n = none) (code : Nat) (body : List Byte) : m.tellBorrower n code body = m := by
  simp only [Mod.tellBorrower, hp]

theorem Mod.pgAssert_powering (hst : m.base.slotState n = 2) (hp : m.base.slotPort n = none) :
    m.pgAssert n =
      { m with base := ((m.base.setSlotState n 3).disarm (.pgTimeout n)).arm (.perstRelease n) (100 * ms),
               prk := m.prk.setSlot { (m.prk.slot n) with pg := true } } := by
  rw [Mod.pgAssert, Mod.tellBorrower_noPort (by exact hp)]
  exact if_pos hst

/-- The line is lost between steps 2 and 7. -/
theorem Mod.pgDeassert_waking (hst : 3 ≤ m.base.slotState n ∧ m.base.slotState n ≤ 6) (hp : m.base.slotPort n = none) :
    m.pgDeassert n =
      ({ m with prk := m.prk.setSlot { (m.prk.slot n) with pg := false } } : Mod).wakeFailure n := by
  rw [Mod.pgDeassert, Mod.tellBorrower_noPort (by exact hp)]
  exact if_pos (by simpa using hst)

/-! ### A wake goes on (R94 steps 3 to 5) -/

theorem Mod.perstOff_powered (hst : m.base.slotState n = 3) (hpg : (m.prk.slot n).pg = true) :
    m.perstOff n =
      { m with base := (m.base.setSlotState n 4).arm (.linkTimeout n)
                         (m.base.rd Reg.PRK_SIDE_TIME F.PRK_SIDE_TIME_link_timeout_s * sec),
               prk := m.prk.setSlot { (m.prk.slot n) with perst := false } } := by
  simp [Mod.perstOff, hst, hpg]

theorem Mod.slotLinkUp_up {p : Nat} {l : LinkUp} {may : Nat → Bool} (hp : m.base.slotPort n = some p) (hup : m.base.linkUp p = true) :
    m.slotLinkUp n l may = m.shelfLinkUp n := by
  simp only [Mod.slotLinkUp, hp, hup, if_true]

theorem Mod.slotLinkUp_down {p : Nat} {l : LinkUp} {may : Nat → Bool} (hp : m.base.slotPort n = some p)
    (hup : m.base.linkUp p = false) : m.slotLinkUp n l may = if may p then m.portUp p l else m := by
  simp only [Mod.slotLinkUp, hp, hup, Bool.false_eq_true, if_false]

theorem Mod.shelfLinkUp_linking (hst : m.base.slotState n = 4) :
    m.shelfLinkUp n =
      let b := ((m.base.setSlotState n 5).disarm (.linkTimeout n)).arm (.readyTimeout n)
        (m.base.rd (Reg.PRK_SHELF_TIME n) F.PRK_SHELF_TIME_ready_timeout_s * sec)
      { m with base := if b.rd (Reg.PRK_SHELF_READY n) F.PRK_SHELF_READY_mode = 1 then b.arm (.readyPoll n) (100 * ms)
                 else b.arm (.readyDelay n) (b.rd (Reg.PRK_SHELF_READY n) F.PRK_SHELF_READY_delay_s * sec) } :=
  if_pos hst

/-- A poll that is out has come back whole from a shelf in READYING. -/
theorem Mod.pollDone_ok {c : Cpl} (htag : (m.tagOf (.poll n)).isSome = true) (hok : c.status = .ok)
    (hst : (m.freeTagOf (.poll n)).base.slotState n = 5) (hlen : 4 ≤ c.data.length) :
    m.pollDone n c =
      let k := m.freeTagOf (.poll n)
      if (BitVec.ofNat 32 (fieldAt c.data 0 4) &&& k.base.word (Reg.PRK_SHELF_READY_MASK n)) =
        k.base.word (Reg.PRK_SHELF_READY_VAL n) then k.shelfReady n else k := by
  simp [Mod.pollDone, htag, hok, hst, hlen, Mod.endTag_ok]

end

end Sys2Proof.Machine

/-- Settles O37: each step by the state of the slot that it finds, and of its port. -/
theorem shelfWakeCommands : Obligations.ShelfWakeCommands := by
  intro s m n
  refine ⟨fun h hst hp => ?good, fun h hp hst => ?lost, fun h hd => ?dieOff, fun h hst hpg => ?perst, fun p l h hp hup hst => ?linked,
    fun p l h hp hup => ?trained, fun h => ?delay, fun h => ?poll, fun c h htag hok hst hlen => ?polled⟩
  case good => rw [exec_of_pgLine h rfl, Mod.pgAssert_powering hst hp]
  case lost => rw [exec_of_pgLine h rfl, Mod.pgDeassert_waking hst hp]
  case dieOff =>
    constructor
    · rw [exec_of_powerIs h rfl, Mod.pgLine_dieOff hd]
    · rw [exec_of_powerIs h rfl, Mod.pgLine_dieOff hd]
  case perst => rw [exec_of_coreDue h rfl, Mod.perstOff_powered hst hpg]
  case linked => rw [exec_of_coreIs h rfl, Mod.slotLinkUp_up hp hup, Mod.shelfLinkUp_linking hst]
  case trained =>
    rw [exec_of_coreIs h rfl, Mod.slotLinkUp_down hp hup]
    exact ⟨fun hm => by rw [if_pos hm], fun hm => by rw [if_neg (ne_true_of_eq_false hm)]⟩
  case delay => rw [exec_of_coreDue h rfl]; rfl
  case poll => rw [exec_of_coreDue h rfl]
  case polled =>
    rw [exec_of_coreIs h rfl, Mod.answered_tagged htag, Mod.ownerDone, Mod.pollDone_ok htag hok hst hlen]
    exact ⟨fun hv => by rw [if_pos hv], fun hv => by rw [if_neg hv]⟩

namespace Sys2Proof.Machine

/-! ### A stop, and what goes wrong (R92 to R96) -/

section
variable {m : Mod} {n : Nat}

theorem Mod.idleDone_noPort (hst : m.base.slotState n = 6) (hlive : m.prk.live n = []) (hp : m.base.slotPort n = none)
    (hpin : m.base.isSet (Reg.PRK_SHELF_CTL n) F.PRK_SHELF_CTL_pin = false) : m.idleDone n = m.stopShelf n := by
  simp [Mod.idleDone, hst, hlive, hp, hpin]

theorem Mod.idleDone_port {p : Nat} (hst : m.base.slotState n = 6) (hlive : m.prk.live n = []) (hp : m.base.slotPort n = some p)
    (hjobs : m.jobsTo p = false) (hpin : m.base.isSet (Reg.PRK_SHELF_CTL n) F.PRK_SHELF_CTL_pin = false) :
    m.idleDone n = m.stopShelf n := by
  simp [Mod.idleDone, hst, hlive, hp, hjobs, hpin]

/-- The module once slot n's power request has ended. -/
def Mod.dropRequest (m : Mod) (n : Nat) : Mod := { m with prk := m.prk.setSlot { (m.prk.slot n) with pwrreq := false } }

theorem Mod.pwrreqOff_stopping (hst : m.base.slotState n = 7) :
    m.pwrreqOff n =
      if ((m.dropRequest n).prk.slot n).pg then
        { m.dropRequest n with
          base := m.base.arm (.pgOff n) (m.base.rd Reg.PRK_SIDE_TIME F.PRK_SIDE_TIME_pg_off_ms * ms) }
      else (m.dropRequest n).powerOff n := by
  rw [Mod.pwrreqOff, if_neg (not_not.2 hst)]
  rfl

/-- Slot n is off long enough: it may be woken again. -/
def Mod.asleep (m : Mod) (n : Nat) : Mod := { m with base := m.base.setSlotState n 0, prk := { m.prk with planDue := true } }

theorem Mod.minOffDone_slept (hst : m.base.slotState n = 8) (hk : (m.prk.slot n).keepSince = none) : m.minOffDone n = m.asleep n := by
  simp [Mod.minOffDone, Mod.asleep, hst, hk]

/-- After a failed wake the slot waits at once, if it is eligible. -/
theorem Mod.minOffDone_failed {t : Nat} (hst : m.base.slotState n = 8) (hk : (m.prk.slot n).keepSince = some t) :
    m.minOffDone n =
      let x := m.asleep n
      if x.eligible n then x.toWaiting n t
      else { x with prk := x.prk.setSlot { (x.prk.slot n) with keepSince := none } } := by
  simp only [Mod.minOffDone, hst, ne_eq, not_true_eq_false, if_false, hk]
  rfl

theorem Mod.pgStuck_stopping (hst : m.base.slotState n = 7) (hpg : (m.prk.slot n).pg = true) :
    m.pgStuck n =
      (m.prk.live n).foldl (fun x e => x.finishIdx e.idx 0x21)
        { m with base := (m.base.setSlotState n 9).raise (slotEv n 2 1),
                 dirty := m.dirty ++ (m.base.slotPort n).toList,
                 prk := m.prk.setSlot { (m.prk.slot n) with failing := false } } := by
  rw [Mod.pgStuck, if_neg (by simp [hst, hpg])]
  rfl

theorem Mod.slotLinkDown_up {p : Nat} (hp : m.base.slotPort n = some p) (hup : m.base.linkUp p = true) :
    m.slotLinkDown n = m.portDown p := by
  simp only [Mod.slotLinkDown, hp, hup, if_true]

/-- With the die off, or its clock, the plinth alone drops the line. -/
theorem exec_pwrreqRelease_off {s : State} {n : Fin 56} (h : s.plinthDue (.pwrreqRelease n.val) m)
    (hoff : (m.pl.dieOn && m.base.coreOn) = false) : exec (.pwrreqReleaseExpiry n) s = .next (s.ends (m.dropRequest n.val)) := by
  rw [exec_of_plinthDue h rfl, if_neg (ne_true_of_eq_false hoff)]
  rfl

theorem exec_pwrreqRelease_on {s : State} {n : Fin 56} (h : s.plinthDue (.pwrreqRelease n.val) m) (hd : m.pl.dieOn = true)
    (hc : m.base.coreOn = true) : exec (.pwrreqReleaseExpiry n) s = .next (s.ends (m.pwrreqOff n.val)) := by
  rw [exec_of_plinthDue h rfl, if_pos (by rw [hd, hc]; rfl)]

end

end Sys2Proof.Machine

/-- Settles O38: each timer by the slot's state, its live entries and what its lines show. -/
theorem shelfStopCommands : Obligations.ShelfStopCommands := by
  intro s m n
  refine ⟨fun h hst hlive hp hpin => ?idle, fun p h hst hlive hp hjobs hpin => ?idlePort,
    fun h => ⟨fun hoff => exec_pwrreqRelease_off h hoff, fun hd hc hst => ?request⟩,
    fun h hst => ⟨fun hk => ?slept, fun t hk he => ?waits, fun t hk he => ?dozes⟩, fun h => ?noPower, fun h => ?noLink, fun h => ?notReady,
    fun h hst hpg => ?stuck, fun p h hp hup => ?down⟩
  case idle =>
    rw [exec_of_coreDue h rfl, Mod.idleDone_noPort hst hlive hp hpin]
    rfl
  case idlePort => rw [exec_of_coreDue h rfl, Mod.idleDone_port hst hlive hp hjobs hpin]
  case request =>
    rw [exec_pwrreqRelease_on h hd hc, Mod.pwrreqOff_stopping hst]
    exact ⟨fun hpg => by rw [if_pos (by exact hpg)]; rfl, fun hpg => by rw [if_neg (by exact ne_true_of_eq_false hpg)]; rfl⟩
  case slept =>
    rw [exec_of_coreDue h rfl, Mod.minOffDone_slept hst hk]
    rfl
  case waits =>
    rw [exec_of_coreDue h rfl, Mod.minOffDone_failed hst hk]
    exact State.next_ends_congr s (if_pos he)
  case dozes =>
    rw [exec_of_coreDue h rfl, Mod.minOffDone_failed hst hk]
    exact State.next_ends_congr s (if_neg (ne_true_of_eq_false he))
  case noPower => rw [exec_of_coreDue h rfl]
  case noLink => rw [exec_of_coreDue h rfl]
  case notReady => rw [exec_of_coreDue h rfl]
  case stuck => rw [exec_of_coreDue h rfl, Mod.pgStuck_stopping hst hpg]
  case down => rw [exec_of_coreIs h rfl, Mod.slotLinkDown_up hp hup]

namespace Sys2Proof.Machine

/-! ### Errors of DRAM and SRAM (R85, R99, R137, R299, R385, R386) -/

section
variable {m : Mod} {addr c : Nat}

/-- The module once an uncorrectable error at an address has been counted, logged and raised, a reservation on its line has gone, and its
channel has lost the burst. -/
def Mod.errorLogged (m : Mod) (addr : Nat) : Mod :=
  let burst := addr / 64 * 64
  let a := Reg.MEM_CH_ERRADDR (channelOf addr)
  let counted := (m.base.bump (Reg.MEM_CH_CNT (channelOf addr) 1)).bump (Reg.PRK_CNT 9)
  let logged := if counted.isSet a F.MEM_CH_ERRADDR_valid then counted
    else (counted.wr a F.MEM_CH_ERRADDR_addr burst).wr a F.MEM_CH_ERRADDR_valid 1
  let told := logged.raise { group := 5, bit := 2, sev := 1, detail := burst % 2 ^ 32, detail2 := burst / 2 ^ 32 }
  (({ m with base := told } : Mod).loseRsv (fun r => r.line == some (addr / 64)) 5).burstLost (channelOf addr)

theorem Mod.dramError_bothTables :
    m.dramError addr true =
      { m.errorLogged addr with base := (m.errorLogged addr).base.raise { group := 0, bit := 1, sev := 2 } } := rfl

/-- The word at an address is marked (R299). -/
def Mod.poisonWord (m : Mod) (addr : Nat) : Mod :=
  { m with dram := { m.dram with poison := addr / 8 :: m.dram.poison.filter (fun w => w != addr / 8) } }

/-- Whose bytes stand at the address decides: an entry's, or those that a park read in flight has staged. -/
theorem Mod.dramError_word :
    m.dramError addr false =
      match ((m.errorLogged addr).prk.holder addr).orElse (fun _ => (m.errorLogged addr).stageHolder addr) with
      | some e => (m.errorLogged addr).granuleError e
      | none => (m.errorLogged addr).poisonWord addr := rfl

theorem Mod.dramError_held {e : Entry} (he : (m.errorLogged addr).prk.holder addr = some e) :
    m.dramError addr false = (m.errorLogged addr).granuleError e := by
  rw [Mod.dramError_word, he]
  rfl

theorem Mod.dramError_staged {e : Entry} (hn : (m.errorLogged addr).prk.holder addr = none)
    (he : (m.errorLogged addr).stageHolder addr = some e) : m.dramError addr false = (m.errorLogged addr).granuleError e := by
  rw [Mod.dramError_word, hn, he]
  rfl

theorem Mod.dramError_elsewhere (hn : (m.errorLogged addr).prk.holder addr = none) (hs : (m.errorLogged addr).stageHolder addr = none) :
    m.dramError addr false = (m.errorLogged addr).poisonWord addr := by
  rw [Mod.dramError_word, hn, hs]
  rfl

/-- The hour's count reaches a threshold that is set, for the first time. -/
theorem Mod.corrected_tells (hh : m.dram.hour = m.base.todSec / 3600) (h0 : m.base.rd (Reg.MEM_CH_CFG c) F.MEM_CH_CFG_ce_thr ≠ 0)
    (hk : m.base.rd (Reg.MEM_CH_CFG c) F.MEM_CH_CFG_ce_thr ≤ tget m.dram.ceHour c + 1) (hr : m.dram.ceRaised.contains c = false) :
    m.corrected c =
      { m with dram := { m.dram with ceHour := tset m.dram.ceHour c (tget m.dram.ceHour c + 1), ceRaised := c :: m.dram.ceRaised },
               base := ((((m.base.bump (Reg.MEM_CH_CNT c 0)).bump (Reg.PRK_CNT 8)).raise
                 { group := 7, bit := 24 + c, cause := 0 }).raise { group := 5, bit := 1 }) } := by
  simp only [Mod.corrected, hh, if_true, bne_iff_ne.2 h0, decide_eq_true hk, hr, Bool.not_false, Bool.and_self]

theorem Mod.corrected_below (hh : m.dram.hour = m.base.todSec / 3600)
    (hk : m.base.rd (Reg.MEM_CH_CFG c) F.MEM_CH_CFG_ce_thr = 0 ∨
      tget m.dram.ceHour c + 1 < m.base.rd (Reg.MEM_CH_CFG c) F.MEM_CH_CFG_ce_thr) :
    m.corrected c =
      { m with dram := { m.dram with ceHour := tset m.dram.ceHour c (tget m.dram.ceHour c + 1) },
               base := ((m.base.bump (Reg.MEM_CH_CNT c 0)).bump (Reg.PRK_CNT 8)).raise { group := 5, bit := 1 } } := by
  have hquiet : (m.base.rd (Reg.MEM_CH_CFG c) F.MEM_CH_CFG_ce_thr != 0 &&
      decide (m.base.rd (Reg.MEM_CH_CFG c) F.MEM_CH_CFG_ce_thr ≤ tget m.dram.ceHour c + 1)) = false := by
    rcases hk with h0 | hlt
    · simp [h0]
    · simp [Nat.not_le.2 hlt]
  simp only [Mod.corrected, hh, if_true, hquiet, Bool.false_and, Bool.false_eq_true, if_false]

theorem Mod.patrol_runs {fixed bad : List Nat} (hon : m.base.isSet Reg.PRK_SCRUB F.PRK_SCRUB_enable = true) (hm2 : m.pl.m2 ≠ 2)
    (hst : m.base.stage = 6) :
    m.patrol fixed bad =
      bad.foldl (fun m a => m.dramError a false)
        (fixed.foldl (fun m i => ({ m with base := m.base.bump (Reg.MEM_CH_CNT i 2) } : Mod).corrected i) m) :=
  if_neg (by simp [hon, hm2, show m.base.rd Reg.CLK_STATUS F.CLK_STATUS_stage = 6 from hst])

theorem Mod.channelFail_first (h : m.base.isSet (Reg.MEM_CH_STATUS c) F.MEM_CH_STATUS_failed = false) :
    m.channelFail c =
      { m with base := (m.base.wr (Reg.MEM_CH_STATUS c) F.MEM_CH_STATUS_failed 1).raise
                 { group := 7, bit := 24 + c, cause := 1, sev := 2 } } :=
  if_neg (ne_true_of_eq_false h)

end

end Sys2Proof.Machine

/-- Settles O39: a DRAM error by whose bytes stand at its address, a corrected one by the hour's count, an SRAM error by what it is in. -/
theorem memoryErrorCommands : Obligations.MemoryErrorCommands := by
  intro s m c
  refine ⟨fun addr h => ⟨fun hn hs => ?elsewhere, fun e he => ?held, ?tables⟩,
    fun h hh => ⟨fun h0 hk hr => ?tells, fun hk => ?below⟩, fun fixed bad h hon hm2 hst => ?scrub, fun tr h hf => ?fails,
    fun h => ⟨?table, ?entryTable, fun off => ?register⟩⟩
  case elsewhere => rw [exec_of_coreIs h rfl, Mod.dramError_elsewhere hn hs]; rfl
  case held =>
    rcases he with he | ⟨hn, he⟩
    · rw [exec_of_coreIs h rfl, Mod.dramError_held he]; rfl
    · rw [exec_of_coreIs h rfl, Mod.dramError_staged hn he]; rfl
  case tables => rw [exec_of_coreIs h rfl, Mod.dramError_bothTables]; rfl
  case tells => rw [exec_of_coreIs h rfl, Mod.corrected_tells hh h0 hk hr]
  case below => rw [exec_of_coreIs h rfl, Mod.corrected_below hh hk]
  case scrub => rw [exec_of_coreIs h rfl, Mod.patrol_runs hon hm2 hst]
  case fails => rw [exec_of_coreIs h rfl, Mod.channelFail_first hf]
  case table => rw [exec_of_coreIs h rfl]; rfl
  case entryTable => rw [exec_of_coreIs h rfl]; rfl
  case register => rw [exec_of_coreIs h rfl]; rfl

namespace Sys2Proof.Machine

/-! ### The stages of the boot (R100, R332, R333, R340, R385) -/

/-- A die that runs has its supply on. -/
theorem State.dieIs.dieOn {s : State} {m : Mod} (h : s.dieIs m) : m.pl.dieOn = true := by
  obtain ⟨hlive, rfl⟩ := h
  obtain ⟨-, hon, -⟩ := (State.dieLive_iff s).1 hlive
  exact hon

/-- The registers once the channels' DIMMs are known, and which channels trained (R332 step 8). -/
def Base.channelsShown (b : Base) (bootAt : Nat) (ok : List Bool) : Base :=
  let small := b.rd Reg.GLB_PRODUCT_ID F.GLB_PRODUCT_ID_order_code == 2
  (List.range 8).foldl (fun (b : Base) c =>
    let a := Reg.MEM_CH_STATUS c
    (((b.wr a F.MEM_CH_STATUS_dimm0 1).flag a F.MEM_CH_STATUS_dimm1 (!small)).wr a F.MEM_CH_STATUS_gib (if small then 128 else 256)).flag
      a F.MEM_CH_STATUS_trained (ok.getD c true)) { b with now := max b.now (bootAt + 320 * ms + b.bootSlip) }

/-- The registers at READY: the channels are out of self-refresh, and the events of the boot have been raised (R332 step 10, R340). -/
def Base.readied (b : Base) (keep warm : Bool) : Base :=
  let b := (List.range 8).foldl (fun (b : Base) c => b.wr (Reg.MEM_CH_STATUS c) F.MEM_CH_STATUS_self_refresh 0) (b.setStage 6)
  let b := if keep then b else b.raise { group := 2, bit := 6 }
  if warm then b.raise { group := 2, bit := 5 } else b

/-- The module at READY. -/
def Mod.readied (m : Mod) : Mod :=
  { m with base := m.base.readied m.pl.keep m.pl.warm, pl := { m.pl with dipEvent := none, keep := false } }

section
variable {m : Mod} (hd : m.pl.dieOn = true) (ht : m.pl.take = none)
include hd ht

theorem Mod.firmwareDone_noSlot {c : SlotCheck} (hst : m.base.stage = 1) (hc : pickSlot c m.pl.fwAct = none) :
    m.firmwareDone c =
      let b := m.base.wr Reg.CLK_IMG_STATUS F.CLK_IMG_STATUS_fw_valid (b2n c.valid0 + 2 * b2n c.valid1)
      { m with base := ({ b with now := max b.now (m.pl.bootAt + 24 * ms) } : Base).raise { group := 2, bit := 2, sev := 2 } } := by
  simp [Mod.firmwareDone, hd, ht, hst, hc]

theorem Mod.firmwareDone_slot {c : SlotCheck} {other : Bool} (hst : m.base.stage = 1) (hc : pickSlot c m.pl.fwAct = some other) :
    m.firmwareDone c =
      let b := m.base.wr Reg.CLK_IMG_STATUS F.CLK_IMG_STATUS_fw_valid (b2n c.valid0 + 2 * b2n c.valid1)
      { m with base := (({ b with now := max b.now (m.pl.bootAt + (if other then 24 else 12) * ms) } : Base).flag
                 Reg.CLK_IMG_STATUS F.CLK_IMG_STATUS_fw_fallback other).setStage (if m.pl.lc = 0 || m.pl.lc = 3 then 7 else 2) } := by
  simp [Mod.firmwareDone, hd, ht, hst, hc]

theorem Mod.imageDone_noSlot {x : ImageLoad} (hst : m.base.stage = 2) (hc : pickSlot x.check m.pl.imgAct = none) :
    m.imageDone x =
      let b := m.base.wr Reg.CLK_IMG_STATUS F.CLK_IMG_STATUS_img_valid (b2n x.check.valid0 + 2 * b2n x.check.valid1)
      { m with base := ({ b with now := max b.now (m.pl.bootAt + 30 * ms + b.bootSlip) } : Base).raise
                 { group := 2, bit := 2, sev := 2 } } := by
  simp [Mod.imageDone, hd, ht, hst, hc]

theorem Mod.imageDone_slot {x : ImageLoad} {other : Bool} (hst : m.base.stage = 2) (hc : pickSlot x.check m.pl.imgAct = some other) :
    m.imageDone x =
      let b := m.base.wr Reg.CLK_IMG_STATUS F.CLK_IMG_STATUS_img_valid (b2n x.check.valid0 + 2 * b2n x.check.valid1)
      let c := b.flag Reg.CLK_IMG_STATUS F.CLK_IMG_STATUS_img_fallback other
      let n := ({ m with base := { c with now := max c.now (m.pl.bootAt + 18 * ms + c.bootSlip) } } : Mod).loadImage x
      { n with base := n.base.setStage 3 } := by
  simp [Mod.imageDone, hd, ht, hst, hc]

theorem Mod.dramTrained_training {ok : List Bool} (hst : m.base.stage = 4) :
    m.dramTrained ok =
      let bad := (List.range 8).filter (fun c => !ok.getD c true)
      let n := bad.foldl (fun m c => m.channelFail c) { m with base := m.base.channelsShown m.pl.bootAt ok }
      if bad.isEmpty then { n with base := n.base.setStage 5 } else n := by
  have hlinks : ¬m.base.stage = 3 := by omega
  rw [Mod.dramTrained, if_neg (by simp [hd, ht])]
  simp only [if_neg hlinks]
  exact if_neg (not_not.2 hst)

theorem Mod.dramTrained_all {ok : List Bool} (hst : m.base.stage = 4) (hbad : (List.range 8).filter (fun c => !ok.getD c true) = []) :
    m.dramTrained ok = { m with base := (m.base.channelsShown m.pl.bootAt ok).setStage 5 } := by
  rw [Mod.dramTrained_training hd ht hst]
  simp only [hbad, List.foldl_nil, List.isEmpty_nil, if_true]

theorem Mod.dramTrained_some {ok : List Bool} (hst : m.base.stage = 4)
    (hbad : (List.range 8).filter (fun c => !ok.getD c true) ≠ []) :
    m.dramTrained ok =
      ((List.range 8).filter (fun c => !ok.getD c true)).foldl (fun m c => m.channelFail c)
        { m with base := m.base.channelsShown m.pl.bootAt ok } := by
  rw [Mod.dramTrained_training hd ht hst]
  exact if_neg (by rwa [List.isEmpty_iff])

theorem Mod.wipeDone_wiping (hst : m.base.stage = 5) (hdip : m.pl.dipEvent = none) :
    m.wipeDone =
      let n := m.readied
      let n := if n.base.rd Reg.CLK_STATUS F.CLK_STATUS_kept = 1 then n.keepEntries
        else { n with dram := {}, prk := { n.prk with entries := [], guests := [] } }
      { n with prk := { n.prk with planDue := true } } := by
  rw [Mod.wipeDone, if_neg (by simp [hd, ht, hst])]
  simp only [hdip]
  rfl

theorem Mod.wipeDone_kept (hst : m.base.stage = 5) (hdip : m.pl.dipEvent = none)
    (hk : m.readied.base.rd Reg.CLK_STATUS F.CLK_STATUS_kept = 1) :
    m.wipeDone = { m.readied.keepEntries with prk := { m.readied.keepEntries.prk with planDue := true } } := by
  rw [Mod.wipeDone_wiping hd ht hst hdip]
  simp only [hk, if_true]

theorem Mod.wipeDone_wiped (hst : m.base.stage = 5) (hdip : m.pl.dipEvent = none)
    (hk : m.readied.base.rd Reg.CLK_STATUS F.CLK_STATUS_kept ≠ 1) :
    m.wipeDone = { m.readied with dram := {}, prk := { m.readied.prk with entries := [], guests := [], planDue := true } } := by
  rw [Mod.wipeDone_wiping hd ht hst hdip]
  simp only [hk, if_false]

omit hd ht in
theorem Mod.wipeDone_otherStage (hst : m.base.stage ≠ 5) : m.wipeDone = m :=
  if_pos (by simp [hst])

end

end Sys2Proof.Machine

/-- Settles O49: each end of a stage by the slots that are good, the channels that trained, and whether entries were kept. -/
theorem bootCommands : Obligations.BootCommands := by
  intro s m h ht
  have hd := h.dieOn
  refine ⟨fun c hst => ⟨fun hc => ?noFirmware, fun other hc => ?firmware⟩, fun x hst => ⟨fun hc => ?noImage, fun other hc => ?image⟩,
    fun ok hst => ⟨fun hbad => ?trained, fun hbad => ?untrained⟩, fun hst hdip => ⟨fun hk => ?kept, fun hk => ?wiped⟩, fun hst => ?other⟩
  case noFirmware => rw [exec_of_dieIs h rfl, Mod.firmwareDone_noSlot hd ht hst hc]
  case firmware => rw [exec_of_dieIs h rfl, Mod.firmwareDone_slot hd ht hst hc]
  case noImage => rw [exec_of_dieIs h rfl, Mod.imageDone_noSlot hd ht hst hc]
  case image => rw [exec_of_dieIs h rfl, Mod.imageDone_slot hd ht hst hc]
  case trained =>
    rw [exec_of_dieIs h rfl, Mod.dramTrained_all hd ht hst hbad]
    rfl
  case untrained =>
    rw [exec_of_dieIs h rfl, Mod.dramTrained_some hd ht hst hbad]
    rfl
  case kept =>
    rw [exec_of_dieIs h rfl, Mod.wipeDone_kept hd ht hst hdip hk]
    rfl
  case wiped =>
    rw [exec_of_dieIs h rfl, Mod.wipeDone_wiped hd ht hst hdip hk]
    rfl
  case other => rw [exec_of_dieIs h rfl, Mod.wipeDone_otherStage hst]

namespace Sys2Proof.Machine

/-! ### Park DRAM (R78, R299) -/

section
variable {d : Dram} {addr w : Nat} {data : List Byte}

/-- The written bytes read back. -/
theorem Dram.read_write_same (h : Memory.wf d.mem = true) (bad : Bool) : (d.write addr data bad).read addr data.length = data := by
  refine List.ext_getElem (by simp [Dram.read, memGetList]) fun i hi hi' => ?_
  simp only [Dram.read, memGetList, Dram.write, List.getElem_map, List.getElem_range]
  rw [memGet_memPutList _ _ _ _ h, if_pos (by omega), Nat.add_sub_cancel_left, List.getD_eq_getElem]

theorem Dram.memGet_write_outside (h : Memory.wf d.mem = true) (bad : Bool) {c : Nat} (hc : c < addr ∨ addr + data.length ≤ c) :
    memGet (d.write addr data bad).mem c = memGet d.mem c := by
  rw [Dram.write, memGet_memPutList _ _ _ _ h, if_neg (by omega)]

theorem wordsTouched_word (w : Nat) : wordsTouched (8 * w) 8 = [w] := by
  have hspan : (8 * w + 8 - 1) / 8 - 8 * w / 8 + 1 = 1 := by omega
  rw [wordsTouched, if_neg (by decide), hspan, Nat.mul_div_cancel_left w (by decide)]
  rfl

theorem Dram.poisoned_word (d : Dram) (w : Nat) : d.poisoned (8 * w) 8 = d.poison.contains w := by
  rw [Dram.poisoned, wordsTouched_word, List.any_cons, List.any_nil, Bool.or_false]

/-- The words touched go from the word of the first byte to that of the last. -/
theorem mem_wordsTouched {a n : Nat} (hn : 0 < n) : w ∈ wordsTouched a n ↔ a / 8 ≤ w ∧ w ≤ (a + n - 1) / 8 := by
  rw [wordsTouched, if_neg (by omega), List.mem_map]
  constructor
  · rintro ⟨i, hi, rfl⟩
    rw [List.mem_range] at hi
    omega
  · rintro ⟨hlo, hhi⟩
    exact ⟨w - a / 8, List.mem_range.2 (by omega), by omega⟩

/-- A word that a good write covers whole loses its mark. -/
theorem Dram.poisoned_write_good (hlo : addr ≤ 8 * w) (hhi : 8 * w + 8 ≤ addr + data.length) :
    (d.write addr data false).poisoned (8 * w) 8 = false := by
  have hcov : coversWord addr data.length w = true := by simp [coversWord, hlo, hhi]
  rw [Dram.poisoned_word]
  simp [Dram.write, hcov]

/-- A poisoned write marks every word that it touches. -/
theorem Dram.poisoned_write_bad (hw : w ∈ wordsTouched addr data.length) : (d.write addr data true).poisoned (8 * w) 8 = true := by
  rw [Dram.poisoned_word]
  simp [Dram.write, hw]

end

end Sys2Proof.Machine

/-- Settles O57: each byte and each word's mark by the laws of park DRAM; a word that a write covers whole is one that it touches. -/
theorem parkMemoryKeepsWhatIsWritten : Obligations.ParkMemoryKeepsWhatIsWritten := by
  intro d addr data bad hwf
  refine ⟨wf_write d addr data bad hwf, Dram.read_write_same hwf bad, fun c hc => Dram.memGet_write_outside hwf bad hc,
    fun w hlo hhi => ⟨Dram.poisoned_write_good hlo hhi, Dram.poisoned_write_bad ?touched⟩⟩
  case touched =>
    rw [mem_wordsTouched (by omega)]
    omega
end

section
/-! PROOFS of the statements of spec/05_hods.md: the writes of a hod's registers (R103, R104, R118, R119, R121) and the commands of the
hods (R107, R112 to R116, R121). Before each statement stand the lemmas that say what the functions it speaks of do in each case. -/

open Sys2Proof Sys2Proof.Machine

namespace Sys2Proof.Machine

/-! ### The registers of a hod and of its channels -/

section
variable {r : RegRow} {x : RegHit} {a h c d : Nat}

/-- A hit of a row with two indices, the outer `s1` and the inner `s2` apart. -/
theorem RegRow.hit_strided2 (h1 : r.s1 ≠ 0) (h2 : r.s2 ≠ 0) (hh : r.hit a = some x) :
    r.base ≤ a ∧ (a - r.base) % r.s1 % r.s2 < 4 * r.words ∧ x.i1 = (a - r.base) / r.s1 ∧ x.i2 = (a - r.base) % r.s1 / r.s2 := by
  unfold RegRow.hit at hh
  simp only [h1, h2, if_false, Option.ite_none_left_eq_some, Option.ite_none_right_eq_some, Option.some.injEq] at hh
  obtain ⟨hlo, ⟨-, -, hd⟩, rfl⟩ := hh
  exact ⟨Nat.not_lt.1 hlo, hd, rfl, rfl⟩

/-- Where a row's registers end within the page of one hod. -/
def RegRow.hodEnd (r : RegRow) : Nat := r.base + if r.s2 = 0 then 4 * r.words else r.s2 * r.n2

/-- A hod's rows stand in its page of 0x10000 bytes: its own below the channels, or one in the 0x100 bytes of every channel. -/
theorem rowsHOD_pages : ∀ r ∈ rowsHOD, r.s1 = 0x10000 ∧ 0x1c00000 ≤ r.base ∧
    (r.hodEnd ≤ 0x1c01000 ∨ (r.s2 = 0x100 ∧ 0x1c01000 ≤ r.base ∧ r.base + 4 * r.words ≤ 0x1c01100)) := by
  decide

/-- A row of a hod's own is not hit above its end. -/
theorem RegRow.lt_hodEnd_of_hit (h1 : r.s1 ≠ 0) (hh : r.hit a = some x) : (a - r.base) % r.s1 < r.hodEnd - r.base := by
  unfold RegRow.hit at hh
  simp only [h1, if_false, Option.ite_none_left_eq_some, Option.ite_none_right_eq_some] at hh
  obtain ⟨-, ⟨-, hi2, hd⟩, -⟩ := hh
  have hin : (a - r.base) % r.s1 < if r.s2 = 0 then 4 * r.words else r.s2 * r.n2 := by
    split_ifs at hi2 hd ⊢ with h2
    · exact hd
    · rwa [Nat.div_lt_iff_lt_mul (Nat.pos_of_ne_zero h2), Nat.mul_comm] at hi2
  unfold RegRow.hodEnd
  omega

theorem blockRows_hod (hlo : 0x1c00000 ≤ a) (hhi : a < 0x2000000) : blockRows a = rowsHOD := by
  unfold blockRows
  iterate 11 rw [if_neg (by omega)]
  exact if_pos hhi

/-- The register at offset `d` of channel `c` of hod `h`: its row has it in the first channel, and its indices are `h` and `c`. -/
theorem regAt_hodChannel (hh : h < 16) (hc : c < 64) (hd : d < 0x100) (hat : regAt (0x1c01000 + h * 0x10000 + c * 0x100 + d) = some x) :
    x.row ∈ rowsHOD ∧ x.row.base ≤ 0x1c01000 + d ∧ 0x1c01000 + d < x.row.base + 4 * x.row.words ∧ x.i1 = h ∧ x.i2 = c := by
  obtain ⟨a, ha⟩ : ∃ a, a = 0x1c01000 + h * 0x10000 + c * 0x100 + d := ⟨_, rfl⟩
  rw [← ha] at hat
  obtain ⟨r, hr, hit⟩ := List.exists_of_findSome?_eq_some hat
  rw [blockRows_hod (by omega) (by omega)] at hr
  obtain ⟨h1, hbase, hend | ⟨h2, hlo, hhi⟩⟩ := rowsHOD_pages r hr
  · have hin := RegRow.lt_hodEnd_of_hit (by omega) hit
    rw [h1] at hin
    omega
  · obtain ⟨hb, hw, hi1, hi2⟩ := RegRow.hit_strided2 (by omega) (by omega) hit
    rw [h1, h2] at hw hi2
    rw [h1] at hi1
    rw [RegRow.hit_row hit]
    refine ⟨hr, ?_, ?_, ?_, ?_⟩ <;> omega

/-- The shadow registers of a channel other than SEAL (R119). -/
def RegName.ofShadow (n : RegName) : Bool :=
  [.HOD_CH_SH_SRC, .HOD_CH_SH_DST, .HOD_CH_SH_COUNT, .HOD_CH_SH_SPACE, .HOD_CH_SH_PASID, .HOD_CH_SH_JOB, .HOD_CH_SH_TAG].contains n

theorem rowsHOD_shadow : ∀ r ∈ rowsHOD, 0x1c01000 < r.base + 4 * r.words → r.base < 0x1c01030 → r.name.ofShadow = true := by
  decide

theorem rowsHOD_seal : ∀ r ∈ rowsHOD, r.base ≤ 0x1c01030 → 0x1c01030 < r.base + 4 * r.words → r.name = .HOD_CH_SH_SEAL := by
  decide

theorem rowsHOD_control : ∀ r ∈ rowsHOD, r.base ≤ 0x1c01084 → 0x1c01084 < r.base + 4 * r.words → r.name = .HOD_CH_CTL := by
  decide

theorem regAt_shadow (hh : h < 16) (hc : c < 64) (hd : d < 0x30) (hat : regAt (Reg.HOD_CH_SH_SRC h c + d) = some x) :
    x.row.name.ofShadow = true ∧ x.i1 = h ∧ x.i2 = c := by
  obtain ⟨hr, hlo, hhi, hi1, hi2⟩ := regAt_hodChannel hh hc (by omega) hat
  exact ⟨rowsHOD_shadow _ hr (by omega) (by omega), hi1, hi2⟩

theorem regAt_HOD_CH_SH_SEAL (hh : h < 16) (hc : c < 64) (hat : regAt (Reg.HOD_CH_SH_SEAL h c) = some x) :
    x.row.name = .HOD_CH_SH_SEAL ∧ x.i1 = h ∧ x.i2 = c := by
  have hoff : Reg.HOD_CH_SH_SEAL h c = 0x1c01000 + h * 0x10000 + c * 0x100 + 0x30 := by
    unfold Reg.HOD_CH_SH_SEAL
    omega
  rw [hoff] at hat
  obtain ⟨hr, hlo, hhi, hi1, hi2⟩ := regAt_hodChannel hh hc (by omega) hat
  exact ⟨rowsHOD_seal _ hr hlo hhi, hi1, hi2⟩

theorem regAt_HOD_CH_CTL (hh : h < 16) (hc : c < 64) (hat : regAt (Reg.HOD_CH_CTL h c) = some x) :
    x.row.name = .HOD_CH_CTL ∧ x.i1 = h ∧ x.i2 = c := by
  have hoff : Reg.HOD_CH_CTL h c = 0x1c01000 + h * 0x10000 + c * 0x100 + 0x84 := by
    unfold Reg.HOD_CH_CTL
    omega
  rw [hoff] at hat
  obtain ⟨hr, hlo, hhi, hi1, hi2⟩ := regAt_hodChannel hh hc (by omega) hat
  exact ⟨rowsHOD_control _ hr hlo hhi, hi1, hi2⟩

theorem regAt_HOD_CTL_name : ∀ h : Fin 16, (regAt (Reg.HOD_CTL h.val)).map (fun x => (x.row.name, x.i1)) = some (.HOD_CTL, h.val) := by
  decide +kernel

end

/-! ### A hod's registers are written (R103, R104, R118, R119, R121) -/

section
variable {s : State} {m : Mod} {w : Who} {off h c v : Nat} {x : RegHit} {i : Instr}

theorem Mod.wordWrite_HOD_CTL (hn : x.row.name = .HOD_CTL) : m.wordWrite w off x v = m.holdWrite x.i1 v := by
  unfold Mod.wordWrite
  rw [hn]

theorem Mod.wordWrite_HOD_CH_CTL (hn : x.row.name = .HOD_CH_CTL) : m.wordWrite w off x v = m.hodCtlWrite w x.i1 x.i2 v := by
  unfold Mod.wordWrite
  rw [hn]

theorem Mod.wordWrite_HOD_CH_SH_SEAL (hn : x.row.name = .HOD_CH_SH_SEAL) : m.wordWrite w off x v = m.sealWrite w x.i1 x.i2 v := by
  unfold Mod.wordWrite
  rw [hn]

theorem Mod.wordWrite_shadow (hn : x.row.name.ofShadow = true) :
    m.wordWrite w off x v =
      m.shadowWrite w x.i1 x.i2 [(off, BitVec.ofNat 32 (codedWord x (m.base.word off).toNat v))] := by
  simp only [RegName.ofShadow, List.contains_iff_mem, List.mem_cons, List.not_mem_nil, or_false] at hn
  unfold Mod.wordWrite
  rcases hn with hn | hn | hn | hn | hn | hn | hn <;> rw [hn]

theorem Mod.pairWrite_shadow (hn : x.row.name.ofShadow = true) :
    m.pairWrite w off x v =
      m.shadowWrite w x.i1 x.i2 [(off, BitVec.ofNat 32 (codedWord x (m.base.word off).toNat (v % 2 ^ 32))),
        (off + 4, BitVec.ofNat 32 (codedWord { x with word := 1 } (m.base.word (off + 4)).toNat (v / 2 ^ 32)))] := by
  simp only [RegName.ofShadow, List.contains_iff_mem, List.mem_cons, List.not_mem_nil, or_false] at hn
  unfold Mod.pairWrite
  rcases hn with hn | hn | hn | hn | hn | hn | hn <;> rw [hn]

/-- A 64-bit write of a register that takes both words at once. -/
theorem Mod.decodeWide_whole (hat : regAt off = some x) (hw : wholeWrite x.row.name = true) (h0 : x.word = 0)
    (hs : m.base.sight w off x = .full) :
    m.decodeWide w off v = ({ m with base := m.base.dropHold off } : Mod).pairWrite w off x v := by
  simp [Mod.decodeWide, hat, hw, h0, hs]

/-- Dropping a held counter word changes no register. -/
theorem Base.dropHold_regs (b : Base) (off : Nat) : (b.dropHold off).regs = b.regs := by
  unfold Base.dropHold
  split
  · split <;> rfl
  · rfl

/-- The start that a software write of go makes (R103). -/
def softStart (w : Who) (h c : Nat) : HodStart :=
  { h := h, c := c, desc := none, mgmt := match w with
    | .mgmt _ => true
    | _ => false }

/-- On a direct-mode channel an abort goes before a start (R118). -/
theorem Mod.hodCtlWrite_direct (hd : m.base.direct h c = true) (hm : m.base.mayDirect w = true) :
    m.hodCtlWrite w h c v =
      let n := if bitOf v 1 then m.abort h c false else m
      if bitOf v 0 then n.start (softStart w h c) else n := by
  unfold Mod.hodCtlWrite
  rw [hd, hm]
  rfl

theorem Mod.hodCtlWrite_queue (hd : m.base.direct h c = false) :
    m.hodCtlWrite w h c v = { m with base := m.base.queueModeWrite w h c } := by
  unfold Mod.hodCtlWrite
  rw [hd]
  rfl

theorem Mod.shadowWrite_direct {words : List (Nat × W32)} (hd : m.base.direct h c = true) (hm : m.base.mayDirect w = true) :
    m.shadowWrite w h c words =
      { m with base := (words.foldl (fun b w => b.setWord w.1 w.2) m.base).wr (Reg.HOD_CH_SH_SEAL h c) F.HOD_CH_SH_SEAL_seal 0 } := by
  unfold Mod.shadowWrite
  rw [hd, hm]
  rfl

theorem Mod.sealWrite_direct (hd : m.base.direct h c = true) (hm : m.base.mayDirect w = true) :
    m.sealWrite w h c v = { m with base := m.base.wr (Reg.HOD_CH_SH_SEAL h c) F.HOD_CH_SH_SEAL_seal (v % 2) } := by
  unfold Mod.sealWrite
  rw [hd, hm]
  rfl

/-- A write of a channel's control register, by any row that makes it. -/
theorem exec_of_hodCtlWrites (hh : h < 16) (hc : c < 64) (hw : s.writes w (Reg.HOD_CH_CTL h c) m x)
    (hi : exec i s = .next (s.run (fun m => m.rowWrite w (Reg.HOD_CH_CTL h c) false v))) :
    exec i s = .next (s.ends (m.hodCtlWrite w h c v)) := by
  have ⟨_, hat, _⟩ := hw
  obtain ⟨hn, hi1, hi2⟩ := regAt_HOD_CH_CTL hh hc hat
  have hp : Reg.HOD_CH_CTL h c ≠ Reg.PRK_PEEK_IDX := by
    unfold Reg.HOD_CH_CTL Reg.PRK_PEEK_IDX
    omega
  rw [exec_of_writes hw hp hi, Mod.wordWrite_HOD_CH_CTL hn, hi1, hi2]

theorem exec_hodShadowWrite {h : Fin 16} {c : Fin 64} (ho : off < 0x30) (wide : Bool) (v : W64) :
    exec (.hodShadowWrite w h c off wide v) s =
      .next (s.run (fun m => m.rowWrite w (Reg.HOD_CH_SH_SRC h.val c.val + off) wide v.toNat)) :=
  congrArg Host.Outcome.next (State.run_congr (if_pos ho))

theorem shadow_ne_PRK_PEEK_IDX : Reg.HOD_CH_SH_SRC h c + off ≠ Reg.PRK_PEEK_IDX := by
  unfold Reg.HOD_CH_SH_SRC Reg.PRK_PEEK_IDX
  omega

/-- A 32-bit write of a shadow register of a direct-mode channel. -/
theorem Mod.wordWrite_shadow_direct (hh : h < 16) (hc : c < 64) (ho : off < 0x30) (hat : regAt (Reg.HOD_CH_SH_SRC h c + off) = some x)
    (hd : m.base.direct h c = true) (hm : m.base.mayDirect w = true) :
    m.wordWrite w (Reg.HOD_CH_SH_SRC h c + off) x v =
      { m with base := (m.base.codedWrite (Reg.HOD_CH_SH_SRC h c + off) x v).wr (Reg.HOD_CH_SH_SEAL h c) F.HOD_CH_SH_SEAL_seal 0 } := by
  obtain ⟨hn, hi1, hi2⟩ := regAt_shadow hh hc ho hat
  rw [Mod.wordWrite_shadow hn, hi1, hi2, Mod.shadowWrite_direct hd hm]
  rfl

/-- A 64-bit write of a shadow register of a direct-mode channel takes both words at once (R119). -/
theorem Mod.decodeWide_shadow_direct (hh : h < 16) (hc : c < 64) (ho : off < 0x30) (hat : regAt (Reg.HOD_CH_SH_SRC h c + off) = some x)
    (hw : wholeWrite x.row.name = true) (h0 : x.word = 0) (hs : m.base.sight w (Reg.HOD_CH_SH_SRC h c + off) x = .full)
    (hd : m.base.direct h c = true) (hm : m.base.mayDirect w = true) :
    let a := Reg.HOD_CH_SH_SRC h c + off
    let b := m.base.dropHold a
    m.decodeWide w a v =
      { m with base := ((b.codedWrite a x (v % 2 ^ 32)).setWord (a + 4)
                 (BitVec.ofNat 32 (codedWord { x with word := 1 } (b.word (a + 4)).toNat (v / 2 ^ 32)))).wr
                 (Reg.HOD_CH_SH_SEAL h c) F.HOD_CH_SH_SEAL_seal 0 } := by
  intro a b
  obtain ⟨hn, hi1, hi2⟩ := regAt_shadow hh hc ho hat
  have hd' : b.direct h c = true := by
    rw [← hd]
    simp only [b, Base.direct, Base.isSet, Base.rd, Base.word64, Base.word, Base.dropHold_regs]
  have hm' : b.mayDirect w = true := by
    rw [← hm]
    simp only [b, Base.mayDirect, Base.manager, Base.rd, Base.word64, Base.word, Base.dropHold_regs]
  rw [Mod.decodeWide_whole hat hw h0 hs, Mod.pairWrite_shadow hn, hi1, hi2, Mod.shadowWrite_direct hd' hm']
  rfl

end

end Sys2Proof.Machine

/-- Settles O22: each write reaches its register's own rule, which goes by the channel's mode. -/
theorem hodRegisterWrites : Obligations.HodRegisterWrites := by
  intro s w m r h c
  have hh := h.isLt
  have hc := c.isLt
  refine ⟨fun go hw hd hm => ⟨?go, ?abort⟩, fun o v hw hd hm => ?shadow, fun o v n ho hr hs hat hwh h0 hd hm => ?wideShadow,
    fun v hw hd hm => ?sealed, fun v hw => ?hold, fun hw hd => ?queueMode⟩
  case go =>
    rw [exec_of_hodCtlWrites hh hc hw rfl, Mod.hodCtlWrite_direct hd hm]
    rfl
  case abort =>
    rw [exec_of_hodCtlWrites hh hc hw rfl, Mod.hodCtlWrite_direct hd hm]
    cases go <;> rfl
  case shadow =>
    have ⟨_, hat, _⟩ := hw
    have ho : 4 * o.val < 0x30 := by omega
    rw [exec_of_writes hw shadow_ne_PRK_PEEK_IDX (exec_hodShadowWrite ho false v), Mod.wordWrite_shadow_direct hh hc ho hat hd hm]
    rfl
  case wideShadow =>
    rw [exec_hodShadowWrite ho, State.run_wide hr _ shadow_ne_PRK_PEEK_IDX, Mod.decodeWide_shadow_direct hh hc ho hat hwh h0 hs hd hm]
    rfl
  case sealed =>
    have ⟨_, hat, _⟩ := hw
    obtain ⟨hn, hi1, hi2⟩ := regAt_HOD_CH_SH_SEAL hh hc hat
    have hp : Reg.HOD_CH_SH_SEAL h.val c.val ≠ Reg.PRK_PEEK_IDX := by
      unfold Reg.HOD_CH_SH_SEAL Reg.PRK_PEEK_IDX
      omega
    rw [exec_of_writes hw hp rfl, Mod.wordWrite_HOD_CH_SH_SEAL hn, hi1, hi2, Mod.sealWrite_direct hd hm]
  case hold =>
    have ⟨_, hat, _⟩ := hw
    have hn := regAt_HOD_CTL_name h
    rw [hat, Option.map_some, Option.some_inj, Prod.mk.injEq] at hn
    obtain ⟨hn, hi1⟩ := hn
    have hp : Reg.HOD_CTL h.val ≠ Reg.PRK_PEEK_IDX := by
      unfold Reg.HOD_CTL Reg.PRK_PEEK_IDX
      omega
    rw [exec_of_writes hw hp rfl, Mod.wordWrite_HOD_CTL hn, hi1]
    rfl
  case queueMode =>
    rw [exec_of_hodCtlWrites hh hc hw rfl, Mod.hodCtlWrite_queue hd]
    rfl

namespace Sys2Proof.Machine

/-! ### A hod picks, goes on and ends (R107, R112 to R116, R121) -/

section
variable {s : State} {m : Mod} {h : Nat} {r : HodRun}

theorem coreOn_of_coreIs (hm : s.coreIs m) : m.base.coreOn = true := by
  obtain ⟨hlive, rfl⟩ := hm
  exact ((State.coreLive_iff s).1 hlive).2

/-- A free, enabled hod that is not held picks the start found first. -/
theorem Mod.hodPick_start {x : HodStart} (hcore : m.base.coreOn = true) (hrun : m.hod.run h = none)
    (hen : m.base.isSet (Reg.HOD_CFG h) F.HOD_CFG_enable = true) (hhold : m.hodHold h = false)
    (hx : m.hod.starts.find? (fun x => x.h == h) = some x) : m.hodPick h = m.pickStart x := by
  simp [Mod.hodPick, hcore, hrun, hen, hhold, hx]

theorem Mod.hodPick_held (hcore : m.base.coreOn = true) (hrun : m.hod.run h = none)
    (hen : m.base.isSet (Reg.HOD_CFG h) F.HOD_CFG_enable = true) (hhold : m.hodHold h = true) : m.hodPick h = m.showHod h := by
  simp [Mod.hodPick, hcore, hrun, hen, hhold]

theorem Mod.showHod_free (hrun : m.hod.run h = none) :
    m.showHod h =
      { m with base := (((m.base.wr (Reg.HOD_STATUS h) F.HOD_STATUS_busy 0).flag (Reg.HOD_STATUS h) F.HOD_STATUS_held (m.hodHold h)).wr
                 (Reg.HOD_STATUS h) F.HOD_STATUS_resv_cells 0) } := by
  simp only [Mod.showHod, hrun]

/-- A run that does not wait in RETRY goes on. -/
theorem Mod.pump_run (hrun : m.hod.run h = some r) (hf : r.failed = []) : m.pump h = (Mod.pumpN r.fuel m r).showHod h := by
  simp [Mod.pump, hrun, hf]

/-- Is it a tag of a read of hod `h` under number `tag`? -/
def TagUse.ofHod (h tag : Nat) (t : TagUse) : Bool :=
  t.tag == tag && (match t.owner with
    | some (.hod g _) => g == h
    | _ => false)

/-- What a completion of hod `h` does, given the tag that it answers, if there is one (R116, R126). -/
def Mod.hodCompletion (m : Mod) (h tag : Nat) (c : Cpl) : Option TagUse → Mod
  | some { owner := some o, .. } => m.ownerDone o c
  | _ => { m with base := m.base.late h tag (hodStatus c.status).1 }

theorem Mod.hodCompletion_owner {tag : Nat} {c : Cpl} {t : TagUse} {o : TagOwner} (ho : t.owner = some o) :
    m.hodCompletion h tag c (some t) = m.ownerDone o c := by
  cases t
  cases ho
  rfl

theorem exec_hodReadCompletion {h : Fin 16} {tag : Nat} {c : Cpl} (hm : s.coreIs m) :
    exec (.hodReadCompletion h tag c) s =
      .next (s.ends (m.hodCompletion h.val tag c (m.tags.find? (TagUse.ofHod h.val tag)))) :=
  exec_of_coreIs (f := fun m => m.hodCompletion h.val tag c (m.tags.find? (TagUse.ofHod h.val tag))) hm rfl

/-- The gap of the run on the hod, by the timer of its channel. -/
theorem exec_retryGapExpiry {h : Fin 16} (hrun : s.mod.hod.run h.val = some r) (hm : s.coreDue (.retryGap h.val r.c) m) :
    exec (.retryGapExpiry h) s = .next (s.ends (m.retry h.val)) := by
  have hgap : exec (.retryGapExpiry h) s = .next (s.run (fun m => m.onCoreTimer (.retryGap h.val r.c) (fun m => m.retry h.val))) :=
    congrArg Host.Outcome.next (State.run_congr (by simp only [Mod.begun_hod, hrun]))
  exact exec_of_coreDue (f := fun m => m.retry h.val) hm hgap

/-- The flush read of a run; a Mortar target's flush waits for a write response and has none. -/
def HodRun.flushRead (r : HodRun) : HodRead :=
  (r.reads.find? (fun x => x.flush)).getD { id := 0, dest := true, flush := true, addr := r.lastAddr, len := 0 }

/-- The run once its flush has ended. -/
def HodRun.flushed (r : HodRun) : HodRun := { r with reads := r.reads.filter (fun y => !y.flush), flushing := false }

/-- A flush that ends well ends the run with its pulse (R114, R115). -/
theorem Mod.flushDone_ok (hrun : m.hod.run h = some r) (hf : r.flushing = true) :
    m.flushDone h .ok =
      let k := ((m.endTag (.hod h r.flushRead.id) .ok).keepCells r.flushRead 0).1
      let n : Mod := { k with hod := k.hod.setRun r.flushed, base := k.base.bump (Reg.HOD_CNT h 0) }
      (n.endRun r.flushed 0 0).runPulse r.flushed 0 := by
  unfold Mod.flushDone
  rw [hrun]
  simp only [hf, Bool.not_true, Bool.false_eq_true, if_false]
  rfl

end

end Sys2Proof.Machine

/-- Settles O33: each command by what it finds on the hod: a start, a run, a tag, a retry gap or a flush. -/
theorem hodCommands : Obligations.HodCommands := by
  intro s m h
  refine ⟨fun x hm hrun hen hx => ⟨fun hhold => ?picks, fun hhold => ?held⟩, fun r hm hrun hf => ?goesOn,
    fun tag id c t hm ht ho => ?completion, fun r hrun hm => exec_retryGapExpiry hrun hm, fun r hm hrun hf => ?flush⟩
  case picks => rw [exec_of_coreIs hm rfl, Mod.hodPick_start (coreOn_of_coreIs hm) hrun hen hhold hx]
  case held => rw [exec_of_coreIs hm rfl, Mod.hodPick_held (coreOn_of_coreIs hm) hrun hen hhold, Mod.showHod_free hrun, hhold]
  case goesOn => rw [exec_of_coreIs hm rfl, Mod.pump_run hrun hf]
  case completion =>
    have htag : m.tags.find? (TagUse.ofHod h.val tag) = some t := ht
    rw [exec_hodReadCompletion hm, htag, Mod.hodCompletion_owner ho]
  case flush =>
    rw [exec_of_coreIs hm rfl, Mod.flushDone_ok hrun hf]
    rfl

end

section
/-! PROOFS of the statements of spec/06_ordering.md: the writes of the ordering and guard registers (R134, R137, R145, R148, R149), and
the commands of the park window, of reservations, of guard commits and of the debug master (R128, R129, R137, R146, R148, R152, R308).
Before each statement stand the lemmas that say what the functions it speaks of do in each case. -/

open Sys2Proof Sys2Proof.Machine

namespace Sys2Proof.Machine

/-! ### The registers of a guard's rules and of a slice's ordering -/

section
variable {r : RegRow} {x : RegHit} {a g i d : Nat}

theorem RegRow.base_le_of_hit (hh : r.hit a = some x) : r.base ≤ a := by
  unfold RegRow.hit at hh
  exact Nat.not_lt.1 (Option.ite_none_left_eq_some.1 hh).1

/-- The registers of a staged rule (R145). -/
def RegName.ofRule (n : RegName) : Bool := [.GRD_RULE_BASE, .GRD_RULE_LIMIT, .GRD_RULE_ATTR, .GRD_RULE_MATCH].contains n

/-- A guard's rows stand in its page of 0x4000 bytes: below the rules, or in the 0x20 bytes of every rule; the commit's stand above. -/
theorem rowsGRD_pages : ∀ r ∈ rowsGRD, 0x2100000 ≤ r.base ∨ (r.s1 = 0x4000 ∧ 0x2000000 ≤ r.base ∧
    (r.hodEnd ≤ 0x2001000 ∨
      (r.name.ofRule = true ∧ r.s2 = 0x20 ∧ 0x2001000 ≤ r.base ∧ r.base + 4 * r.words ≤ 0x2001020))) := by
  decide

/-- Every register in the 0x20 bytes of rule `i` of guard `g` is one of that rule's. -/
theorem regAt_rule (hg : g < 41) (hi : i < 64) (hd : d < 8) (hat : regAt (Reg.GRD_RULE_BASE g i + 4 * d) = some x) :
    x.row.name.ofRule = true ∧ x.i1 = g ∧ x.i2 = i := by
  obtain ⟨a, ha⟩ : ∃ a, a = 0x2001000 + g * 0x4000 + i * 0x20 + 4 * d := ⟨_, rfl⟩
  rw [show Reg.GRD_RULE_BASE g i + 4 * d = a from ha.symm] at hat
  have hblock : blockRows a = rowsGRD := by
    unfold blockRows
    iterate 12 rw [if_neg (by omega)]
    exact if_pos (by omega)
  obtain ⟨r, hr, hit⟩ := List.exists_of_findSome?_eq_some hat
  have hle := RegRow.base_le_of_hit hit
  obtain habove | ⟨h1, hbase, hend | ⟨hn, h2, hlo, hhi⟩⟩ := rowsGRD_pages r (hblock ▸ hr)
  · omega
  · have hin := RegRow.lt_hodEnd_of_hit (by omega) hit
    rw [h1] at hin
    omega
  · obtain ⟨-, hw, hi1, hi2⟩ := RegRow.hit_strided2 (by omega) (by omega) hit
    rw [h1, h2] at hw hi2
    rw [h1] at hi1
    refine ⟨RegRow.hit_row hit ▸ hn, ?_, ?_⟩ <;> omega

/-- A slice's rows stand in its page of 0x1000 bytes: below its ordering registers, or among them; the pool's stand below those too. -/
theorem rowsSLC_pages : ∀ r ∈ rowsSLC, r.ends ≤ 0x2400f00 ∨ (r.s1 = 0x1000 ∧ 0x2400000 ≤ r.base ∧
    (r.hodEnd ≤ 0x2400f00 ∨ (r.s2 = 0 ∧ 0x2400f00 ≤ r.base ∧ r.base + 4 * r.words ≤ 0x2401000))) := by
  decide

/-- The register at offset `d` of slice `i`'s ordering registers: its row has it in the first slice, and its index is `i`. -/
theorem regAt_sliceOrdering (hi : i < 1024) (hd : d < 0x100) (hat : regAt (0x2400f00 + i * 0x1000 + d) = some x) :
    x.row ∈ rowsSLC ∧ x.row.base ≤ 0x2400f00 + d ∧ 0x2400f00 + d < x.row.base + 4 * x.row.words ∧ x.i1 = i := by
  obtain ⟨a, ha⟩ : ∃ a, a = 0x2400f00 + i * 0x1000 + d := ⟨_, rfl⟩
  rw [← ha] at hat
  have hblock : blockRows a = rowsSLC := by
    unfold blockRows
    iterate 13 rw [if_neg (by omega)]
    exact if_pos (by omega)
  obtain ⟨r, hr, hit⟩ := List.exists_of_findSome?_eq_some hat
  rw [hblock] at hr
  obtain hpool | ⟨h1, hbase, hend | ⟨h2, hlo, hhi⟩⟩ := rowsSLC_pages r hr
  · have hin := RegRow.lt_ends_of_hit hit
    omega
  · have hin := RegRow.lt_hodEnd_of_hit (by omega) hit
    rw [h1] at hin
    omega
  · obtain ⟨hb, hw, hi1⟩ := RegRow.hit_strided (by omega) h2 hit
    rw [h1] at hw hi1
    rw [RegRow.hit_row hit]
    refine ⟨hr, ?_, ?_, ?_⟩ <;> omega

theorem rowsSLC_fence : ∀ r ∈ rowsSLC, r.base ≤ 0x2400f00 → 0x2400f00 < r.base + 4 * r.words → r.name = .SLC_FENCE := by
  decide

theorem rowsSLC_rsvAddr : ∀ r ∈ rowsSLC, r.base < 0x2400f18 → 0x2400f10 < r.base + 4 * r.words → r.name = .SLC_RSV_ADDR := by
  decide

theorem regAt_SLC_FENCE (hi : i < 1024) (hat : regAt (Reg.SLC_FENCE i) = some x) : x.row.name = .SLC_FENCE ∧ x.i1 = i := by
  obtain ⟨hr, hlo, hhi, hi1⟩ := regAt_sliceOrdering (d := 0) hi (by omega) hat
  exact ⟨rowsSLC_fence _ hr hlo hhi, hi1⟩

theorem regAt_SLC_RSV_ADDR (hi : i < 1024) (hd : d < 2) (hat : regAt (Reg.SLC_RSV_ADDR i + 4 * d) = some x) :
    x.row.name = .SLC_RSV_ADDR ∧ x.i1 = i := by
  have hoff : Reg.SLC_RSV_ADDR i + 4 * d = 0x2400f00 + i * 0x1000 + (0x10 + 4 * d) := by
    unfold Reg.SLC_RSV_ADDR
    omega
  rw [hoff] at hat
  obtain ⟨hr, hlo, hhi, hi1⟩ := regAt_sliceOrdering hi (by omega) hat
  exact ⟨rowsSLC_rsvAddr _ hr (by omega) (by omega), hi1⟩

theorem regAt_GRD_COMMIT_name : (regAt Reg.GRD_COMMIT).map (·.row.name) = some .GRD_COMMIT := by
  decide +kernel

end

/-! ### Ordering and guard registers are written (R134, R137, R145, R148, R149) -/

section
variable {m : Mod} {w : Who} {off v i g r : Nat} {h : RegHit}

theorem Mod.wordWrite_SLC_FENCE (hn : h.row.name = .SLC_FENCE) : m.wordWrite w off h v = m.fenceGo w h.i1 v := by
  unfold Mod.wordWrite
  rw [hn]

theorem Mod.wordWrite_SLC_RSV_ADDR (hn : h.row.name = .SLC_RSV_ADDR) : m.wordWrite w off h v = m.rsvAddrWrite off h v := by
  unfold Mod.wordWrite
  rw [hn]

theorem Mod.wordWrite_GRD_COMMIT (hn : h.row.name = .GRD_COMMIT) : m.wordWrite w off h v = m.grdCommitWrite v := by
  unfold Mod.wordWrite
  rw [hn]

theorem Mod.wordWrite_rule (hn : h.row.name.ofRule = true) :
    m.wordWrite w off h v =
      { m with base := m.base.stageRule h.i1 h.i2 [(off, BitVec.ofNat 32 (codedWord h (m.base.word off).toNat v))] } := by
  simp only [RegName.ofRule, List.contains_iff_mem, List.mem_cons, List.not_mem_nil, or_false] at hn
  unfold Mod.wordWrite
  rcases hn with hn | hn | hn | hn <;> rw [hn]

/-- The attribute word is the one register of a rule that no 64-bit write takes whole. -/
theorem Mod.pairWrite_rule (hn : h.row.name.ofRule = true) (hw : wholeWrite h.row.name = true) :
    m.pairWrite w off h v =
      { m with base := m.base.stageRule h.i1 h.i2
                 [(off, BitVec.ofNat 32 (codedWord h (m.base.word off).toNat (v % 2 ^ 32))),
                  (off + 4, BitVec.ofNat 32 (codedWord { h with word := 1 } (m.base.word (off + 4)).toNat (v / 2 ^ 32)))] } := by
  simp only [RegName.ofRule, List.contains_iff_mem, List.mem_cons, List.not_mem_nil, or_false] at hn
  unfold Mod.pairWrite
  rcases hn with hn | hn | hn | hn
  case inr.inr.inl =>
    rw [hn] at hw
    exact absurd hw Bool.false_ne_true
  all_goals rw [hn]

/-- The fence that a go written to SLC_FENCE starts: over the slice's descriptors short of the level that it waits for (R134). -/
def Mod.fenceOf (m : Mod) (i : Nat) (final : Bool) : FenceRun :=
  { desc := none, slice := i, gqp := none, final := final,
    covered := (m.qe.descs.filter (fun d => d.slice == i && (final || d.first.isNone))).map Desc.id }

theorem Mod.fenceGo_go (hgo : bitOf v 0 = true) (hdone : m.base.isSet (Reg.SLC_FENCE i) F.SLC_FENCE_done = true) :
    m.fenceGo w i v =
      ({ m with base := m.base.wr (Reg.SLC_FENCE i) F.SLC_FENCE_done 0,
                qe := { m.qe with fences := m.qe.fences ++ [m.fenceOf i (bitOf v 1)] } } : Mod).fences := by
  simp only [Mod.fenceGo, hgo, hdone, Bool.not_true, Bool.false_eq_true, if_false, Mod.fenceOf]

theorem Mod.grdCommitWrite_go (hgo : bitOf v 0 = true) (hkeep : bitOf v 2 = false) : m.grdCommitWrite v = m.commitGo := by
  simp only [Mod.grdCommitWrite, hgo, hkeep, Bool.false_eq_true, if_false, if_true]

theorem Mod.commitGo_idle (hdone : m.base.isSet Reg.GRD_COMMIT F.GRD_COMMIT_done = true) :
    m.commitGo = m.startCommit (m.base.word64 Reg.GRD_COMMIT_MASK % 2 ^ 41) none :=
  if_pos hdone

theorem Mod.commitGo_busy (hdone : m.base.isSet Reg.GRD_COMMIT F.GRD_COMMIT_done = false) :
    m.commitGo =
      { m with base := (maskGuards (m.base.word64 Reg.GRD_COMMIT_MASK % 2 ^ 41)).foldl (fun b g => b.raise (guardEv g 4 0 0))
                         (m.base.wr Reg.GRD_COMMIT F.GRD_COMMIT_refused 1) } :=
  if_neg (ne_true_of_eq_false hdone)

theorem Base.stageRule_unlocked {b : Base} (hl : b.ruleLocked g r = false) (words : List (Nat × W32)) :
    b.stageRule g r words = words.foldl (fun b x => b.setWord x.1 x.2) b :=
  if_neg (ne_true_of_eq_false hl)

theorem Base.stageRule_locked {b : Base} (hl : b.ruleLocked g r = true) (words : List (Nat × W32)) :
    b.stageRule g r words = (b.bump (Reg.GRD_CNT g 5)).raise (guardEv g 1 0 0) :=
  if_pos hl

/-- A lock stands in the active set, which dropping a held counter word does not touch. -/
theorem Base.dropHold_ruleLocked (b : Base) (off : Nat) : (b.dropHold off).ruleLocked g r = b.ruleLocked g r := by
  unfold Base.dropHold
  split
  · split <;> rfl
  · rfl

theorem SLC_RSV_ADDR_ne_PRK_PEEK_IDX : Reg.SLC_RSV_ADDR i + off ≠ Reg.PRK_PEEK_IDX := by
  unfold Reg.SLC_RSV_ADDR Reg.PRK_PEEK_IDX
  omega

theorem rule_ne_PRK_PEEK_IDX : Reg.GRD_RULE_BASE g r + off ≠ Reg.PRK_PEEK_IDX := by
  unfold Reg.GRD_RULE_BASE Reg.PRK_PEEK_IDX
  omega

end

end Sys2Proof.Machine

/-- Settles O20: each write reaches its register's own rule; a commit goes by done, and a rule's words by its lock. -/
theorem orderingAndGuardWrites : Obligations.OrderingAndGuardWrites := by
  intro s w m h sl
  refine ⟨fun v hw hgo hdone => ?fence, fun i v hw => ?rsvAddr, fun i v n hr => ?wideRsvAddr, fun v hw hgo hkeep => ?commit,
    fun g r o v hw => ?rule, fun g r o v n hr hs hat hwh h0 hl => ?wideRule⟩
  case fence =>
    have ⟨_, hat, _⟩ := hw
    obtain ⟨hn, hi⟩ := regAt_SLC_FENCE sl.isLt hat
    have hp : Reg.SLC_FENCE sl.val ≠ Reg.PRK_PEEK_IDX := by
      unfold Reg.SLC_FENCE Reg.PRK_PEEK_IDX
      omega
    rw [exec_of_writes hw hp rfl, Mod.wordWrite_SLC_FENCE hn, hi, Mod.fenceGo_go hgo hdone]
    rfl
  case rsvAddr =>
    have ⟨_, hat, _⟩ := hw
    obtain ⟨hn, hi⟩ := regAt_SLC_RSV_ADDR sl.isLt i.isLt hat
    rw [exec_of_writes hw SLC_RSV_ADDR_ne_PRK_PEEK_IDX rfl, Mod.wordWrite_SLC_RSV_ADDR hn, Mod.rsvAddrWrite, hi]
    rfl
  case wideRsvAddr =>
    calc exec (.rsvAddrWrite w sl i true v) s
        = .next (s.run (fun m => m.rowWrite w (Reg.SLC_RSV_ADDR sl.val + 4 * i.val) true v.toNat)) := rfl
      _ = _ := by rw [State.run_wide hr _ SLC_RSV_ADDR_ne_PRK_PEEK_IDX]
  case commit =>
    have ⟨_, hat, _⟩ := hw
    rw [exec_of_writes hw (by decide) rfl, Mod.wordWrite_GRD_COMMIT (name_of_regAt regAt_GRD_COMMIT_name hat),
      Mod.grdCommitWrite_go hgo hkeep]
    exact ⟨fun hdone => by rw [Mod.commitGo_idle hdone], fun hdone => by rw [Mod.commitGo_busy hdone]⟩
  case rule =>
    have ⟨_, hat, _⟩ := hw
    obtain ⟨hn, hi1, hi2⟩ := regAt_rule g.isLt r.isLt o.isLt hat
    rw [exec_of_writes hw rule_ne_PRK_PEEK_IDX rfl, Mod.wordWrite_rule hn, hi1, hi2]
    refine ⟨fun hl => ?_, fun hl => by rw [Base.stageRule_locked hl]⟩
    rw [Base.stageRule_unlocked hl]
    rfl
  case wideRule =>
    obtain ⟨hn, hi1, hi2⟩ := regAt_rule g.isLt r.isLt o.isLt hat
    calc exec (.guardRuleWrite w g r o true v) s
        = .next (s.run (fun m => m.rowWrite w (Reg.GRD_RULE_BASE g.val r.val + 4 * o.val) true v.toNat)) := rfl
      _ = .next (s.ends (n.decodeWide w (Reg.GRD_RULE_BASE g.val r.val + 4 * o.val) v.toNat)) := by
        rw [State.run_wide hr _ rule_ne_PRK_PEEK_IDX]
      _ = _ := by
        rw [Mod.decodeWide_whole hat hwh h0 hs, Mod.pairWrite_rule hn hwh, hi1, hi2,
          Base.stageRule_unlocked ((Base.dropHold_ruleLocked _ _).trans hl)]
        rfl

namespace Sys2Proof.Machine

/-! ### The park window, guard commits and the debug master (R128, R129, R146, R148) -/

section
variable {m : Mod} {p off : Nat} {pasid : Option Nat} {data : List Byte} {ro : Bool} {b : Base}

/-- A store inside BAR2 of an endpoint in D0, at stage READY, goes to the park window (R128, R156, R327). -/
theorem Mod.bar2Store_reaches (hd : m.base.d3hot p = false) (hfit : off + data.length ≤ m.base.bar2Size p) (hst : m.base.stage = 6) :
    m.bar2Store p pasid off data ro false = m.windowStore p pasid off data ro := by
  simp only [Mod.bar2Store, hd, hst, Nat.not_lt.2 hfit, decide_false, Bool.or_self, bne_self_eq_false, Bool.false_eq_true, if_false]

theorem Mod.windowStore_allowed (hne : data ≠ [])
    (hg : m.base.guard (24 + p) (m.base.hostAccess p off data.length pasid false true) = (b, none)) :
    m.windowStore p pasid off data ro =
      Mod.mergeStoreN p (b.sliceOfPasid p pasid) ro (data.length / 64 + 2) { m with base := b } off data := by
  simp only [Mod.windowStore, List.isEmpty_eq_false_iff.2 hne, hg, Option.isSome_none, Bool.false_eq_true, if_false]

theorem Mod.windowStore_denied {e : Option Denial} (hne : data ≠ []) (he : e.isSome = true)
    (hg : m.base.guard (24 + p) (m.base.hostAccess p off data.length pasid false true) = (b, e)) :
    m.windowStore p pasid off data ro = { m with base := b.hostErr p 20 0 [] } := by
  simp only [Mod.windowStore, List.isEmpty_eq_false_iff.2 hne, hg, he, Bool.false_eq_true, if_false, if_true]

theorem Mod.bar2Access_read {len : Nat} (hd : m.base.d3hot p = false) (hfit : off + len ≤ m.base.bar2Size p) (hst : m.base.stage = 6) :
    m.bar2Access p pasid (.read off len) = m.windowAccess p pasid (.read off len) := by
  have hread : (PathAccess.read off len == PathAccess.control) = false := beq_eq_false_iff_ne.2 PathAccess.noConfusion
  simp only [Mod.bar2Access, hread, hd, hst, Nat.not_lt.2 hfit, decide_false, Bool.or_self, bne_self_eq_false, Bool.false_eq_true, if_false]

/-- The guard checks a read after the path's lines have drained (R129). -/
theorem Mod.windowAccess_read {len : Nat} (hg : (m.drainPath p).base.guard (24 + p)
      ((m.drainPath p).base.hostAccess p off len pasid true false) = (b, none)) :
    m.windowAccess p pasid (.read off len) =
      { m.drainPath p with
        base := (b.bursts 0x300 off len).emit
          (.cplData p ((m.drainPath p).dram.read off len) ((m.drainPath p).dram.poisoned off len)) } := by
  simp only [Mod.windowAccess, hg, Option.isSome_none, Bool.false_eq_true, if_false, Mod.performLoad]

theorem Mod.commitDone_waits {c : CommitRun} (hc : m.base.commit = some c) (hold : m.oldEpoch c.mask = true) :
    m.commitDone = { m with base := m.base.armIfIdle .guardCommit 0 } := by
  simp only [Mod.commitDone, hc, hold, if_true]

/-- A commit of a register's ends alone where no GUARD_COMMIT waits (R148, R149). -/
theorem Mod.commitDone_ends {c : CommitRun} (hc : m.base.commit = some c) (hold : m.oldEpoch c.mask = false)
    (hwait : m.base.commitWait = []) (hdesc : c.desc = none) :
    m.commitDone =
      { m with base := { ((m.base.wr Reg.GRD_COMMIT F.GRD_COMMIT_done 1).disarm .guardCommit) with commit := none } } := by
  have hrest : ((m.base.wr Reg.GRD_COMMIT F.GRD_COMMIT_done 1).disarm .guardCommit).commitWait = [] := hwait
  simp only [Mod.commitDone, hc, hold, hdesc, hrest, Bool.false_eq_true, if_false]

theorem Mod.debugAccess_closed {wr wide : Bool} {addr v : Nat} (h : (m.pl.dieOn && m.pl.debugOpen) = false) :
    m.debugAccess wr addr wide v = m.debugError := by
  have hclosed : (!m.pl.dieOn || !m.pl.debugOpen) = true := by rw [← Bool.not_and, h, Bool.not_false]
  simp only [Mod.debugAccess, hclosed, if_true]

/-- Below the control window the debug master meets memory (R141). -/
theorem Mod.debugAccess_memory {wr wide : Bool} {addr v : Nat} (hon : m.pl.dieOn = true) (hopen : m.pl.debugOpen = true)
    (hlo : addr < ctlAddr 0) : m.debugAccess wr addr wide v = m.debugMem wr addr (if wide then 8 else 4) v := by
  simp only [Mod.debugAccess, hon, hopen, Nat.not_le.2 hlo, Bool.not_true, Bool.or_self, decide_false, Bool.false_and,
    Bool.false_eq_true, if_false]

/-- A read of park DRAM that guard 40 allows, from READY on and outside M2, of words that are not poisoned (R146). -/
theorem Mod.debugMem_read {addr len v : Nat} (hlo : addr < mgmtAddr 0) (hst : b.stage = 6) (hm2 : m.pl.m2 = 0)
    (hg : m.base.guard 40 { space := 0, addr := addr, len := len, rd := true, wr := false, secure := true, ident := 40 } = (b, none))
    (hgood : m.dram.poisoned addr len = false) :
    m.debugMem false addr len v =
      { m with base := (b.bursts 0x300 addr len).emit (.debug (some (BitVec.ofNat 64 (leNat (m.dram.read addr len))))) } := by
  simp only [Mod.debugMem, Bool.not_false, hg, Nat.not_le.2 hlo, hst, hm2, hgood, bne_self_eq_false, Bool.or_self, Bool.false_eq_true,
    if_false, Mod.performLoad]

end

end Sys2Proof.Machine

/-- Settles O35: a window access by its guard, a commit by the frames of an old epoch, the debug master by its being open. -/
theorem orderingAndGuardCommands : Obligations.OrderingAndGuardCommands := by
  intro s m p
  refine ⟨fun pasid off data b e hm hd hfit hst hne hg => ⟨fun he => ?stored, fun he => ?denied⟩,
    fun pasid off len b hm hd hfit hst hg => ?loaded, fun hm => by rw [exec_of_coreDue hm rfl],
    fun sl hm => by rw [exec_of_coreDue hm rfl], fun c hm hc hold => ?commitWaits, fun c hm hc hold hwait hdesc => ?commitEnds,
    fun g hm => ?parity,
    fun addr wr wide v hm => ⟨fun hclosed => ?closed, fun b hon hopen hctl hmgmt hst hm2 hg hgood => ?debugRead⟩⟩
  case stored =>
    subst he
    rw [exec_of_coreIs hm rfl, Mod.bar2Store_reaches hd hfit hst, Mod.windowStore_allowed hne hg]
  case denied => rw [exec_of_coreIs hm rfl, Mod.bar2Store_reaches hd hfit hst, Mod.windowStore_denied hne he hg]
  case loaded => rw [exec_of_coreIs hm rfl, Mod.bar2Access_read hd hfit hst, Mod.windowAccess_read hg]
  case commitWaits => rw [exec_of_coreDue hm rfl, Mod.commitDone_waits hc hold]
  case commitEnds => rw [exec_of_coreDue hm rfl, Mod.commitDone_ends hc hold hwait hdesc]
  case parity =>
    rw [exec_of_coreIs hm rfl]
    rfl
  case closed =>
    rw [exec_of_powerIs hm rfl, Mod.debugAccess_closed hclosed]
    rfl
  case debugRead => rw [exec_of_powerIs hm rfl, Mod.debugAccess_memory hon hopen hctl, Mod.debugMem_read hmgmt hst hm2 hg hgood]

end

section
/-! PROOFS of the statements of spec/07_guards.md: an access that hangs, is denied, is not made or finds the plinth alone (R150, R156,
R327, R370), the decision of a guard (R143, R144), and the staged and active rules (R145, R147, R148). Before each statement stand the
lemmas that say what the functions it speaks of do in each case. -/

open Sys2Proof Sys2Proof.Machine

namespace Sys2Proof.Machine

/-! ### Accesses that do not reach the decoder (R150, R156, R327, R370) -/

section
variable {s : State} {m : Mod} {w : Who} {off len v : Nat} {wide : Bool}

theorem State.asks_of_hangs (h : s.hangs w off = true) : s.asks w = true :=
  (Bool.and_eq_true_iff.1 h).1

theorem State.asks_of_denies {wr : Bool} (h : s.denies w off len wr = true) : s.asks w = true := by
  simp only [State.denies, Bool.and_eq_true] at h
  exact h.1.1

/-- The command of a write whose accessor can make it is that access. -/
theorem exec_registerWrite_asks {v : W64} (h : s.asks w = true) :
    exec (.registerWrite w off wide v) s =
      .next (s.ends (s.mod.begun.writeAccess w off (if wide then 8 else 4) none v.toNat)) := by
  calc exec (.registerWrite w off wide v) s
      = .next (s.run (fun m => m.rowWrite w off wide v.toNat)) := rfl
    _ = _ := by rw [State.run_powered s _ (State.powered_of_asks h), Mod.rowWrite_asks h, Mod.regWrite]

theorem Mod.writeAccess_hangs (h : s.hangs w off = true) :
    s.mod.begun.writeAccess w off len none v =
      { s.drained w with base := { (s.drained w).base with hung := (s.drained w).base.hung ++ [(w, off, true)] } } := by
  rw [Mod.writeAccess, State.reach_hangs len true h]

theorem Mod.writeAccess_denied (h : s.denies w off len true = true) :
    s.mod.begun.writeAccess w off len none v =
      { s.found w off len true with base := (s.found w off len true).base.deniedAccess w true } := by
  rw [Mod.writeAccess, State.reach_denied h]

/-- A host's write to its endpoint in D3hot is not made: it is posted, so nothing but the endpoint's report tells of it (R156). -/
theorem Mod.rowWrite_d3hot {p : Fin 8} (hon : m.pl.dieOn = true) (hst : m.base.stage ≠ 8) (hm2 : m.pl.m2 ≠ 2)
    (hd : m.base.d3hot p.val = true) :
    m.rowWrite (.host p) off wide v = { m with base := m.base.hostErr p.val 20 0 [] } := by
  have hcan : m.canAccess (.host p) = false := by simp [Mod.canAccess, hd]
  have hlive : (m.pl.dieOn && m.base.stage != 8 && m.pl.m2 != 2) = true := by simp [hon, hst, hm2]
  have hhost : (Who.host p == Who.smbus) = false := beq_eq_false_iff_ne.2 Who.noConfusion
  simp only [Mod.rowWrite, hhost, Bool.false_and, hcan, Bool.false_eq_true, if_false, Mod.notMade, hlive, if_true, Base.answerError]

theorem Mod.rowWrite_plinth (hm : m.plinthOnly = true) :
    m.rowWrite .smbus off wide v = if (inPwr off && off % 4 == 0 && !wide) = true then m.decodeWrite .smbus off v else m.nack := by
  simp only [Mod.rowWrite, beq_self_eq_true, hm, Bool.and_self, if_true]

theorem Mod.rowWrite_plinth_pwr (hm : m.plinthOnly = true) (hin : inPwr off = true) (hal : off % 4 = 0) :
    m.rowWrite .smbus off false v = m.decodeWrite .smbus off v := by
  rw [Mod.rowWrite_plinth hm, if_pos (by simp [hin, hal])]

theorem Mod.rowWrite_plinth_elsewhere (hm : m.plinthOnly = true) (hout : inPwr off = false) :
    m.rowWrite .smbus off wide v = { m with base := m.base.emit .nack } := by
  rw [Mod.rowWrite_plinth hm, if_neg (by simp [hout]), Mod.nack]

theorem State.dieIs.stage_ne (h : s.dieIs m) : m.base.stage ≠ 8 := by
  obtain ⟨hlive, rfl⟩ := h
  exact ((State.dieLive_iff s).1 hlive).2.2

theorem State.dieIs.powerIs (h : s.dieIs m) : s.powerIs m :=
  ⟨((State.dieLive_iff s).1 h.1).1, h.2⟩

end

end Sys2Proof.Machine

/-- Settles O27: a hang and a denial on the way to the decoder, D3hot and the plinth alone before the way begins. -/
theorem accessesThatDoNotReachTheDecoder : Obligations.AccessesThatDoNotReachTheDecoder := by
  intro s w off wide v m
  refine ⟨fun hh => ?hangs, fun hd => ?denied, fun p hm hm2 hd => ?d3hot,
    fun hm hpl => ⟨fun hin hal => ?pwr, fun hout => ?elsewhere⟩⟩
  case hangs => rw [exec_registerWrite_asks (State.asks_of_hangs hh), Mod.writeAccess_hangs hh]
  case denied => rw [exec_registerWrite_asks (State.asks_of_denies hd), Mod.writeAccess_denied hd]
  case d3hot => rw [exec_of_powerIs hm.powerIs rfl, Mod.rowWrite_d3hot hm.dieOn hm.stage_ne hm2 hd]
  case pwr => rw [exec_of_powerIs hm rfl, Mod.rowWrite_plinth_pwr hpl hin hal]
  case elsewhere => rw [exec_of_powerIs hm rfl, Mod.rowWrite_plinth_elsewhere hpl hout]

namespace Sys2Proof.Machine

/-! ### A guard's decision (R143, R144) -/

section
variable {b : Base} {g r : Nat} {x : Access}

theorem Base.guardDecide_parity (hp : b.isSet (Reg.GRD_STATUS g) F.GRD_STATUS_parity = true) : b.guardDecide g x = some ⟨6, 0x40⟩ :=
  if_pos hp

theorem Base.guardDecide_badKeystone (hp : b.isSet (Reg.GRD_STATUS g) F.GRD_STATUS_parity = false) (hk : x.badKs = true) :
    b.guardDecide g x = some ⟨5, 0x40⟩ := by
  simp only [Base.guardDecide, hp, hk, Bool.false_eq_true, if_false, if_true]

theorem Base.guardDecide_outOfBounds (hp : b.isSet (Reg.GRD_STATUS g) F.GRD_STATUS_parity = false) (hk : x.badKs = false) (hg : g < 20)
    (hb : x.bounds = false) : b.guardDecide g x = some ⟨7, 0x40⟩ := by
  simp [Base.guardDecide, hp, hk, hg, hb]

/-- Past parity, identity and bounds the rules decide. -/
theorem Base.guardDecide_rules (hp : b.isSet (Reg.GRD_STATUS g) F.GRD_STATUS_parity = false) (hk : x.badKs = false)
    (hb : g < 20 → x.bounds = true) :
    b.guardDecide g x =
      ((List.range 64).find? (fun r => b.ruleMatches g r x)).elim (some ⟨0, 0x40⟩) (fun r => b.ruleVerdict g r x) := by
  have hin : (decide (g < 20) && !x.bounds) = false := by simpa using hb
  simp only [Base.guardDecide, hp, hk, hin, Bool.false_eq_true, if_false]
  cases (List.range 64).find? (fun r => b.ruleMatches g r x) <;> rfl

/-- The search of the rules stops at the first that matches. -/
theorem Base.firstMatch_eq (hr : r < 64) (hm : b.ruleMatches g r x = true) (hfirst : ∀ r', r' < r → b.ruleMatches g r' x = false) :
    (List.range 64).find? (fun r => b.ruleMatches g r x) = some r :=
  List.find?_range_eq_some.2 ⟨hm, List.mem_range.2 hr, fun r' h => by rw [hfirst r' h, Bool.not_false]⟩

theorem Base.firstMatch_none (hnone : ∀ r, r < 64 → b.ruleMatches g r x = false) :
    (List.range 64).find? (fun r => b.ruleMatches g r x) = none :=
  List.find?_range_eq_none.2 (fun r h => by rw [hnone r h, Bool.not_false])

theorem Base.ruleVerdict_deny (hd : bitOf (b.ruleAttr g r) 3 = true) : b.ruleVerdict g r x = some ⟨1, r⟩ :=
  if_pos hd

section
variable (hd : bitOf (b.ruleAttr g r) 3 = false)
include hd

theorem Base.ruleVerdict_locked (hl : bitOf (b.ruleAttr g r) 31 = true) (hg : g = 40)
    (hs : b.rd Reg.CLK_LC_STATE F.CLK_LC_STATE_state ≠ 1) : b.ruleVerdict g r x = some ⟨4, r⟩ := by
  subst hg
  simp [Base.ruleVerdict, hd, hl, hs]

variable (hl : bitOf (b.ruleAttr g r) 31 = false ∨ g ≠ 40 ∨ b.rd Reg.CLK_LC_STATE F.CLK_LC_STATE_state = 1)
include hl

/-- A rule that neither denies nor is locked against the debug master goes by world and kind. -/
theorem Base.ruleVerdict_open :
    b.ruleVerdict g r x =
      if (if x.secure then bitOf (b.ruleAttr g r) 4 else bitOf (b.ruleAttr g r) 5) = false then some ⟨2, r⟩
      else if (x.rd && !bitOf (b.ruleAttr g r) 1 || x.wr && !bitOf (b.ruleAttr g r) 2) = true then some ⟨3, r⟩
      else none := by
  have hopen : (bitOf (b.ruleAttr g r) 31 && g == 40 && b.rd Reg.CLK_LC_STATE F.CLK_LC_STATE_state != 1) = false := by
    rcases hl with h | h | h <;> simp [h]
  simp only [Base.ruleVerdict, hd, hopen, Bool.false_eq_true, if_false]
  cases x.secure <;> simp

theorem Base.ruleVerdict_world (hw : (if x.secure then bitOf (b.ruleAttr g r) 4 else bitOf (b.ruleAttr g r) 5) = false) :
    b.ruleVerdict g r x = some ⟨2, r⟩ := by
  rw [Base.ruleVerdict_open hd hl, if_pos hw]

variable (hw : (if x.secure then bitOf (b.ruleAttr g r) 4 else bitOf (b.ruleAttr g r) 5) = true)
include hw

theorem Base.ruleVerdict_kind
    (hk : (x.rd = true ∧ bitOf (b.ruleAttr g r) 1 = false) ∨ (x.wr = true ∧ bitOf (b.ruleAttr g r) 2 = false)) :
    b.ruleVerdict g r x = some ⟨3, r⟩ := by
  rw [Base.ruleVerdict_open hd hl, if_neg (ne_false_of_eq_true hw), if_pos (by simpa using hk)]

theorem Base.ruleVerdict_allow (hrd : x.rd = true → bitOf (b.ruleAttr g r) 1 = true)
    (hwr : x.wr = true → bitOf (b.ruleAttr g r) 2 = true) : b.ruleVerdict g r x = none := by
  rw [Base.ruleVerdict_open hd hl, if_neg (ne_false_of_eq_true hw), if_neg (by simpa using ⟨hrd, hwr⟩)]

end

/-- The first and last byte of an access lie in a range exactly when every byte does. -/
theorem span_iff_bytes {lo hi a n : Nat} (hn : 0 < n) :
    (lo ≤ a ∧ a + max n 1 - 1 ≤ hi) ↔ ∀ i, i < n → lo ≤ a + i ∧ a + i ≤ hi := by
  constructor
  · rintro ⟨hlo, hhi⟩ i hi'
    omega
  · intro h
    have hfirst := h 0 hn
    have hlast := h (n - 1) (by omega)
    omega

/-- The six conditions of R143. -/
theorem Base.ruleMatches_iff (hlen : 0 < x.len) :
    b.ruleMatches g r x = true ↔
      bitOf (b.ruleAttr g r) 0 = true ∧ b.ruleBad g r = false ∧
      (bits (b.ruleAttr g r) ⟨6, 2⟩ = x.space ∧ x.space ≠ 3) ∧
      (x.space ≠ 0 → bitOf (b.ruleAttr g r) 18 = true ∨ bits (b.ruleAttr g r) ⟨8, 6⟩ = x.sel) ∧
      (∀ i, i < x.len →
        b.act64 (Reg.GRD_RULE_BASE g r) / 4096 * 4096 ≤ x.addr + i ∧
        x.addr + i ≤ b.act64 (Reg.GRD_RULE_LIMIT g r) / 4096 * 4096 + 0xFFF) ∧
      (bitOf (b.ruleAttr g r) 14 = true → x.pasid = some (bits (b.act64 (Reg.GRD_RULE_MATCH g r)) ⟨0, 20⟩)) ∧
      (bitOf (b.ruleAttr g r) 15 = true → x.slice = bits (b.act64 (Reg.GRD_RULE_MATCH g r)) ⟨20, 10⟩) ∧
      (bitOf (b.ruleAttr g r) 16 = true → x.ident = bits (b.act64 (Reg.GRD_RULE_MATCH g r)) ⟨30, 6⟩) := by
  rw [← span_iff_bytes hlen]
  simp only [Base.ruleMatches, Bool.and_eq_true, Bool.or_eq_true, Bool.not_eq_true', beq_iff_eq, bne_iff_ne, decide_eq_true_eq,
    and_assoc, or_assoc, ← Bool.not_eq_true, ← imp_iff_not_or, ne_eq, ← or_iff_not_imp_left, eq_comm (a := x.slice),
    eq_comm (a := x.ident)]

end

end Sys2Proof.Machine

/-- Settles O55: each check of R143 before the rules, the first rule that matches by its verdict, and the conditions of a match. -/
theorem guardsDecideByTheFirstRule : Obligations.GuardsDecideByTheFirstRule := by
  intro b g x
  refine ⟨fun hp => Base.guardDecide_parity hp, fun hp hk => Base.guardDecide_badKeystone hp hk,
    fun hp hk hg hb => Base.guardDecide_outOfBounds hp hk hg hb, fun hp hk hb => ⟨fun r hr hm hfirst => ?verdict, fun hnone => ?noMatch⟩,
    fun r hlen => Base.ruleMatches_iff hlen⟩
  case verdict =>
    rw [Base.guardDecide_rules hp hk hb, Base.firstMatch_eq hr hm hfirst, Option.elim_some]
    exact ⟨fun hd => Base.ruleVerdict_deny hd, fun hd =>
      ⟨fun hl hg hs => Base.ruleVerdict_locked hd hl hg hs, fun hl =>
        ⟨fun hw => Base.ruleVerdict_world hd hl hw, fun hw hk => Base.ruleVerdict_kind hd hl hw hk,
          fun hw hrd hwr => Base.ruleVerdict_allow hd hl hw hrd hwr⟩⟩⟩
  case noMatch => rw [Base.guardDecide_rules hp hk hb, Base.firstMatch_none hnone, Option.elim_none]

namespace Sys2Proof.Machine

/-! ### Staged and active rules (R145, R147, R148) -/

section
variable {g h r r' c : Nat}

/-- A rule's words stand in the 0x20 bytes of its own, in the page of its guard. -/
theorem ruleWords_span (hc : c ∈ ruleWords g r) : Reg.GRD_RULE_BASE g r ≤ c ∧ c < Reg.GRD_RULE_BASE g r + 0x20 := by
  simp only [ruleWords, List.mem_cons, List.not_mem_nil, or_false, Reg.GRD_RULE_BASE, Reg.GRD_RULE_LIMIT, Reg.GRD_RULE_ATTR,
    Reg.GRD_RULE_MATCH] at hc ⊢
  omega

theorem ruleAttr_mem_ruleWords : Reg.GRD_RULE_ATTR g r ∈ ruleWords g r := by
  simp [ruleWords]

/-- No word is one of two rules. -/
theorem ruleWords_apart (hr : r < 64) (hr' : r' < 64) (hc : c ∈ ruleWords g r) (hc' : c ∈ ruleWords h r') : g = h ∧ r = r' := by
  have hspan := ruleWords_span hc
  have hspan' := ruleWords_span hc'
  unfold Reg.GRD_RULE_BASE at hspan hspan'
  omega

theorem ne_GRD_STATUS_of_mem_ruleWords (hr : r < 64) (hc : c ∈ ruleWords h r) : Reg.GRD_STATUS g ≠ c := by
  have hspan := ruleWords_span hc
  unfold Reg.GRD_RULE_BASE at hspan
  unfold Reg.GRD_STATUS
  omega

theorem ne_CLK_LC_STATE_of_mem_ruleWords (hc : c ∈ ruleWords h r) : Reg.CLK_LC_STATE ≠ c := by
  have hspan := ruleWords_span hc
  unfold Reg.GRD_RULE_BASE at hspan
  unfold Reg.CLK_LC_STATE
  omega

end

theorem Base.rd_setWord_ne (b : Base) {a c : Nat} (v : W32) (f : Fld) (hne : c ≠ a) (hf : f.lo + f.w ≤ 32) :
    (b.setWord a v).rd c f = b.rd c f := by
  unfold Base.rd
  rw [if_pos hf, if_pos hf, Base.word_setWord_ne b v hne]

/-- A check reads of the registers only the guard's parity flag and the life cycle; its rules are the active ones. -/
theorem Base.guardDecide_congr {b b' : Base} {g : Nat} {x : Access} (hact : b'.act = b.act)
    (hpar : b'.rd (Reg.GRD_STATUS g) F.GRD_STATUS_parity = b.rd (Reg.GRD_STATUS g) F.GRD_STATUS_parity)
    (hlc : b'.rd Reg.CLK_LC_STATE F.CLK_LC_STATE_state = b.rd Reg.CLK_LC_STATE F.CLK_LC_STATE_state) :
    b'.guardDecide g x = b.guardDecide g x := by
  unfold Base.guardDecide Base.isSet Base.ruleMatches Base.ruleVerdict Base.ruleBad Base.ruleAttr Base.act64
  rw [hact, hpar, hlc]

theorem RegFile.get0_set (f : RegFile) (a c : Nat) (v : W32) : (f.set a v).get0 c = if c = a then v else f.get0 c := by
  rw [RegFile.get0, RegFile.lookup_set, apply_ite (Option.getD · 0#32)]
  rfl

/-- What a commit makes of word `a` of rule `r`: the staged word, whose bad bit is no staged field. -/
def Base.stagedWord (b : Base) (g r a : Nat) : W32 :=
  if a = Reg.GRD_RULE_ATTR g r then b.word a &&& ~~~(BitVec.ofNat 32 (2 ^ 17)) else b.word a

/-- One word of a rule becomes active. -/
def Base.activateWord (g r : Nat) (b : Base) (a : Nat) : Base :=
  if b.act.get0 a = b.stagedWord g r a then b else { b with act := b.act.set a (b.stagedWord g r a) }

/-- One rule becomes active, unless it is locked. -/
def Base.activateRule (g : Nat) (b : Base) (r : Nat) : Base :=
  if b.ruleLocked g r then b else (ruleWords g r).foldl (Base.activateWord g r) b

theorem Base.activate_eq (b : Base) (g : Nat) : b.activate g false = (List.range 64).foldl (Base.activateRule g) b := by
  unfold Base.activate
  simp only [Bool.not_false, Bool.and_true]
  rfl

section
variable {b b' : Base} {g r r' c : Nat}

theorem Base.activateWord_regs (a : Nat) : (b.activateWord g r a).regs = b.regs := by
  unfold Base.activateWord
  split <;> rfl

theorem Base.activateWord_get0 (a : Nat) :
    (b.activateWord g r a).act.get0 c = if c = a then b.stagedWord g r c else b.act.get0 c := by
  unfold Base.activateWord
  split
  case isTrue heq =>
    split
    case isTrue hca => rw [hca, heq]
    case isFalse => rfl
  case isFalse =>
    rw [RegFile.get0_set]
    split
    case isTrue hca => rw [hca]
    case isFalse => rfl

theorem Base.stagedWord_congr (hregs : b'.regs = b.regs) : b'.stagedWord g r c = b.stagedWord g r c := by
  simp only [Base.stagedWord, Base.word, hregs]

theorem Base.activateWords_regs (as : List Nat) : (as.foldl (Base.activateWord g r) b).regs = b.regs := by
  induction as generalizing b with
  | nil => rfl
  | cons a as ih => rw [List.foldl_cons, ih, Base.activateWord_regs]

theorem Base.activateWords_get0 (as : List Nat) :
    (as.foldl (Base.activateWord g r) b).act.get0 c = if c ∈ as then b.stagedWord g r c else b.act.get0 c := by
  induction as generalizing b with
  | nil => rfl
  | cons a as ih =>
    rw [List.foldl_cons, ih, Base.stagedWord_congr (Base.activateWord_regs a), Base.activateWord_get0]
    by_cases hc : c = a <;> simp [hc]

theorem Base.activateRule_regs : (b.activateRule g r).regs = b.regs := by
  unfold Base.activateRule
  split
  case isTrue => rfl
  case isFalse => exact Base.activateWords_regs _

/-- The words of an unlocked rule take their staged values, and every other active word stands. -/
theorem Base.activateRule_get0 :
    (b.activateRule g r).act.get0 c =
      if b.ruleLocked g r = false ∧ c ∈ ruleWords g r then b.stagedWord g r c else b.act.get0 c := by
  unfold Base.activateRule
  cases hl : b.ruleLocked g r with
  | true => simp
  | false => simp [Base.activateWords_get0]

theorem Base.activateRule_get0_outside (hc : c ∉ ruleWords g r) : (b.activateRule g r).act.get0 c = b.act.get0 c := by
  rw [Base.activateRule_get0, if_neg (fun h => hc h.2)]

/-- Rules leave the active words that are none of theirs. -/
theorem Base.activateRules_get0_outside {rs : List Nat} (hc : ∀ r ∈ rs, c ∉ ruleWords g r) :
    (rs.foldl (Base.activateRule g) b).act.get0 c = b.act.get0 c := by
  induction rs generalizing b with
  | nil => rfl
  | cons r rs ih =>
    obtain ⟨hr, hrs⟩ := List.forall_mem_cons.1 hc
    rw [List.foldl_cons, ih hrs, Base.activateRule_get0_outside hr]

/-- Another rule's coming first changes nothing for a word of rule `r`: neither its lock, nor its staged word, nor its active one. -/
theorem Base.activateRule_get0_comm (hr : r < 64) (hr' : r' < 64) (hne : r ≠ r') (hc : c ∈ ruleWords g r) :
    ((b.activateRule g r').activateRule g r).act.get0 c = (b.activateRule g r).act.get0 c := by
  have hout : ∀ a ∈ ruleWords g r, (b.activateRule g r').act.get0 a = b.act.get0 a := fun a ha =>
    Base.activateRule_get0_outside (fun ha' => hne (ruleWords_apart hr hr' ha ha').2)
  have hlock : (b.activateRule g r').ruleLocked g r = b.ruleLocked g r := by
    rw [Base.ruleLocked, Base.ruleLocked, Base.ruleAttr, Base.ruleAttr, hout _ ruleAttr_mem_ruleWords]
  rw [Base.activateRule_get0 (r := r), Base.activateRule_get0 (r := r), hlock, Base.stagedWord_congr Base.activateRule_regs, hout c hc]

/-- Of rules that come once each, rule `r` alone decides its words. -/
theorem Base.activateRules_get0 {rs : List Nat} (hrs : rs.Nodup) (hlt : ∀ r ∈ rs, r < 64) (hr : r ∈ rs) (hc : c ∈ ruleWords g r) :
    (rs.foldl (Base.activateRule g) b).act.get0 c = (b.activateRule g r).act.get0 c := by
  induction rs generalizing b with
  | nil => exact absurd hr List.not_mem_nil
  | cons r' rs ih =>
    obtain ⟨hnot, hnodup⟩ := List.nodup_cons.1 hrs
    obtain ⟨hr'64, hlt'⟩ := List.forall_mem_cons.1 hlt
    rw [List.foldl_cons]
    rcases List.mem_cons.1 hr with rfl | hmem
    · exact Base.activateRules_get0_outside (fun q hq hcq => hnot ((ruleWords_apart hr'64 (hlt' q hq) hc hcq).2 ▸ hq))
    · have hne : r ≠ r' := fun he => hnot (he ▸ hmem)
      rw [ih hnodup hlt' hmem, Base.activateRule_get0_comm (hlt' r hmem) hr'64 hne hc]

/-- A commit gives the words of a rule their staged values, unless the rule is locked (R145, R148). -/
theorem Base.activate_get0 (hr : r < 64) (hc : c ∈ ruleWords g r) :
    (b.activate g false).act.get0 c = if b.ruleLocked g r = false then b.stagedWord g r c else b.act.get0 c := by
  rw [Base.activate_eq, Base.activateRules_get0 List.nodup_range (fun _ => List.mem_range.1) (List.mem_range.2 hr) hc,
    Base.activateRule_get0]
  simp only [hc, and_true]

end

end Sys2Proof.Machine

/-- Settles O56: a check reads no staged word, a rule of the guard by its lock, and no other guard's words are among the guard's. -/
theorem stagedRulesActAtACommit : Obligations.StagedRulesActAtACommit := by
  refine ⟨fun b g r off v x h _ _ hr hoff => ?staged, fun b g r off _ hr hoff => ⟨fun hl => ?locked, fun hl => ?unlocked⟩,
    fun b g h r off _ _ hne hr hoff => ?otherGuard⟩
  case staged =>
    exact Base.guardDecide_congr rfl (Base.rd_setWord_ne b v _ (ne_GRD_STATUS_of_mem_ruleWords hr hoff) (by decide))
      (Base.rd_setWord_ne b v _ (ne_CLK_LC_STATE_of_mem_ruleWords hoff) (by decide))
  case locked => rw [Base.activate_get0 hr hoff, if_neg (ne_false_of_eq_true hl)]
  case unlocked =>
    rw [Base.activate_get0 hr hoff, if_pos hl]
    rfl
  case otherGuard =>
    rw [Base.activate_eq]
    exact Base.activateRules_get0_outside (fun q hq hoff' => hne (ruleWords_apart (List.mem_range.1 hq) hr hoff' hoff).1)
end

section
/-! PROOFS of the statements of spec/08_control_endpoint.md: the writes of a slice's doorbells and of the configuration of its queue pairs
and event ring (R161, R167, R173, R191), and what a host's use of configuration space does (R178 to R180, R206, R211, R212, R216, R219,
R332). Before each statement stand the lemmas that say what the functions it speaks of do in each case. -/

open Sys2Proof Sys2Proof.Machine

namespace Sys2Proof.Machine

/-! ### The registers of a slice's page -/

section
variable {r : RegRow} {x : RegHit} {i j d k : Nat} {n : RegName}

/-- A row of SLC stands above the slots' own registers, once for the pool of slices, or in the page of 0x1000 bytes of every slice. -/
theorem rowsSLC_poolOrPaged : ∀ r ∈ rowsSLC, (0x2400ec0 ≤ r.base ∧ r.ends ≤ 0x2401000) ∨
    (r.s1 = 0x1000 ∧ r.n1 = 1024 ∧ 0x2400000 ≤ r.base ∧ r.hodEnd ≤ 0x2401000) := by
  decide

theorem RegRow.hit_eq_none_of_outside {a : Nat} (ha : a < r.base ∨ r.ends ≤ a) : r.hit a = none := by
  refine Option.eq_none_iff_forall_ne_some.2 (fun x hx => ?_)
  have hlo := RegRow.base_le_of_hit hx
  have hhi := RegRow.lt_ends_of_hit hx
  omega

/-- A row that repeats from page to page is hit in slice `i`'s page as it is in slice 0's. -/
theorem RegRow.hit_slicePage (h1 : r.s1 = 0x1000) (hn1 : r.n1 = 1024) (hbase : 0x2400000 ≤ r.base) (hend : r.hodEnd ≤ 0x2401000)
    (hi : i < 1024) (hd : d < 0x1000) :
    r.hit (0x2400000 + i * 0x1000 + d) = (r.hit (0x2400000 + d)).map (fun x => { x with i1 := i }) := by
  by_cases hlt : 0x2400000 + d < r.base
  case pos =>
    rw [show r.hit (0x2400000 + d) = none from if_pos hlt]
    refine Option.eq_none_iff_forall_ne_some.2 (fun x hx => ?_)
    have hlo := RegRow.base_le_of_hit hx
    have hin := RegRow.lt_hodEnd_of_hit (by omega) hx
    rw [h1] at hin
    omega
  case neg =>
    have hq : (0x2400000 + i * 0x1000 + d - r.base) / 0x1000 = i := by omega
    have hq0 : (0x2400000 + d - r.base) / 0x1000 = 0 := by omega
    have hm : (0x2400000 + i * 0x1000 + d - r.base) % 0x1000 = (0x2400000 + d - r.base) % 0x1000 := by omega
    simp only [RegRow.hit, h1, hn1, hq, hq0, hm, hi, hlt, show ¬0x2400000 + i * 0x1000 + d < r.base by omega, if_false,
      show ¬(0x1000 = 0) by decide, show 0 < 1024 by decide, true_and]
    split_ifs <;> rfl

/-- Below the registers of the pool, slice `i`'s page holds what slice 0's does (R378). -/
theorem regAt_slicePage (hi : i < 1024) (hd : d < 0xec0) :
    regAt (0x2400000 + i * 0x1000 + d) = (regAt (0x2400000 + d)).map (fun x => { x with i1 := i }) := by
  have hblock : ∀ i < 1024, blockRows (0x2400000 + i * 0x1000 + d) = rowsSLC := by
    intro i hi
    unfold blockRows
    iterate 13 rw [if_neg (by omega)]
    exact if_pos (by omega)
  have hblock0 : blockRows (0x2400000 + d) = rowsSLC := by
    simpa using hblock 0 (by omega)
  rw [regAt, regAt, hblock i hi, hblock0, List.map_findSome?, ← List.head?_filterMap, ← List.head?_filterMap]
  refine congrArg List.head? (List.filterMap_congr (fun r hr => ?_))
  obtain ⟨hlo, hhi⟩ | ⟨h1, hn1, hbase, hend⟩ := rowsSLC_poolOrPaged r hr
  · rw [RegRow.hit_eq_none_of_outside (by omega), Function.comp_apply, RegRow.hit_eq_none_of_outside (by omega), Option.map_none]
  · exact RegRow.hit_slicePage h1 hn1 hbase hend hi (by omega)

/-- The name and inner index of a register of slice `i`, read off slice 0's page. -/
theorem name_of_regAt_slicePage (hi : i < 1024) (hd : d < 0xec0)
    (h0 : (regAt (0x2400000 + d)).map (fun x => (x.row.name, x.i2)) = some (n, k)) (hat : regAt (0x2400000 + i * 0x1000 + d) = some x) :
    x.row.name = n ∧ x.i1 = i ∧ x.i2 = k := by
  rw [regAt_slicePage hi hd] at hat
  obtain ⟨y, hy, rfl⟩ := Option.map_eq_some_iff.1 hat
  rw [hy, Option.map_some, Option.some_inj, Prod.mk.injEq] at h0
  exact ⟨h0.1, rfl, h0.2⟩

theorem regAt_SLC_SQ_DB_first : ∀ q : Fin 64,
    (regAt (0x2400000 + q.val * 8)).map (fun x => (x.row.name, x.i2)) = some (.SLC_SQ_DB, q.val) := by
  decide +kernel

theorem regAt_SLC_CQ_DB_first : ∀ q : Fin 64,
    (regAt (0x2400000 + (4 + q.val * 8))).map (fun x => (x.row.name, x.i2)) = some (.SLC_CQ_DB, q.val) := by
  decide +kernel

theorem regAt_SLC_EQ_DB_first : (regAt (0x2400000 + 0x200)).map (fun x => (x.row.name, x.i2)) = some (.SLC_EQ_DB, 0) := by
  decide +kernel

theorem regAt_SLC_QP_CFG_first : ∀ q : Fin 64,
    (regAt (0x2400000 + (0x410 + q.val * 0x20))).map (fun x => (x.row.name, x.i2)) = some (.SLC_QP_CFG, q.val) := by
  decide +kernel

theorem regAt_SLC_EQ_CFG_first : (regAt (0x2400000 + 0xc08)).map (fun x => (x.row.name, x.i2)) = some (.SLC_EQ_CFG, 0) := by
  decide +kernel

end

/-! ### Doorbells and ring configuration are written (R161, R167, R173) -/

section
variable {s : State} {m : Mod} {w : Who} {c : Instr} {h : RegHit} {off i j d k v : Nat} {n : RegName}

theorem Mod.wordWrite_SLC_SQ_DB (hn : h.row.name = .SLC_SQ_DB) : m.wordWrite w off h v = m.doorbell w h.i1 h.i2 (v % 65536) := by
  unfold Mod.wordWrite
  rw [hn]

theorem Mod.wordWrite_SLC_CQ_DB (hn : h.row.name = .SLC_CQ_DB) : m.wordWrite w off h v = m.doorbell w h.i1 (64 + h.i2) (v % 65536) := by
  unfold Mod.wordWrite
  rw [hn]

theorem Mod.wordWrite_SLC_EQ_DB (hn : h.row.name = .SLC_EQ_DB) : m.wordWrite w off h v = m.doorbell w h.i1 128 (v % 65536) := by
  unfold Mod.wordWrite
  rw [hn]

theorem Mod.wordWrite_SLC_QP_CFG (hn : h.row.name = .SLC_QP_CFG) : m.wordWrite w off h v = m.qpCfgWrite w h.i1 h.i2 v := by
  unfold Mod.wordWrite
  rw [hn]

theorem Mod.wordWrite_SLC_EQ_CFG (hn : h.row.name = .SLC_EQ_CFG) : m.wordWrite w off h v = m.eqCfgWrite w h.i1 v := by
  unfold Mod.wordWrite
  rw [hn]

/-- A write of a register of slice `i`'s page, by any row that makes it; `n` and `k` are what slice 0's page has there. -/
theorem exec_of_sliceWrites (hi : i < 1024) (hd : d < 0xec0) (hoff : off = 0x2400000 + i * 0x1000 + d)
    (h0 : (regAt (0x2400000 + d)).map (fun x => (x.row.name, x.i2)) = some (n, k)) (hw : s.writes w off m h)
    (hc : exec c s = .next (s.run (fun m => m.rowWrite w off false v))) :
    exec c s = .next (s.ends (m.wordWrite w off h v)) ∧ h.row.name = n ∧ h.i1 = i ∧ h.i2 = k := by
  have ⟨_, hat, _⟩ := hw
  have hp : off ≠ Reg.PRK_PEEK_IDX := by
    unfold Reg.PRK_PEEK_IDX
    omega
  exact ⟨exec_of_writes hw hp hc, name_of_regAt_slicePage hi hd h0 (hoff ▸ hat)⟩

theorem exec_of_qpCfgWrites {sl : Fin 1024} {q : Fin 64} (hw : s.writes w (Reg.SLC_QP_CFG sl.val q.val) m h)
    (hc : exec c s = .next (s.run (fun m => m.rowWrite w (Reg.SLC_QP_CFG sl.val q.val) false v))) :
    exec c s = .next (s.ends (m.qpCfgWrite w sl.val q.val v)) := by
  have hoff : Reg.SLC_QP_CFG sl.val q.val = 0x2400000 + sl.val * 0x1000 + (0x410 + q.val * 0x20) := by
    unfold Reg.SLC_QP_CFG
    omega
  obtain ⟨he, hn, hi1, hi2⟩ := exec_of_sliceWrites sl.isLt (by omega) hoff (regAt_SLC_QP_CFG_first q) hw hc
  rw [he, Mod.wordWrite_SLC_QP_CFG hn, hi1, hi2]

/-- A pair's registers once a write of its SLC_QP_CFG that may set the sizes has done so. -/
def Base.qpSized (b : Base) (s q v : Nat) : Base :=
  let a := Reg.SLC_QP_CFG s q
  ((b.wr a F.SLC_QP_CFG_burst (bits v F.SLC_QP_CFG_burst)).wr a F.SLC_QP_CFG_sq_log2 (bits v F.SLC_QP_CFG_sq_log2)).wr a
    F.SLC_QP_CFG_cq_log2 (bits v F.SLC_QP_CFG_cq_log2)

/-- A pair that is off and at rest starts ACTIVE with its pointers zero, if the sizes are legal (R161). -/
theorem Mod.qpCfgWrite_starts (hkeep : bitOf v 14 = false) (hset : bitOf v 0 = true)
    (hoff : m.base.isSet (Reg.SLC_QP_CFG i j) F.SLC_QP_CFG_enable = false)
    (hrest : m.base.isSet (Reg.SLC_QP_STATUS i j) F.SLC_QP_STATUS_busy = false)
    (hsq : sizeOk (bits v F.SLC_QP_CFG_sq_log2) = true) (hcq : sizeOk (bits v F.SLC_QP_CFG_cq_log2) = true) :
    m.qpCfgWrite w i j v =
      let b := m.base.qpSized i j v
      let g := b.qpBase i + j
      { m with base := (((b.wr (Reg.SLC_QP_CFG i j) F.SLC_QP_CFG_enable 1).wr (Reg.SLC_QP_STATUS i j) F.SLC_QP_STATUS_state 1).wr
                 (Reg.SLC_QP_STATUS i j) F.SLC_QP_STATUS_cause 0).setWord (Reg.SLC_QP_PTR i j) 0#32,
               qe := m.qe.setQp { gqp := g, unsignalled := (m.qe.qp g).unsignalled } } := by
  simp only [Mod.qpCfgWrite, hkeep, hset, hoff, hrest, hsq, hcq, Bool.or_self, Bool.not_true, Bool.false_eq_true, if_false, if_true]
  rfl

/-- A pair that is on stops, and is busy for as long as work of its own is left (R161). -/
theorem Mod.qpCfgWrite_stops (hkeep : bitOf v 14 = false) (hclear : bitOf v 0 = false)
    (hon : m.base.isSet (Reg.SLC_QP_CFG i j) F.SLC_QP_CFG_enable = true)
    (hsq : bits v F.SLC_QP_CFG_sq_log2 =
      (m.base.wr (Reg.SLC_QP_CFG i j) F.SLC_QP_CFG_burst (bits v F.SLC_QP_CFG_burst)).rd (Reg.SLC_QP_CFG i j) F.SLC_QP_CFG_sq_log2)
    (hcq : bits v F.SLC_QP_CFG_cq_log2 =
      (m.base.wr (Reg.SLC_QP_CFG i j) F.SLC_QP_CFG_burst (bits v F.SLC_QP_CFG_burst)).rd (Reg.SLC_QP_CFG i j) F.SLC_QP_CFG_cq_log2) :
    m.qpCfgWrite w i j v =
      let b := m.base.wr (Reg.SLC_QP_CFG i j) F.SLC_QP_CFG_burst (bits v F.SLC_QP_CFG_burst)
      let g := b.qpBase i + j
      ({ m with base := b.wr (Reg.SLC_QP_CFG i j) F.SLC_QP_CFG_enable 0, qe := m.qe.noLost g } : Mod).refreshBusy g := by
  simp only [Mod.qpCfgWrite, hkeep, hclear, hon, ← hsq, ← hcq, bne_self_eq_false, Bool.true_or, Bool.or_self, Bool.false_eq_true,
    if_false, if_true]

/-- An event ring that is off starts empty, if its size is legal and the slice has the vector (R173, R176). -/
theorem Mod.eqCfgWrite_starts (hset : bitOf v 0 = true) (hirq : bitOf v 17 = true)
    (hoff : m.base.isSet (Reg.SLC_EQ_CFG i) F.SLC_EQ_CFG_enable = false) (hsize : sizeOk (bits v F.SLC_EQ_CFG_log2) = true)
    (hvec : m.base.vectorOk i (bits v F.SLC_EQ_CFG_vector) = true) :
    m.eqCfgWrite w i v =
      let a := Reg.SLC_EQ_CFG i
      let b := ((m.base.wr a F.SLC_EQ_CFG_vector (bits v F.SLC_EQ_CFG_vector)).wr a F.SLC_EQ_CFG_irq_en
        (bits v F.SLC_EQ_CFG_irq_en)).wr a F.SLC_EQ_CFG_log2 (bits v F.SLC_EQ_CFG_log2)
      { m with base := (((b.wr a F.SLC_EQ_CFG_enable 1).wr (Reg.SLC_EQ_STATUS i) F.SLC_EQ_STATUS_tail 0).wr (Reg.SLC_EQ_STATUS i)
                 F.SLC_EQ_STATUS_enabled 1).setEq { slice := i } } := by
  simp only [Mod.eqCfgWrite, hset, hirq, hoff, hsize, hvec, Bool.not_true, Bool.or_self, Bool.false_eq_true, if_false, if_true]

end

end Sys2Proof.Machine

/-- Settles O19: each write reaches its register's own rule, a doorbell's by its number in the slice's page. A pair that is enabled shows
state 1, which R161 names ACTIVE. -/
theorem queueRegisterWrites : Obligations.QueueRegisterWrites := by
  intro s w m h v sl q
  refine ⟨fun hw => ?sqDoorbell, fun hw => ?cqDoorbell, fun hw => ?eqDoorbell,
    fun hw hkeep hset hoff hrest hsq hcq => ?qpEnable, fun hw hclear hkeep hon hsq hcq => ?qpDisable,
    fun hw hset hirq hoff hsize hvec => ?eqEnable⟩
  case sqDoorbell =>
    have hoff : Reg.SLC_SQ_DB sl.val q.val = 0x2400000 + sl.val * 0x1000 + q.val * 8 := rfl
    obtain ⟨he, hn, hi1, hi2⟩ :=
      exec_of_sliceWrites (c := .sqDoorbell w sl q v) sl.isLt (by omega) hoff (regAt_SLC_SQ_DB_first q) hw rfl
    rw [he, Mod.wordWrite_SLC_SQ_DB hn, hi1, hi2]
  case cqDoorbell =>
    have hoff : Reg.SLC_CQ_DB sl.val q.val = 0x2400000 + sl.val * 0x1000 + (4 + q.val * 8) := by
      unfold Reg.SLC_CQ_DB
      omega
    obtain ⟨he, hn, hi1, hi2⟩ :=
      exec_of_sliceWrites (c := .cqDoorbell w sl q v) sl.isLt (by omega) hoff (regAt_SLC_CQ_DB_first q) hw rfl
    rw [he, Mod.wordWrite_SLC_CQ_DB hn, hi1, hi2]
  case eqDoorbell =>
    have hoff : Reg.SLC_EQ_DB sl.val = 0x2400000 + sl.val * 0x1000 + 0x200 := by
      unfold Reg.SLC_EQ_DB
      omega
    obtain ⟨he, hn, hi1, -⟩ :=
      exec_of_sliceWrites (c := .eqDoorbell w sl v) sl.isLt (by omega) hoff regAt_SLC_EQ_DB_first hw rfl
    rw [he, Mod.wordWrite_SLC_EQ_DB hn, hi1]
  case qpEnable =>
    rw [exec_of_qpCfgWrites hw rfl, Mod.qpCfgWrite_starts hkeep hset hoff hrest hsq hcq]
    rfl
  case qpDisable => rw [exec_of_qpCfgWrites hw rfl, Mod.qpCfgWrite_stops hkeep hclear hon hsq hcq]
  case eqEnable =>
    have hoff' : Reg.SLC_EQ_CFG sl.val = 0x2400000 + sl.val * 0x1000 + 0xc08 := by
      unfold Reg.SLC_EQ_CFG
      omega
    obtain ⟨he, hn, hi1, -⟩ :=
      exec_of_sliceWrites (c := .eqEnable w sl v) sl.isLt (by omega) hoff' regAt_SLC_EQ_CFG_first hw rfl
    rw [he, Mod.wordWrite_SLC_EQ_CFG hn, hi1, Mod.eqCfgWrite_starts hset hirq hoff hsize hvec]

namespace Sys2Proof.Machine

/-! ### What a host does to configuration space (R178 to R180, R206, R212, R216, R219, R332) -/

section
variable {s : State} {m : Mod} {c : Instr} {f : Mod → Mod} {fn off v en p q g port : Nat} {set bit : Bool}

theorem exec_of_cfgIs (h : s.cfgIs fn m)
    (hc : exec c s = .next (s.run (fun m => if m.cfgAlive && m.base.fnThere fn then f m else m))) : exec c s = .next (s.ends (f m)) := by
  obtain ⟨hpow, rfl, halive, hthere⟩ := h
  rw [hc, State.run_powered s _ hpow, halive, hthere]
  rfl

theorem exec_of_cfgAlive (h : s.powerIs m) (halive : m.cfgAlive = true)
    (hc : exec c s = .next (s.run (fun m => if m.cfgAlive then f m else m))) : exec c s = .next (s.ends (f m)) := by
  rw [exec_of_powerIs h hc, if_pos halive]

/-- One read that a reset waited for is given up with reason 0b10 at the end of its drain (R212). -/
def Mod.drainRead (m : Mod) (t : TagUse) : Mod :=
  match t.owner with
  | some .drained => m.quarantineTag t 2
  | some o =>
    let n := m.ownerDone o ⟨.timeout, []⟩
    if n.tags.contains t then n.quarantineTag t 2 else n
  | none => m

theorem Mod.drainEnd_upstream (hport : m.base.upstreamPort p = some port) :
    m.drainEnd p = ((m.tagsOut port).foldl Mod.drainRead m).giveReason (m.tagsOut port) 2 := by
  rw [Mod.drainEnd, hport]
  rfl

/-- A write reaches a function's word, but a control endpoint's not before stage DRAM (R332). -/
theorem Mod.hostCfgWrite_reaches (halive : m.cfgAlive = true) (hthere : m.base.fnThere fn = true) (hst : fn < 8 → m.base.stage ≠ 3) :
    m.hostCfgWrite fn off v en = m.cfgWrite fn off v en := by
  have hready : (decide (fn < 8) && m.base.stage == 3) = false := by simpa using hst
  simp only [Mod.hostCfgWrite, halive, hthere, hready, Bool.not_true, Bool.or_self, Bool.false_eq_true, if_false]

/-- In stage LINKS a control endpoint answers with Configuration Request Retry Status (R332). -/
theorem Mod.hostCfgWrite_retries (halive : m.cfgAlive = true) (hthere : m.base.fnThere fn = true) (hfn : fn < 8)
    (hst : m.base.stage = 3) : m.hostCfgWrite fn off v en = { m with base := m.base.emit (.cplErr fn 2) } := by
  simp only [Mod.hostCfgWrite, halive, hthere, hfn, hst, Bool.not_true, Bool.or_self, decide_true, beq_self_eq_true, Bool.and_self,
    Bool.false_eq_true, if_false, if_true]

theorem exec_of_hostCfgWrite (h : s.cfgIs fn m) (hc : exec c s = .next (s.run (fun m => m.hostCfgWrite fn off v en))) :
    ((fn < 8 → m.base.stage ≠ 3) → exec c s = .next (s.ends (m.cfgWrite fn off v en))) ∧
    (fn < 8 → m.base.stage = 3 → exec c s = .next (s.ends { m with base := m.base.emit (.cplErr fn 2) })) := by
  obtain ⟨hpow, hm, halive, hthere⟩ := h
  rw [exec_of_powerIs ⟨hpow, hm⟩ hc]
  exact ⟨fun hst => by rw [Mod.hostCfgWrite_reaches halive hthere hst],
    fun hfn hst => by rw [Mod.hostCfgWrite_retries halive hthere hfn hst]⟩

theorem Mod.dpcClear_triggered (hr : m.base.portRole q = 2) (hx : bitOf (m.base.cfg (24 + q) 0x2A8) 0 = true) :
    m.dpcClear q =
      ({ m with base := m.base.setCfg (24 + q) 0x2A8 (m.base.cfg (24 + q) 0x2A8 - 1) } : Mod).releasePort q := by
  simp only [Mod.dpcClear, hr, hx, bne_self_eq_false, Bool.not_true, Bool.or_self, Bool.false_eq_true, if_false]

/-- The registers once Secondary Bus Reset shows in the Bridge Control of shelf port `q` (R216). -/
def Base.busResetShown (b : Base) (q : Nat) (set : Bool) : Base :=
  b.setCfg (24 + q) 0x3C (putBits (b.cfg (24 + q) 0x3C) ⟨22, 1⟩ (b2n set))

theorem Mod.busReset_linkDown (hr : m.base.portRole q = 2) (hup : (m.base.busResetShown q set).linkUp q = false) :
    m.busReset q set = { m with base := m.base.busResetShown q set } := by
  rw [Base.busResetShown] at hup
  simp only [Mod.busReset, hr, hup, bne_self_eq_false, Bool.not_false, Bool.false_eq_true, if_false, if_true, Base.busResetShown]

/-- On a link that is up the reset goes out; one that is set pauses the sweep of an awake shelf (R216). -/
theorem Mod.busReset_linkUp (hr : m.base.portRole q = 2) (hup : (m.base.busResetShown q set).linkUp q = true) :
    m.busReset q set =
      let b := m.base.busResetShown q set
      let n := b.rd (Reg.PRT_CFG q) F.PRT_CFG_slot
      let e := b.emit (.hotReset q set)
      if set && decide (n < 56) && e.slotState n == 6 then
        ({ m with base := e, prk := m.prk.setSlot { (m.prk.slot n) with paused := true } } : Mod).returnSweep n
      else { m with base := e } := by
  have hlink : ¬(!(m.base.busResetShown q set).linkUp q) = true := by rw [hup]; decide
  rw [Mod.busReset, hr, if_neg (by decide)]
  exact if_neg hlink

theorem Mod.mcReceive_inGroup (hg : g < m.base.rd (Reg.PRT_MC q) F.PRT_MC_mc_count) :
    m.mcReceive q g bit =
      let fn := m.base.portFn q
      let c := 0x280 + 4 * (g / 32)
      let b := m.base.setCfg fn c (putBits (m.base.cfg fn c) ⟨g % 32, 1⟩ (b2n bit))
      let k := m.base.rd (Reg.PRT_MC q) F.PRT_MC_mc_base + g
      { m with base := b.setWord64 (Reg.XBR_MC_VEC k) (putBits (b.word64 (Reg.XBR_MC_VEC k)) ⟨q, 1⟩ (b2n bit)) } :=
  if_neg (Nat.not_le.2 hg)

end

end Sys2Proof.Machine

/-- Settles O30: a command reaches its function in configuration space, a shelf port by its role; a bus reset goes by the port's link. -/
theorem configurationCommands : Obligations.ConfigurationCommands := by
  intro s m p q
  refine ⟨fun vec hm => ?unmask, fun hm => ⟨?bmeClear, ?bmeSet, ?flr, ?upstreamReset⟩,
    fun port hm hport => ?drainEnd, fun d3 hm => ⟨fun hst => ?powerState, fun hst => ?retry⟩, fun f off v en hm hst => ?write,
    fun hm halive hr => ⟨fun hx => ?dpc, fun set => ⟨fun hup => ?down, fun hup => ⟨fun hn hset hst => ?sweeps, fun hset => ?released⟩⟩⟩,
    fun g v hm halive hg => ?receive⟩
  case unmask => rw [exec_of_cfgIs hm rfl]
  case bmeClear => rw [exec_of_cfgIs hm rfl]
  case bmeSet => rw [exec_of_cfgIs hm rfl]
  case flr => rw [exec_of_cfgIs hm rfl]
  case upstreamReset => rw [exec_of_cfgIs hm rfl]
  case drainEnd =>
    rw [exec_of_coreDue hm rfl, Mod.drainEnd_upstream hport]
    rfl
  case powerState => exact (exec_of_hostCfgWrite hm rfl).1 (fun _ => hst)
  case retry => exact (exec_of_hostCfgWrite hm rfl).2 p.isLt hst
  case write => exact (exec_of_hostCfgWrite hm rfl).1 hst
  case dpc => rw [exec_of_cfgAlive hm halive rfl, Mod.dpcClear_triggered hr hx]
  case down => rw [exec_of_cfgAlive hm halive rfl, Mod.busReset_linkDown hr hup, Base.busResetShown]
  case sweeps =>
    subst hset
    rw [exec_of_cfgAlive hm halive rfl, Mod.busReset_linkUp hr hup]
    exact congrArg (fun m => Host.Outcome.next (s.ends m)) (if_pos (by simpa using ⟨hn, hst⟩))
  case released =>
    subst hset
    rw [exec_of_cfgAlive hm halive rfl, Mod.busReset_linkUp hr hup]
    rfl
  case receive => rw [exec_of_cfgAlive hm halive rfl, Mod.mcReceive_inGroup hg]
end

section
/-! PROOFS of the statements of spec/09_slices.md: what SLICE_CTL does to a slice (R185 to R197) and what ends its operations (R189, R190,
R192, R193, R195, R196). Before each stand the cases of the functions that its commands call. -/

namespace Sys2Proof.Machine

/-! ### The front SLICE_CTL is carried out (R183, R185, R190, R194 to R196) -/

section
variable {m n : Mod} {d : Desc} {b : Base} {r : Nat} {q : Nat × List Nat × Nat × Nat}

theorem Mod.ctlCreate_built (ht : m.ctlTake 0 = (n, some d))
    (hr : n.resources d.ctlSlice d.ctlPart d.ctlPasid d.ctlVec d.ctlVecs d.ctlQp d.ctlChan d.ctlMeter d.ctlQuota = .ok q) :
    m.ctlCreate =
      ((n.build d.ctlSlice 1 d.ctlPart d.ctlPasid q.2.2.1 d.ctlVec d.ctlVecs d.ctlQp d.ctlMeter d.ctlQuota q).resetPage d.ctlSlice).ctlDone
        d 0 0x00 0 0 := by
  simp only [Mod.ctlCreate, ht, hr]

theorem Mod.ctlCreate_lacking (ht : m.ctlTake 0 = (n, some d))
    (hr : n.resources d.ctlSlice d.ctlPart d.ctlPasid d.ctlVec d.ctlVecs d.ctlQp d.ctlChan d.ctlMeter d.ctlQuota = .error r) :
    m.ctlCreate = n.ctlDone d r (reasonStatus r) 0 0 := by
  simp only [Mod.ctlCreate, ht, hr]

/-- At a quiesce the lines of a slice drain; only a fault discards them (R130, R192). -/
theorem Mod.restLines_drain (m : Mod) (i : Nat) : m.restLines i false = m.drainSlice i := rfl

theorem Mod.ctlQuiesce_frozen (ht : m.ctlTake 1 = (n, some d)) (hst : n.base.sliceState d.ctlSlice = 5) :
    m.ctlQuiesce =
      ((({ n with base := n.base.setSliceState d.ctlSlice 3,
                  qe := { n.qe with recorded := n.qe.recorded.filter (fun x => x.1 != d.ctlSlice) } } : Mod).loseRsv
        (fun r => r.slice == d.ctlSlice) 4).drainSlice d.ctlSlice).ctlDone d 0 0x00 0 0 := by
  simp only [Mod.ctlQuiesce, ht, hst, Mod.restLines_drain]

theorem Mod.ctlQuiesce_active (ht : m.ctlTake 1 = (n, some d)) (hst : n.base.sliceState d.ctlSlice = 1) :
    m.ctlQuiesce = ({ n with qe := n.qe.setDesc { d with phase := .waiting } } : Mod).bringToRest d.ctlSlice 0 (some d.id) := by
  simp only [Mod.ctlQuiesce, ht, hst]

theorem Mod.ctlSave_noMaster (ht : m.ctlTake 5 = (n, some d)) (hbme : n.base.bme (n.base.slicePart 0) = false) :
    m.ctlSave = n.ctlDone d 0xB 0x25 0 0 := by
  simp only [Mod.ctlSave, ht, hbme, Bool.not_false, if_true]

theorem Mod.ctlSave_written (ht : m.ctlTake 5 = (n, some d)) (hbme : n.base.bme (n.base.slicePart 0) = true)
    (hg : n.base.guard (24 + n.base.slicePart 0) (n.blobAccess d d.ctlBlob (n.blob d.ctlSlice).length true) = (b, none)) :
    m.ctlSave =
      { n with base := b.emit (.hostWrite (n.base.slicePart 0) d.ctlBlob (some (b.descPasid d)) (n.blob d.ctlSlice)),
               qe := n.qe.setDesc { d with phase := .waiting },
               slc := { n.slc with blob := some { desc := d.id, slice := d.ctlSlice, save := true, addr := d.ctlBlob,
                                                  data := n.blob d.ctlSlice } } } := by
  simp only [Mod.ctlSave, ht, hbme, hg, Bool.not_true, Bool.false_eq_true, if_false]

theorem Mod.ctlRestore_noMaster (ht : m.ctlTake 6 = (n, some d)) (hbme : n.base.bme (n.base.slicePart 0) = false) :
    m.ctlRestore = n.ctlDone d 0xB 0x25 0 0 := by
  simp only [Mod.ctlRestore, ht, hbme, Bool.not_false, if_true]

theorem Mod.ctlRestore_reads (ht : m.ctlTake 6 = (n, some d)) (hbme : n.base.bme (n.base.slicePart 0) = true)
    (htag : n.tagsFree ((n.base.upstreamPort (n.base.slicePart 0)).getD 0) 1 = true) :
    m.ctlRestore = ({ n with qe := n.qe.setDesc { d with phase := .waiting } } : Mod).blobRead d
      { desc := d.id, slice := d.ctlSlice, save := false, addr := d.ctlBlob } 0x40 := by
  simp only [Mod.ctlRestore, ht, hbme, htag, Bool.not_true, Bool.false_eq_true, if_false]

end

end Sys2Proof.Machine

open Sys2Proof Sys2Proof.Machine

/-- Settles O31: `Mod.ctlTake` gives the front descriptor that passes the checks, and each operation goes on by what it finds: the
resources of a CREATE, the state of the slice at a QUIESCE, Bus Master Enable, the guard and the tags at a SAVE or RESTORE. -/
theorem sliceControlCommands : Obligations.SliceControlCommands := by
  intro s m n d hm
  refine ⟨fun ht => ⟨fun r hr => ?built, fun r hr => ?lacking⟩, fun ht => ⟨fun hst => ?frozen, fun hst => ?active⟩,
    fun ht => ?reset, fun ht => ?remove, fun ht => ?freeze,
    fun ht => ⟨fun hbme => ?saveNoMaster, fun hbme b hg => ?save⟩,
    fun ht => ⟨fun hbme => ?restoreNoMaster, fun hbme htag => ?restore⟩, fun ht => ?thaw, fun ht => ?scrub⟩
  case built => rw [exec_of_coreIs hm rfl, Mod.ctlCreate_built ht hr]
  case lacking => rw [exec_of_coreIs hm rfl, Mod.ctlCreate_lacking ht hr]
  case frozen => rw [exec_of_coreIs hm rfl, Mod.ctlQuiesce_frozen ht hst]
  case active => rw [exec_of_coreIs hm rfl, Mod.ctlQuiesce_active ht hst]
  case reset => rw [exec_of_coreIs hm rfl, Mod.ctlReset, ht]
  case remove => rw [exec_of_coreIs hm rfl, Mod.ctlRemove, ht]
  case freeze =>
    rw [exec_of_coreIs hm rfl, Mod.ctlFreeze, ht]
    rfl
  case saveNoMaster => rw [exec_of_coreIs hm rfl, Mod.ctlSave_noMaster ht hbme]
  case save => rw [exec_of_coreIs hm rfl, Mod.ctlSave_written ht hbme hg]
  case restoreNoMaster => rw [exec_of_coreIs hm rfl, Mod.ctlRestore_noMaster ht hbme]
  case restore => rw [exec_of_coreIs hm rfl, Mod.ctlRestore_reads ht hbme htag]
  case thaw => rw [exec_of_coreIs hm rfl, Mod.ctlThaw, ht]
  case scrub => rw [exec_of_coreIs hm rfl, Mod.ctlScrub, ht]

namespace Sys2Proof.Machine

/-! ### Operations on slices end (R189, R190, R192, R193, R195) -/

section
variable {m : Mod} {d : Desc} {i id : Nat} {x : BlobRun} {c : CplStatus} {r : SliceRun}

theorem Mod.scrubDone_found (hs : m.slc.scrub = some (id, i)) (hd : m.qe.desc id = some d) :
    m.scrubDone i =
      ({ m with slc := { m.slc with scrub := none },
                base := (m.base.disarm (.scrub i)).setWord (Reg.SLC_STATE i) 0#32 } : Mod).ctlDone d 0 0x00 0 0 := by
  simp only [Mod.scrubDone, hs, hd, ne_eq, not_true_eq_false, if_false]

theorem Mod.blobWritten_ok (hb : m.slc.blob = some x) (hs : x.save = true) (hd : m.qe.desc x.desc = some d) :
    m.blobWritten .ok =
      ({ m with slc := { m.slc with blob := none }, base := m.base.wr (Reg.SLC_STATE x.slice) F.SLC_STATE_stale_blob 0,
                qe := { m.qe with saved := x.slice :: m.qe.saved.filter (fun y => y != x.slice) } } : Mod).ctlDone
        d 0 0x00 x.data.length 0 := by
  simp only [Mod.blobWritten, hb, hs, hd, Bool.not_true, Bool.false_eq_true, if_false, beq_self_eq_true, if_true]

theorem Mod.blobWritten_failed (hb : m.slc.blob = some x) (hs : x.save = true) (hd : m.qe.desc x.desc = some d) (hc : c ≠ .ok) :
    m.blobWritten c = ({ m with slc := { m.slc with blob := none } } : Mod).ctlDone d 0xB (cplToStatus c) 0 0 := by
  simp only [Mod.blobWritten, hb, hs, hd, Bool.not_true, Bool.false_eq_true, if_false, beq_eq_false_iff_ne.2 hc]

theorem Mod.freezeLate_freezing (hr : m.slc.run i = some r) (hk : r.kind = 1) :
    m.freezeLate i = (({ m with slc := m.slc.setRun { r with handled := true } } : Mod).abortWork i).holdEntries i := by
  simp only [Mod.freezeLate, hr, hk, ne_eq, not_true_eq_false, if_false]

/-- An empty, worn or FAULTED slice has nothing to bring to rest. -/
theorem Mod.fault_none (hst : m.base.sliceState i = 0 ∨ m.base.sliceState i = 6 ∨ m.base.sliceState i = 7) : m.fault i = m := by
  rcases hst with hst | hst | hst <;> simp only [Mod.fault, hst] <;> rfl

theorem Mod.fault_running (hst : m.base.sliceState i = 1 ∨ m.base.sliceState i = 2 ∨ m.base.sliceState i = 4) :
    m.fault i =
      let n : Mod := { m with base := m.base.raise { group := 17, bit := 0, sev := 1, scope := .slice i } }
      n.bringToRest i 2 ((n.slc.run i).bind SliceRun.desc) := by
  rcases hst with hst | hst | hst <;> simp only [Mod.fault, hst] <;> rfl

theorem Mod.fault_resting (hst : m.base.sliceState i = 3 ∨ m.base.sliceState i = 5) :
    m.fault i =
      let n : Mod := { m with base := m.base.raise { group := 17, bit := 0, sev := 1, scope := .slice i } }
      let x := (n.loseRsv (fun r => r.slice == i) 4).discardSliceLines i
      let x := if m.base.sliceState i = 5 then x.resetRings i else x
      { x with base := x.base.setSliceState i 6 } := by
  rcases hst with hst | hst <;> simp only [Mod.fault, hst] <;> rfl

end

end Sys2Proof.Machine

/-- Settles O32: each end finds the run that its operation left, and a fault goes by the state of the slice. -/
theorem sliceEnds : Obligations.SliceEnds := by
  intro s m i
  refine ⟨fun id d hm hs hd => ?scrubbed, fun x d c hm hb hs hd => ⟨fun hc => ?saved, fun hc => ?unsaved⟩,
    fun c hm htag => ?read, fun hm => ?atRest, fun hm => ?limit, fun r hm hr hk => ?late,
    fun hm => ⟨fun hst => ?running, fun hst => ?resting, fun hst => ?none⟩⟩
  case scrubbed => rw [exec_of_coreDue hm rfl, Mod.scrubDone_found hs hd]
  case saved =>
    subst hc
    rw [exec_of_coreIs hm rfl, Mod.blobWritten_ok hb hs hd]
  case unsaved => rw [exec_of_coreIs hm rfl, Mod.blobWritten_failed hb hs hd hc]
  case read =>
    rw [exec_of_coreIs hm rfl, Mod.answered_tagged htag]
    rfl
  case atRest => rw [exec_of_coreIs hm rfl]
  case limit => rw [exec_of_coreDue hm rfl]
  case late => rw [exec_of_coreDue hm rfl, Mod.freezeLate_freezing hr hk]
  case running => rw [exec_of_coreIs hm rfl, Mod.fault_running hst]
  case resting => rw [exec_of_coreIs hm rfl, Mod.fault_resting hst]
  case none => rw [exec_of_coreIs hm rfl, Mod.fault_none hst]
end

section
/-! PROOFS of the statements of spec/10_pcie_ports.md: the writes of the registers of ports, lanes, tiles and Camtex links (R215, R217,
R219, R235, R242, R262, R265), and the reads of the module's own that end without their completion (R208, R210, R213, R220). Before each
statement stand the lemmas that say what the functions it speaks of do in each case. -/

open Sys2Proof Sys2Proof.Machine

namespace Sys2Proof.Machine

/-! ### The registers of ports, lanes, tiles and Camtex links -/

theorem regAt_PRT_CTL_name : ∀ p : Fin 64,
    (regAt (Reg.PRT_CTL p.val)).map (fun h => (h.row.name, h.i1)) = some (.PRT_CTL, p.val) := by
  decide +kernel

theorem regAt_PRT_SLOT_name : ∀ p : Fin 64,
    (regAt (Reg.PRT_SLOT p.val)).map (fun h => (h.row.name, h.i1)) = some (.PRT_SLOT, p.val) := by
  decide +kernel

theorem regAt_SER_TX_COEF_name : ∀ l : Fin 256,
    (regAt (Reg.SER_TX_COEF l.val)).map (fun h => (h.row.name, h.i1)) = some (.SER_TX_COEF, l.val) := by
  decide +kernel

theorem regAt_SER_TILE_CTL_name : ∀ t : Fin 32,
    (regAt (Reg.SER_TILE_CTL t.val)).map (fun h => (h.row.name, h.i1)) = some (.SER_TILE_CTL, t.val) := by
  decide +kernel

theorem regAt_SER_TILE_CFG_name : ∀ t : Fin 32,
    (regAt (Reg.SER_TILE_CFG t.val)).map (fun h => (h.row.name, h.i1)) = some (.SER_TILE_CFG, t.val) := by
  decide +kernel

theorem regAt_FAB_CTL_name : ∀ k : Fin 8,
    (regAt (Reg.FAB_CTL k.val)).map (fun h => (h.row.name, h.i1)) = some (.FAB_CTL, k.val) := by
  decide +kernel

/-! ### Ports, lanes, tiles and Camtex links are written (R215, R217, R219, R235, R242, R262, R265) -/

section
variable {s : State} {m : Mod} {w : Who} {c : Instr} {h : RegHit} {off v i : Nat}

theorem Mod.wordWrite_PRT_CTL (hn : h.row.name = .PRT_CTL) : m.wordWrite w off h v = m.portCtl w h.i1 v := by
  unfold Mod.wordWrite
  rw [hn]

theorem Mod.wordWrite_PRT_SLOT (hn : h.row.name = .PRT_SLOT) : m.wordWrite w off h v = m.slotWrite h.i1 v := by
  unfold Mod.wordWrite
  rw [hn]

theorem Mod.wordWrite_SER_TX_COEF (hn : h.row.name = .SER_TX_COEF) :
    m.wordWrite w off h v = { m with base := m.base.txCoef h.i1 v } := by
  unfold Mod.wordWrite
  rw [hn]

theorem Mod.wordWrite_SER_TILE_CTL (hn : h.row.name = .SER_TILE_CTL) : m.wordWrite w off h v = m.tileCtl h.i1 v := by
  unfold Mod.wordWrite
  rw [hn]

theorem Mod.wordWrite_SER_TILE_CFG (hn : h.row.name = .SER_TILE_CFG) : m.wordWrite w off h v = m.tileCfg h.i1 v := by
  unfold Mod.wordWrite
  rw [hn]

theorem Mod.wordWrite_FAB_CTL (hn : h.row.name = .FAB_CTL) : m.wordWrite w off h v = m.fabReset h.i1 v := by
  unfold Mod.wordWrite
  rw [hn]

/-- A write of register `n` of unit `i`, by any row that makes it: `rule` is what the register's own rule makes of each unit. -/
theorem exec_of_unitWrites {n : RegName} {rule : Nat → Mod} (hreg : (regAt off).map (fun h => (h.row.name, h.i1)) = some (n, i))
    (hpeek : n ≠ .PRK_PEEK_IDX) (hrule : h.row.name = n → m.wordWrite w off h v = rule h.i1) (hw : s.writes w off m h)
    (hc : exec c s = .next (s.run (fun m => m.rowWrite w off false v))) : exec c s = .next (s.ends (rule i)) := by
  have ⟨_, hat, _⟩ := hw
  rw [hat, Option.map_some, Option.some_inj, Prod.mk.injEq] at hreg
  obtain ⟨hn, hi⟩ := hreg
  have hoff : off ≠ Reg.PRK_PEEK_IDX := by
    rintro rfl
    exact hpeek (hn ▸ name_of_regAt regAt_PRK_PEEK_IDX_name hat)
  rw [exec_of_writes hw hoff hc, hrule hn, hi]

/-- PRT_CTL has two rows, one for each of its bits. -/
theorem exec_of_portCtlWrites {p : Fin 64} (hw : s.writes w (Reg.PRT_CTL p.val) m h)
    (hc : exec c s = .next (s.run (fun m => m.rowWrite w (Reg.PRT_CTL p.val) false v))) :
    exec c s = .next (s.ends (m.portCtl w p.val v)) :=
  exec_of_unitWrites (rule := fun p => m.portCtl w p v) (regAt_PRT_CTL_name p) (by decide) Mod.wordWrite_PRT_CTL hw hc

theorem Mod.portCtl_contain (hr : m.base.portRole i = 2) (hcon : bitOf v 0 = true) (hrel : bitOf v 1 = false) :
    m.portCtl w i v = m.containPort i 3 := by
  simp only [Mod.portCtl, hr, hcon, hrel, bne_self_eq_false, Bool.and_false, Bool.false_eq_true, if_false, if_true]

theorem Mod.portCtl_release (hr : m.base.portRole i = 2) (hcon : bitOf v 0 = false) (hrel : bitOf v 1 = true) :
    m.portCtl w i v = m.releasePort i := by
  simp only [Mod.portCtl, hr, hcon, hrel, bne_self_eq_false, Bool.false_and, Bool.false_eq_true, if_false, if_true]

/-- Both bits at once are a misuse. -/
theorem Mod.portCtl_both (hr : m.base.portRole i = 2) (hcon : bitOf v 0 = true) (hrel : bitOf v 1 = true) :
    m.portCtl w i v = { m with base := m.base.misuse w 0 } := by
  simp only [Mod.portCtl, hr, hcon, hrel, bne_self_eq_false, Bool.and_self, Bool.false_eq_true, if_false, if_true]

/-- The registers once a write of PRT_SLOT has cleared `changed` where it is written 1 (R215). -/
def Base.slotCleared (b : Base) (p v : Nat) : Base :=
  if bitOf v 1 then b.wr (Reg.PRT_SLOT p) F.PRT_SLOT_changed 0 else b

/-- Whether a shelf is present, before the write of PRT_SLOT takes effect. -/
def Base.slotPresent (b : Base) (p v : Nat) : Bool := (b.slotCleared p v).isSet (Reg.PRT_SLOT p) F.PRT_SLOT_present

/-- The registers once PRT_SLOT shows a change of present. -/
def Base.slotChanged (b : Base) (p v present : Nat) : Base :=
  ((b.slotCleared p v).wr (Reg.PRT_SLOT p) F.PRT_SLOT_present present).wr (Reg.PRT_SLOT p) F.PRT_SLOT_changed 1

theorem Mod.slotWrite_same (hr : m.base.portRole i = 2) (hsame : bitOf v 0 = m.base.slotPresent i v) :
    m.slotWrite i v = { m with base := m.base.slotCleared i v } := by
  rw [Base.slotPresent, Base.slotCleared] at hsame
  simp only [Mod.slotWrite, hr, ← hsame, bne_self_eq_false, beq_self_eq_true, Bool.false_eq_true, if_false, if_true]
  rfl

theorem Mod.slotWrite_rise (hr : m.base.portRole i = 2) (hset : bitOf v 0 = true) (hold : m.base.slotPresent i v = false) :
    m.slotWrite i v =
      let n := ({ m with base := m.base.slotChanged i v 1, dirty := m.dirty ++ [i] } : Mod).releasePort i
      { n with prk := { n.prk with planDue := true } } := by
  rw [Base.slotPresent, Base.slotCleared] at hold
  simp only [Mod.slotWrite, hr, hset, hold, bne_self_eq_false, Bool.true_beq, Bool.false_eq_true, if_false]
  rfl

theorem Mod.slotWrite_fall (hr : m.base.portRole i = 2) (hclear : bitOf v 0 = false) (hold : m.base.slotPresent i v = true)
    (hslot : (m.base.slotChanged i v 0).rd (Reg.PRT_CFG i) F.PRT_CFG_slot < 56) :
    m.slotWrite i v =
      ({ m with base := (m.base.slotChanged i v 0).bump (Reg.PRT_CNT i 5), dirty := m.dirty ++ [i] } : Mod).surpriseRemoval
        ((m.base.slotChanged i v 0).rd (Reg.PRT_CFG i) F.PRT_CFG_slot) := by
  rw [Base.slotPresent, Base.slotCleared] at hold
  simp only [Mod.slotWrite, hr, hclear, hold, bne_self_eq_false, Bool.false_beq, Bool.not_true, Bool.false_eq_true, if_false, if_true]
  exact if_pos hslot

section
variable {b : Base} {l : Nat} (hkeep : bitOf v 17 = false)
include hkeep

/-- Without override the coefficients stay training's. -/
theorem Base.txCoef_training (ho : bitOf v 16 = false) : b.txCoef l v = b.wr (Reg.SER_TX_COEF l) F.SER_TX_COEF_override 0 := by
  simp only [Base.txCoef, hkeep, ho, Bool.not_false, Bool.false_eq_true, if_false, if_true]

theorem Base.txCoef_override (ho : bitOf v 16 = true) :
    b.txCoef l v =
      if coefOk (bits v F.SER_TX_COEF_pre) (bits v F.SER_TX_COEF_post) then
        (b.wr (Reg.SER_TX_COEF l) F.SER_TX_COEF_override 1).setCoef l (bits v F.SER_TX_COEF_pre) (bits v F.SER_TX_COEF_post)
      else b.wr (Reg.SER_TX_COEF l) F.SER_TX_COEF_bad 1 := by
  simp only [Base.txCoef, hkeep, ho, Bool.not_true, Bool.false_eq_true, if_false]

end

theorem coefOk_eq_true {pre post : Nat} (hpre : pre ≤ 12) (hsum : pre + post ≤ 16) : coefOk pre post = true := by
  simp [coefOk, hpre, hsum]

theorem coefOk_eq_false {pre post : Nat} (hbad : 12 < pre ∨ 16 < pre + post) : coefOk pre post = false := by
  simp only [coefOk, Bool.and_eq_false_iff, decide_eq_false_iff_not, Nat.not_le]
  exact hbad

/-- The module once a tile has entered test mode and its event is raised, before its ports go down (R242). -/
def Mod.tileTested (m : Mod) (t v : Nat) : Mod :=
  let a := Reg.SER_TILE_CTL t
  let b := (m.base.wr a F.SER_TILE_CTL_test 1).wr a F.SER_TILE_CTL_no_gate (b2n (bitOf v 1))
  { m with base := (b.raise { group := 10, bit := t, cause := 1 }).tileUngate t }

theorem Mod.tileCtl_enters (hwas : m.base.inTest i = false) (hset : bitOf v 0 = true) :
    m.tileCtl i v =
      let n := (m.tileTested i v).tileDown i
      if n.base.camTile i && 24 ≤ i && n.base.camState (i - 24) != 0 then n.linkReset (i - 24) 10 else n := by
  simp only [Mod.tileCtl, hwas, hset, Bool.not_false, Bool.and_self, if_true]
  rfl

/-- A PCI Express tile has no Camtex link to reset. -/
theorem Mod.tileCtl_enters_pcie (hwas : m.base.inTest i = false) (hset : bitOf v 0 = true)
    (hpcie : ((m.tileTested i v).tileDown i).base.camTile i = false) : m.tileCtl i v = (m.tileTested i v).tileDown i := by
  rw [Mod.tileCtl_enters hwas hset]
  exact if_neg (by simp [hpcie])

/-- The registers once SER_TILE_CFG is written (R265). -/
def Base.tileConfigured (b : Base) (t v : Nat) : Base :=
  let a := Reg.SER_TILE_CFG t
  ((b.wr a F.SER_TILE_CFG_camtex_85 (b2n (bitOf v 6))).wr a F.SER_TILE_CFG_good_ei (bits v ⟨8, 8⟩)).wr a
    F.SER_TILE_CFG_idle_us (bits v ⟨16, 16⟩)

/-- The rate of a Camtex tile changes by a link reset of its port, where that may train (R265). -/
theorem Mod.tileCfg_changes (h24 : 24 ≤ i) (hcam : (m.base.tileConfigured i v).camTile i = true)
    (hmay : (m.base.tileConfigured i v).camMay (i - 24) = true)
    (hnew : m.base.isSet (Reg.SER_TILE_CFG i) F.SER_TILE_CFG_camtex_85 = !bitOf v 6) :
    m.tileCfg i v = ({ m with base := m.base.tileConfigured i v } : Mod).linkReset (i - 24) 9 := by
  refine if_pos ?_
  simp only [Base.tileConfigured] at hcam hmay
  simp [hcam, hmay, hnew, h24]

theorem Mod.tileCfg_keeps (hsame : m.base.isSet (Reg.SER_TILE_CFG i) F.SER_TILE_CFG_camtex_85 = bitOf v 6) :
    m.tileCfg i v = { m with base := m.base.tileConfigured i v } := by
  refine if_neg ?_
  simp [hsame]

theorem Mod.fabReset_resets (hset : bitOf v 0 = true) (hmay : m.base.camMay i = true) : m.fabReset i v = m.linkReset i 9 := by
  simp only [Mod.fabReset, hset, hmay, Bool.and_self, if_true]

end

end Sys2Proof.Machine

/-- Settles O24: each write reaches its register's own rule, which goes by what the write sets and what the register showed before. -/
theorem portAndLaneRegisterWrites : Obligations.PortAndLaneRegisterWrites := by
  intro s w m h p l t k v
  refine ⟨fun hw hr => ⟨fun hcon hrel => ?contain, fun hcon hrel => ?release, fun hcon hrel => ?both⟩, fun hw hr => ?slot,
    fun hw hkeep => ?coef, fun hw hwas hset _ hpcie => ?test, fun hw h24 => ?rate, fun hw hset hmay => ?reset⟩
  case contain => rw [exec_of_portCtlWrites hw rfl, Mod.portCtl_contain hr hcon hrel]
  case release => rw [exec_of_portCtlWrites hw rfl, Mod.portCtl_release hr hcon hrel]
  case both => rw [exec_of_portCtlWrites hw rfl, Mod.portCtl_both hr hcon hrel]
  case slot =>
    rw [exec_of_unitWrites (rule := fun p => m.slotWrite p v.toNat) (regAt_PRT_SLOT_name p) (by decide) Mod.wordWrite_PRT_SLOT hw rfl]
    exact ⟨fun hsame => by rw [Mod.slotWrite_same hr hsame]; rfl, fun hset hold => by rw [Mod.slotWrite_rise hr hset hold]; rfl,
      fun hclear hold hslot => by rw [Mod.slotWrite_fall hr hclear hold hslot]; rfl⟩
  case coef =>
    rw [exec_of_unitWrites (rule := fun l => { m with base := m.base.txCoef l v.toNat }) (regAt_SER_TX_COEF_name l) (by decide)
      Mod.wordWrite_SER_TX_COEF hw rfl]
    exact ⟨fun ho => by rw [Base.txCoef_training hkeep ho],
      fun ho hpre hsum => by rw [Base.txCoef_override hkeep ho, if_pos (coefOk_eq_true hpre hsum)]; rfl,
      fun ho hbad => by rw [Base.txCoef_override hkeep ho, if_neg (ne_true_of_eq_false (coefOk_eq_false hbad))]⟩
  case test =>
    rw [exec_of_unitWrites (rule := fun t => m.tileCtl t v.toNat) (regAt_SER_TILE_CTL_name t) (by decide) Mod.wordWrite_SER_TILE_CTL
      hw rfl, Mod.tileCtl_enters_pcie hwas hset hpcie]
    rfl
  case rate =>
    rw [exec_of_unitWrites (rule := fun t => m.tileCfg t v.toNat) (regAt_SER_TILE_CFG_name t) (by decide) Mod.wordWrite_SER_TILE_CFG
      hw rfl]
    exact ⟨fun hcam hmay hnew => by rw [Mod.tileCfg_changes h24 hcam hmay hnew]; rfl, fun hsame => by rw [Mod.tileCfg_keeps hsame]; rfl⟩
  case reset =>
    rw [exec_of_unitWrites (rule := fun k => m.fabReset k v.toNat) (regAt_FAB_CTL_name k) (by decide) Mod.wordWrite_FAB_CTL hw rfl,
      Mod.fabReset_resets hset hmay]

namespace Sys2Proof.Machine

/-! ### Reads that time out, tags in quarantine and late completions (R208, R210, R213, R220) -/

section
variable {m : Mod} {p tag : Nat} {t : TagUse} {hdr : List W32}

/-- A read that is out ends as timed out: reported, its owner told, and its tag in quarantine where it still holds it. -/
theorem Mod.readTimedOut_found {o : TagOwner} (hf : m.tags.find? (fun t => t.port == p && t.tag == tag && t.owner.isSome) = some t)
    (ho : t.owner = some o) :
    m.readTimedOut p tag =
      let n : Mod := { m with base := ((m.base.bump (Reg.PRT_CNT p 6)).occ 0x203 p none 1).readErr p 14 [] }
      let n := n.ownerDone o ⟨.timeout, []⟩
      if n.tags.contains t then n.quarantineTag t 0 else n := by
  simp only [Mod.readTimedOut, hf, ho]

theorem Mod.lateCpl_unknown (hf : m.tags.find? (fun t => t.port == p && t.tag == tag) = none) :
    m.lateCpl p tag hdr = { m with base := m.base.logLate p tag 3 hdr } := by
  simp only [Mod.lateCpl, hf]

/-- The completion of a read that was given up: its tag leaves quarantine. -/
theorem Mod.lateCpl_quarantined (hf : m.tags.find? (fun t => t.port == p && t.tag == tag) = some t) (ho : t.owner = none) :
    m.lateCpl p tag hdr =
      { m with base := (m.base.disarm (.quarantine p tag)).logLate p tag t.reason hdr,
               tags := m.tags.filter (fun x => !(x.port == p && x.tag == tag && x.owner.isNone)) } := by
  simp only [Mod.lateCpl, hf, ho, Mod.tagBack]

end

end Sys2Proof.Machine

/-- Settles O34: the tag in use tells the owner of a read that ends, or the reason why it was given up. -/
theorem lostReadCommands : Obligations.LostReadCommands := by
  intro s m p tag
  refine ⟨fun t o hm hf ho => ?timeout, fun hm => ?back, fun hdr hm => ⟨fun hf => ?unknown, fun t hf ho => ?quarantined⟩⟩
  case timeout => rw [exec_of_coreDue hm rfl, Mod.readTimedOut_found hf ho]
  case back =>
    rw [exec_of_coreDue hm rfl]
    rfl
  case unknown => rw [exec_of_coreIs hm rfl, Mod.lateCpl_unknown hf]
  case quarantined => rw [exec_of_coreIs hm rfl, Mod.lateCpl_quarantined hf ho]

end

section
/-! PROOFS of the statements on the step, the queue and power: what holds of every command (spec/INDEX.md, R300, R344), of an empty queue
(log entry 2) and of the state at plinth power-up (R321, R328). They rest on one fact: every command but the arrival of power acts in the
frame `State.run`. -/

namespace Sys2Proof.Machine

/-! ### Every command acts in the frame -/

/-- Each row of the dispatch is a run of the frame, but the row that brings power to a plinth without it. -/
theorem exec_runs {c : Instr} (hc : c ≠ .plinthPowerUp) : ∃ op, ∀ s, exec c s = .next (s.run op) := by
  cases c
  case plinthPowerUp => exact absurd rfl hc
  all_goals exact ⟨_, fun _ => rfl⟩

section
variable {s : State}

theorem exec_plinthPowerUp_on (h : s.mod.pl.powered = true) : exec .plinthPowerUp s = .next (s.run id) := by
  show Host.Outcome.next _ = _
  rw [if_pos h]
  rfl

theorem exec_plinthPowerUp_off (h : s.mod.pl.powered = false) :
    exec .plinthPowerUp s = .next { s with mod := s.mod.settle s.mod.begun.plinthUp } := by
  show Host.Outcome.next _ = _
  rw [if_neg (ne_true_of_eq_false h)]
  rfl

/-- What a command answers, whatever the state: a run of the frame, or the end of the arrival of power. -/
theorem exec_cases (c : Instr) (s : State) :
    (∃ op, exec c s = .next (s.run op)) ∨ ∃ m, exec c s = .next { s with mod := s.mod.settle m } := by
  by_cases hc : c = .plinthPowerUp
  · subst hc
    cases hp : s.mod.pl.powered with
    | true => exact .inl ⟨_, exec_plinthPowerUp_on hp⟩
    | false => exact .inr ⟨_, exec_plinthPowerUp_off hp⟩
  · obtain ⟨op, hop⟩ := exec_runs hc
    exact .inl ⟨op, hop s⟩

theorem exec_next (c : Instr) (s : State) : ∃ t, exec c s = .next t ∧ t.pending = s.pending := by
  obtain ⟨op, h⟩ | ⟨m, h⟩ := exec_cases c s
  · exact ⟨_, h, State.run_pending s op⟩
  · exact ⟨_, h, rfl⟩

theorem exec_reported {c : Instr} {t : State} (hs : s.reported = true) (h : exec c s = .next t) : t.reported = true := by
  obtain ⟨op, hop⟩ | ⟨m, hm⟩ := exec_cases c s
  · rw [hop] at h
    cases h
    exact State.run_reported s op hs
  · rw [hm] at h
    cases h
    rw [State.reported, Mod.settle_evq]
    rfl

/-! ### Without power (R344) -/

theorem exec_off {c : Instr} (h : s.mod.pl.powered = false) (hc : c ≠ .plinthPowerUp) :
    exec c s = .next { s with mod := s.mod.begun } := by
  obtain ⟨op, hop⟩ := exec_runs hc
  rw [hop, State.run_off s op h]

theorem step_cons {c : Instr} {rest : List Instr} (h : s.pending = c :: rest) : step s = exec c { s with pending := rest } := by
  unfold step
  rw [h]

theorem step_nil (h : s.pending = []) : step s = .next s.idle := by
  unfold step
  rw [h]

/-- Without power a step takes the front command away and clears what left the module. -/
theorem step_off (h : s.mod.pl.powered = false) (hp : Instr.plinthPowerUp ∉ s.pending) :
    step s = .next { pending := s.pending.tail, mod := s.mod.begun } := by
  cases hq : s.pending with
  | nil =>
    rw [step_nil hq, State.idle, State.run_off s _ h, hq]
    rfl
  | cons c rest =>
    have hc : c ≠ .plinthPowerUp := fun e => hp (hq ▸ e ▸ List.mem_cons_self)
    rw [step_cons hq, exec_off (s := { s with pending := rest }) h hc]
    rfl

/-! ### Runs of any length -/

theorem run_succ (n : Nat) {t : State} (h : step s = .next t) : Sys2Proof.core.run (n + 1) s = Sys2Proof.core.run n t := by
  have hs : Sys2Proof.core.step s = .next t := h
  simp only [Host.Core.run, hs]

theorem run_drains (n : Nat) (s : State) (h : n ≤ s.pending.length) :
    ∃ t, Sys2Proof.core.run n s = .next t ∧ t.pending = s.pending.drop n := by
  induction n generalizing s with
  | zero => exact ⟨s, rfl, rfl⟩
  | succ n ih =>
    cases hq : s.pending with
    | nil => simp [hq] at h
    | cons c rest =>
      obtain ⟨u, hu, hrest⟩ := exec_next c { s with pending := rest }
      obtain ⟨t, ht, hdrop⟩ := ih u (by simpa [hrest, hq] using h)
      refine ⟨t, ?_, by rw [hdrop, hrest, List.drop_succ_cons]⟩
      rw [run_succ n ((step_cons hq).trans hu), ht]

theorem run_off (n : Nat) (s : State) (h : s.mod.pl.powered = false) (hp : Instr.plinthPowerUp ∉ s.pending) :
    ∃ t, Sys2Proof.core.run n s = .next t ∧ t.mod.begun = s.mod.begun := by
  induction n generalizing s with
  | zero => exact ⟨s, rfl, rfl⟩
  | succ n ih =>
    obtain ⟨t, ht, hmod⟩ := ih { pending := s.pending.tail, mod := s.mod.begun } h (fun hm => hp (List.mem_of_mem_tail hm))
    exact ⟨t, (run_succ n (step_off h hp)).trans ht, hmod⟩

end

/-! ### The state at plinth power-up -/

theorem State.reset_word {a : Nat} (ha : a ≠ Reg.GLB_PRODUCT_ID) : State.reset.mod.base.word a = regReset a := by
  simp [State.reset, Base.word, RegFile.get, List.lookup, beq_eq_false_iff_ne.2 ha]

theorem State.reset_productId : State.reset.mod.base.word Reg.GLB_PRODUCT_ID = 0x25600101#32 := rfl

end Sys2Proof.Machine

open Sys2Proof Sys2Proof.Machine

/-- Settles O7: a step runs a command or lets time pass, and each ends with the report of what was raised. -/
theorem stepsReportEveryEvent : Obligations.StepsReportEveryEvent := by
  intro s t hs h
  cases hq : s.pending with
  | nil =>
    rw [step_nil hq] at h
    cases h
    exact State.run_reported s _ hs
  | cons c rest =>
    rw [step_cons hq] at h
    exact exec_reported (by exact hs) h

/-- Settles O1, by the step's own match on the queue. -/
theorem stepRunsTheFrontCommand : Obligations.StepRunsTheFrontCommand :=
  fun _ _ _ h => step_cons h

/-- Settles O2: each command runs in the frame, which keeps the queue, or is the arrival of power, whose end keeps it too. -/
theorem everyCommandAnswersNext : Obligations.EveryCommandAnswersNext :=
  exec_next

/-- Settles O3: an empty queue runs the frame with one nanosecond more. -/
theorem emptyQueuePassesTime : Obligations.EmptyQueuePassesTime := by
  intro s hq
  rw [step_nil hq, State.idle]
  exact ⟨fun h => by rw [State.run_powered s _ h]; rfl, fun h => by rw [State.run_off s _ h]⟩

/-- Settles O4, by induction on the steps: each takes the front command and keeps the rest. -/
theorem queueDrainsInOrder : Obligations.QueueDrainsInOrder :=
  run_drains

/-- Settles O5: the frame does nothing without power. -/
theorem nothingHappensWithoutPlinthPower : Obligations.NothingHappensWithoutPlinthPower :=
  fun _ _ => exec_off

/-- Settles O6, by induction on the steps: each leaves the module as it is, its outputs cleared. -/
theorem runsWithoutPowerStandStill : Obligations.RunsWithoutPowerStandStill := by
  intro n s t h hp ht
  obtain ⟨u, hu, hmod⟩ := run_off n s h hp
  rw [hu] at ht
  cases ht
  exact hmod

/-- Settles O8: nothing has been raised, and both memories are empty. -/
theorem resetKeepsTheInvariants : Obligations.ResetKeepsTheInvariants :=
  ⟨rfl, rfl⟩

/-- Settles O9: the register file of that state lists GLB_PRODUCT_ID alone. -/
theorem resetState : Obligations.ResetState :=
  ⟨rfl, rfl, rfl, rfl, rfl, rfl, rfl, rfl, rfl, rfl, rfl, fun _ => State.reset_word, State.reset_productId⟩
end

section
/-! PROOFS of the statements of spec/19_register_map.md: the decoder finds every word of every register (R378), what an offset that no
register occupies answers (R379), and what visibility takes from a write and hides from a read (R382). -/

namespace Sys2Proof.Machine

/-! ### A row finds its own words (R378) -/

/-- The offset of word `w` of instance (`i1`, `i2`) of a register. -/
def RegRow.wordAt (r : RegRow) (i1 i2 w : Nat) : Nat := r.base + r.s1 * i1 + r.s2 * i2 + 4 * w

/-- An instance of a register ends before the next one begins: its words lie in the inner stride, and all its inner instances in the outer
one. A register without a stride has one instance. -/
def RegRow.nested (r : RegRow) : Bool :=
  (if r.s2 = 0 then r.n2 == 1 else decide (4 * r.words ≤ r.s2)) &&
    (if r.s1 = 0 then r.n1 == 1 else decide (r.s2 * (r.n2 - 1) + 4 * r.words ≤ r.s1))

/-- Dividing by a stride takes an instance apart from what lies within it; without a stride there is one instance. -/
theorem stride_div_mod {s i d n : Nat} (hi : i < n) (hd : if s = 0 then n = 1 else d < s) :
    (if s = 0 then 0 else (s * i + d) / s) = i ∧ (if s = 0 then s * i + d else (s * i + d) % s) = d := by
  split_ifs at hd ⊢ with hs
  · subst hs
    omega
  · rw [Nat.mul_add_div (Nat.pos_of_ne_zero hs), Nat.mul_add_mod, Nat.div_eq_of_lt hd, Nat.mod_eq_of_lt hd]
    exact ⟨rfl, rfl⟩

theorem stride_le {s i n : Nat} (hi : i < n) : s * i ≤ s * (n - 1) :=
  Nat.mul_le_mul_left s (Nat.le_sub_one_of_lt hi)

theorem RegRow.hit_at {r : RegRow} (hr : r.nested = true) {i1 i2 w : Nat} (h1 : i1 < r.n1) (h2 : i2 < r.n2) (hw : w < r.words) :
    r.hit (r.wordAt i1 i2 w) = some ⟨r, i1, i2, w⟩ := by
  simp only [RegRow.nested, Bool.and_eq_true] at hr
  obtain ⟨hin, hout⟩ := hr
  have hle := stride_le (s := r.s2) h2
  have outer := stride_div_mod (s := r.s1) (d := r.s2 * i2 + 4 * w) h1 (by
    split_ifs at hout ⊢ <;> simp only [beq_iff_eq, decide_eq_true_eq] at hout <;> omega)
  have inner := stride_div_mod (s := r.s2) (d := 4 * w) h2 (by
    split_ifs at hin ⊢ <;> simp only [beq_iff_eq, decide_eq_true_eq] at hin <;> omega)
  have hsub : r.wordAt i1 i2 w - r.base = r.s1 * i1 + (r.s2 * i2 + 4 * w) := by unfold RegRow.wordAt; omega
  unfold RegRow.hit
  rw [if_neg (by unfold RegRow.wordAt; omega)]
  simp only [hsub, outer.1, outer.2, inner.1, inner.2]
  rw [if_pos ⟨h1, h2, by omega⟩, Nat.mul_div_cancel_left w (by decide)]

/-- Offset `a` lies in an instance of the register. -/
def RegRow.Covers (r : RegRow) (a : Nat) : Prop :=
  ∃ i1 i2 k, i1 < r.n1 ∧ i2 < r.n2 ∧ k < 4 * r.words ∧ a = r.base + r.s1 * i1 + r.s2 * i2 + k

theorem RegRow.covers_at (r : RegRow) {i1 i2 w : Nat} (h1 : i1 < r.n1) (h2 : i2 < r.n2) (hw : w < r.words) :
    r.Covers (r.wordAt i1 i2 w) :=
  ⟨i1, i2, 4 * w, h1, h2, by omega, rfl⟩

theorem stride_split (s d : Nat) : s * (if s = 0 then 0 else d / s) + (if s = 0 then d else d % s) = d := by
  split_ifs with hs
  · omega
  · exact Nat.div_add_mod d s

theorem RegRow.covers_of_hit {r : RegRow} {a : Nat} {h : RegHit} (hh : r.hit a = some h) : r.Covers a := by
  unfold RegRow.hit at hh
  simp only [Option.ite_none_left_eq_some, Option.ite_none_right_eq_some] at hh
  obtain ⟨hlo, ⟨hi1, hi2, hd⟩, -⟩ := hh
  refine ⟨_, _, _, hi1, hi2, hd, ?_⟩
  have outer := stride_split r.s1 (a - r.base)
  have inner := stride_split r.s2 (if r.s1 = 0 then a - r.base else (a - r.base) % r.s1)
  omega

/-! ### No two registers of a block meet (R378) -/

/-- How far the instances of a register reach past its base, seen modulo `M`: strides that `M` divides do not show. -/
def RegRow.reach (r : RegRow) (M : Nat) : Nat :=
  (if M ∣ r.s1 then 0 else r.s1 * (r.n1 - 1)) + (if M ∣ r.s2 then 0 else r.s2 * (r.n2 - 1)) + 4 * r.words

/-- Do two registers keep to disjoint windows modulo `M`? -/
def RegRow.apartMod (r r' : RegRow) (M : Nat) : Bool :=
  decide (r.base % M + r.reach M ≤ M) && decide (r'.base % M + r'.reach M ≤ M) &&
    (decide (r.base % M + r.reach M ≤ r'.base % M) || decide (r'.base % M + r'.reach M ≤ r.base % M))

/-- The size of the control window, and the strides of the index. -/
def mapModuli : List Nat := [0x4000000, 0x10000, 0x4000, 0x1000, 0x400, 0x100, 0x20, 0x10, 8]

theorem stride_add_mod (s i n M : Nat) (hi : i < n) : ∃ q e, s * i = M * q + e ∧ e ≤ if M ∣ s then 0 else s * (n - 1) := by
  split_ifs with hd
  · obtain ⟨c, rfl⟩ := hd
    exact ⟨c * i, 0, by rw [Nat.mul_assoc, Nat.add_zero], le_rfl⟩
  · exact ⟨0, s * i, by omega, stride_le hi⟩

/-- An offset of a register lies in the register's window modulo `M`. -/
theorem RegRow.Covers.mod_window {r : RegRow} {a M : Nat} (h : r.Covers a) (hM : r.base % M + r.reach M ≤ M) :
    r.base % M ≤ a % M ∧ a % M < r.base % M + r.reach M := by
  obtain ⟨i1, i2, k, h1, h2, hk, rfl⟩ := h
  obtain ⟨q1, e1, hq1, he1⟩ := stride_add_mod r.s1 i1 r.n1 M h1
  obtain ⟨q2, e2, hq2, he2⟩ := stride_add_mod r.s2 i2 r.n2 M h2
  have hreach : e1 + e2 + k < r.reach M := by unfold RegRow.reach; omega
  have hmod : (r.base + r.s1 * i1 + r.s2 * i2 + k) % M = r.base % M + (e1 + e2 + k) := by
    calc (r.base + r.s1 * i1 + r.s2 * i2 + k) % M
        = (r.base % M + (e1 + e2 + k) + M * (r.base / M + q1 + q2)) % M := by
          congr 1
          rw [hq1, hq2, Nat.mul_add, Nat.mul_add]
          have := Nat.mod_add_div r.base M
          omega
      _ = r.base % M + (e1 + e2 + k) := by rw [Nat.add_mul_mod_self_left, Nat.mod_eq_of_lt (by omega)]
  omega

theorem RegRow.not_covers_of_apart {r r' : RegRow} (hap : mapModuli.any (r.apartMod r') = true) {a : Nat} (h : r.Covers a) :
    ¬r'.Covers a := by
  intro h'
  obtain ⟨M, -, hM⟩ := List.any_eq_true.1 hap
  simp only [RegRow.apartMod, Bool.and_eq_true, Bool.or_eq_true, decide_eq_true_eq] at hM
  obtain ⟨⟨hr, hr'⟩, hdis⟩ := hM
  have hw := h.mod_window hr
  have hw' := h'.mod_window hr'
  omega

/-! ### The block of an offset (R378) -/

/-- Where the spans of the blocks end. -/
def blockEnds : List Nat :=
  [0x100000, 0x200000, 0x300000, 0x400000, 0x800000, 0xc00000, 0x1000000, 0x1200000, 0x1400000, 0x1800000, 0x1c00000, 0x2000000,
    0x2400000, 0x2800000, 0x2c00000, 0x3000000, 0x3100000]

/-- Offsets with no end of a span between them lie in one block. -/
theorem blockRows_congr {a b : Nat} (h : ∀ c ∈ blockEnds, a < c ↔ b < c) : blockRows a = blockRows b := by
  simp only [blockEnds, List.forall_mem_cons, List.not_mem_nil, false_imp_iff, implies_true, and_true] at h
  simp only [blockRows, h]

/-- What the index shows row by row: its instances follow one another, it keeps apart from every other row of its block, and it does not
reach over the end of a span. -/
theorem allRows_placed : ∀ r ∈ allRows, r.nested = true ∧
    (∀ r' ∈ blockRows r.base, r' ≠ r → mapModuli.any (r.apartMod r') = true) ∧ r ∈ blockRows r.base ∧
    ∀ c ∈ blockEnds, r.base < c → r.base + r.s1 * (r.n1 - 1) + r.s2 * (r.n2 - 1) + 4 * r.words ≤ c := by
  decide +kernel

theorem RegRow.Covers.block {r : RegRow} {a : Nat} (h : r.Covers a) (hr : r ∈ allRows) : blockRows a = blockRows r.base := by
  obtain ⟨i1, i2, k, h1, h2, hk, rfl⟩ := h
  have hl1 := stride_le (s := r.s1) h1
  have hl2 := stride_le (s := r.s2) h2
  refine blockRows_congr fun c hc => ⟨fun hlt => by omega, fun hlt => ?_⟩
  obtain ⟨-, -, -, hends⟩ := allRows_placed r hr
  have := hends c hc hlt
  omega

/-- The one element of a list that answers is the answer of the list. -/
theorem findSome?_eq_of_unique {α β : Type} {f : α → Option β} {l : List α} {x : α} {y : β} (hx : x ∈ l) (hy : f x = some y)
    (hun : ∀ z ∈ l, z ≠ x → f z = none) : l.findSome? f = some y := by
  cases h : l.findSome? f with
  | none => rw [List.findSome?_eq_none_iff.1 h x hx] at hy; cases hy
  | some v =>
    obtain ⟨z, hz, hv⟩ := List.exists_of_findSome?_eq_some h
    by_cases hzx : z = x
    · rw [← hv, hzx, hy]
    · rw [hun z hz hzx] at hv
      cases hv

theorem regAt_at {r : RegRow} (hr : r ∈ allRows) {i1 i2 w : Nat} (h1 : i1 < r.n1) (h2 : i2 < r.n2) (hw : w < r.words) :
    regAt (r.wordAt i1 i2 w) = some ⟨r, i1, i2, w⟩ := by
  have hcov := r.covers_at h1 h2 hw
  obtain ⟨hnested, hapart, hblock, -⟩ := allRows_placed r hr
  unfold regAt
  rw [hcov.block hr]
  refine findSome?_eq_of_unique hblock (RegRow.hit_at hnested h1 h2 hw) fun r' hr' hne => ?_
  rw [Option.eq_none_iff_forall_ne_some]
  exact fun h hh => RegRow.not_covers_of_apart (hapart r' hr' hne) hcov (RegRow.covers_of_hit hh)

/-! ### Offsets of no register, and what visibility takes away (R379, R382) -/

section
variable {m : Mod} {w : Who} {off : Nat}

theorem Mod.readWord_reserved (hat : regAt off = none) (wide : Bool) : m.readWord w off wide = (m, 0) := by
  simp only [Mod.readWord, hat]

theorem Mod.decodeWrite_reserved (hat : regAt off = none) (v : Nat) :
    m.decodeWrite w off v = { m with base := m.base.dropHold off } := by
  simp only [Mod.decodeWrite, hat]

@[simp] theorem Base.dropHold_evq (b : Base) (off : Nat) : (b.dropHold off).evq = b.evq := by
  unfold Base.dropHold
  split
  · split <;> rfl
  · rfl

/-- A host's write that visibility takes away is ignored with its partition's advisory event. -/
theorem Mod.decodeWrite_unseen {p : Fin 8} {h : RegHit} (hat : regAt off = some h)
    (hs : (m.base.dropHold off).sight (.host p) off h = .hidden ∨ (m.base.dropHold off).sight (.host p) off h = .readOnly) (v : Nat) :
    m.decodeWrite (.host p) off v = { m with base := (m.base.dropHold off).raise (misuseEv p.val) } := by
  rcases hs with hs | hs <;> simp only [Mod.decodeWrite, hat, hs] <;> rfl

theorem Mod.readWord_hidden {h : RegHit} (hat : regAt off = some h) (hs : m.base.sight w off h = .hidden) (wide : Bool) :
    m.readWord w off wide = (m, 0) := by
  simp only [Mod.readWord, hat, hs]

end

end Sys2Proof.Machine

open Sys2Proof Sys2Proof.Machine

/-- Settles O10: a row's own words hit it, no other row of its block covers them, and the block's span holds them. -/
theorem registerMapFindsEveryRegister : Obligations.RegisterMapFindsEveryRegister :=
  fun _ hr _ _ _ h1 h2 hw => regAt_at hr h1 h2 hw

/-- Settles O12: the decoder finds no register there, and R16 refuses an access before the decoder. -/
theorem reservedOffsets : Obligations.ReservedOffsets := by
  refine ⟨fun m w off v wide hat => ?decoder, fun s w off wr width _ href => ?refused⟩
  case decoder =>
    rw [Mod.readWord_reserved hat, Mod.decodeWrite_reserved hat]
    exact ⟨rfl, rfl, Base.dropHold_evq m.base off⟩
  case refused =>
    calc exec (.refusedRegisterAccess w off wr width) s
        = .next (s.run (fun m => m.rowRefused w off wr width.val)) := rfl
      _ = _ := by rw [State.run_refused href]

/-- Settles O13, at the decoder's match on what the host sees of the register. -/
theorem ignoredWritesRaiseHiddenReadsDoNot : Obligations.IgnoredWritesRaiseHiddenReadsDoNot :=
  fun _ _ _ v wide _ hat => ⟨fun hs => Mod.decodeWrite_unseen hat hs v, fun hs => Mod.readWord_hidden hat hs wide⟩
end

section
/-! PROOFS of the statement of spec/11_lanes.md: what happens to lanes and tiles (R227, R237 to R240, R242 to R246). Before it stand the
lemmas that say what the functions that its commands call do in each case. -/

namespace Sys2Proof.Machine

/-! ### A lane adapts and is measured (R237 to R240) -/

section
variable {m : Mod} {b : Base} {l : Nat}

/-- A PCI Express lane that detects signal: its status starts over, its last result is stale, and its adaptation starts. -/
theorem Mod.signalDetect_pcie (hon : m.base.isSet (Reg.SER_LANE_CFG l) F.SER_LANE_CFG_disable = false)
    (hb : ((m.base.wr (Reg.SER_STATUS l) F.SER_STATUS_sig_det 1).wr (Reg.SER_STATUS l) F.SER_STATUS_cdr_lock 0).wr (Reg.SER_STATUS l)
      F.SER_STATUS_adapt_done 0 = b) (hpcie : b.camTile (laneTile l) = false) :
    m.signalDetect l =
      ({ m with base := ((b.wr (Reg.SER_EYE l) F.SER_EYE_valid 0).wr (Reg.SER_EYE l) F.SER_EYE_paused 0).wr
                  (Reg.SER_TILE_STATUS (laneTile l)) ⟨8 + l % 8, 1⟩ 0 } : Mod).setLaneRt
        { (m.laneRt l) with adaptAt := some m.base.now } := by
  have hnow : b.now = m.base.now := by rw [← hb, Base.wr_now, Base.wr_now, Base.wr_now]
  simp only [Mod.signalDetect, hon, hb, hpcie, hnow, Base.eyeStale, Bool.false_eq_true, if_false]

variable {x : Adaptation}

theorem Mod.adaptDone_pcie (hl : l < 192) : m.adaptDone l x = m.adaptDoneAt l x :=
  if_neg (Nat.not_le.2 hl)

theorem Mod.adaptDone_camtex (hl : 192 ≤ l) : m.adaptDone l x = (m.adaptDoneAt l x).camStep (l / 8 - 24) :=
  if_pos hl

/-- An adaptation that lost its signal has no result. -/
theorem Mod.adaptDoneAt_noSignal (h : m.base.isSet (Reg.SER_STATUS l) F.SER_STATUS_sig_det = false) : m.adaptDoneAt l x = m := by
  simp only [Mod.adaptDoneAt, h, Bool.not_false, if_true]

/-- The registers once an adaptation has ended: lock, the CTLE code, the taps and the first result of the eye (R238). -/
def Base.adapted (b : Base) (l start : Nat) (x : Adaptation) : Base :=
  let a := Reg.SER_STATUS l
  let c := Reg.SER_RX_CTL l
  let thr := b.errThr (laneTile l)
  let r := measured thr x.scan
  let ok := x.lock && decide (b.now ≤ start + 4 * ms)
  let code := if b.isSet c F.SER_RX_CTL_ctle_ovr then b.rd c F.SER_RX_CTL_ctle_set
    else fineCtle thr (coarseCtle thr x.coarse) x.again x.beside
  let b := ((b.flag a F.SER_STATUS_cdr_lock ok).wr a F.SER_STATUS_adapt_done 1).wr c F.SER_RX_CTL_ctle code
  ((b.putTaps l x.taps).putEye l (if ok then r.2.2.2 else 0) r.2.1 r.2.2.1 r.1).bump (Reg.SER_CNT l 7)

/-- The end of an adaptation on a PCI Express lane, whose tile has no lane of R239 to show. -/
theorem Mod.adaptDoneAt_pcie {start : Nat} (hsig : m.base.isSet (Reg.SER_STATUS l) F.SER_STATUS_sig_det = true)
    (hat : (m.laneRt l).adaptAt = some start) (hpcie : (m.base.adapted l start x).camTile (laneTile l) = false) :
    m.adaptDoneAt l x =
      ({ m with base := m.base.adapted l start x } : Mod).setLaneRt { (m.laneRt l) with adaptAt := none } := by
  unfold Base.adapted at *
  simp only [Mod.adaptDoneAt, hsig, hat, hpcie, Bool.not_true, Bool.false_eq_true, if_false]

/-- The registers once the DFE of a lane in service has tracked, unless it is frozen (R238 step 6). -/
def Base.tracked (b : Base) (l : Nat) (taps : List Byte) : Base :=
  if b.laneInService l && !b.isSet (Reg.SER_RX_CTL l) F.SER_RX_CTL_freeze && !taps.isEmpty then b.putTaps l taps else b

/-- A full measurement ends: margining and a tile that does not measure drop it (R240). -/
theorem Base.eyeDone_eq (scan : List SubEye) (taps : List Byte) :
    b.eyeDone l scan taps =
      let n := b.tracked l taps
      let e := measured (n.errThr (laneTile l)) scan
      if n.isSet (Reg.SER_EYE l) F.SER_EYE_paused || !n.isSet (Reg.SER_EYE_CFG (laneTile l)) F.SER_EYE_CFG_run then n
      else n.putEye l (if n.isSet (Reg.SER_STATUS l) F.SER_STATUS_cdr_lock then e.2.2.2 else 0) e.2.1 e.2.2.1 e.1 := rfl

section
variable {scan : List SubEye} {taps : List Byte}

theorem Base.eyeDone_dropped
    (h : (b.tracked l taps).isSet (Reg.SER_EYE l) F.SER_EYE_paused = true ∨
      (b.tracked l taps).isSet (Reg.SER_EYE_CFG (laneTile l)) F.SER_EYE_CFG_run = false) :
    b.eyeDone l scan taps = b.tracked l taps := by
  rw [Base.eyeDone_eq]
  exact if_pos (by rcases h with h | h <;> simp [h])

theorem Base.eyeDone_kept (hp : (b.tracked l taps).isSet (Reg.SER_EYE l) F.SER_EYE_paused = false)
    (hr : (b.tracked l taps).isSet (Reg.SER_EYE_CFG (laneTile l)) F.SER_EYE_CFG_run = true) :
    b.eyeDone l scan taps =
      let n := b.tracked l taps
      let e := measured (n.errThr (laneTile l)) scan
      n.putEye l (if n.isSet (Reg.SER_STATUS l) F.SER_STATUS_cdr_lock then e.2.2.2 else 0) e.2.1 e.2.2.1 e.1 := by
  rw [Base.eyeDone_eq]
  exact if_neg (by simp [hp, hr])

end

/-! ### Margining (R245) -/

theorem Mod.marginCommand_camtex (h : m.base.camTile (laneTile l) = true) (c : MarginCmd) : m.marginCommand l c = m :=
  if_pos h

theorem Mod.marginCommand_report (h : m.base.camTile (laneTile l) = false) {sel v : Nat} (hv : marginReport sel = some v) :
    m.marginCommand l (.report sel) = m.marginSay l v := by
  simp only [Mod.marginCommand, h, hv, Bool.false_eq_true, if_false]

end

theorem exec_marginReport {s : State} {m : Mod} {l : Fin 256} (hm : s.coreIs m) (h : m.base.camTile (laneTile l.val) = false)
    {sel v : Nat} (hv : marginReport sel = some v) :
    exec (.marginCommand l (.report sel)) s = .next (s.ends (m.marginSay l.val v)) := by
  rw [exec_of_coreIs hm rfl, Mod.marginCommand_report h hv]

/-! ### Tiles (R227, R246) -/

section
variable {m : Mod} {t : Nat}

/-- A tile that may gate: its idle time is over, or a cell queued for it starts the time anew. -/
theorem Mod.tileGate_idle (hpcie : m.base.camTile t = false) (htest : m.base.inTest t = false)
    (hgate : m.base.isSet (Reg.SER_TILE_CTL t) F.SER_TILE_CTL_no_gate = false) (hidle : m.base.tileIdle t = true) :
    m.tileGate t =
      if m.cellQueued t then m.idleAnew (m.base.portsTouch t)
      else { m with base := (({ m.base with now := max m.base.now (m.idleDue t) } : Base).wr (Reg.SER_TILE_STATUS t)
                      F.SER_TILE_STATUS_gated 1).showM1 } := by
  simp only [Mod.tileGate, hpcie, htest, hgate, hidle, Bool.not_true, Bool.or_self, Bool.false_eq_true, if_false]

/-- The tiles below 24 carry no Camtex link. -/
theorem Mod.pllLoss_pcie (ht : t < 24) :
    m.pllLoss t =
      ({ m with base := (m.base.raise { group := 10, bit := t, cause := 0, sev := 1 }).wr (Reg.SER_TILE_STATUS t)
                  F.SER_TILE_STATUS_pll_lock 0 } : Mod).tileDown t :=
  if_neg (by simp [Nat.not_le.2 ht])

theorem Mod.pllLock_pcie (ht : t < 24) (hen : m.base.tileEnabled t = true)
    (htest : (m.base.wr (Reg.SER_TILE_STATUS t) F.SER_TILE_STATUS_pll_lock 1).inTest t = false) :
    m.pllLock t = ({ m with base := m.base.wr (Reg.SER_TILE_STATUS t) F.SER_TILE_STATUS_pll_lock 1 } : Mod).tileTrain t := by
  simp [Mod.pllLock, hen, htest, Nat.not_le.2 ht]

theorem Mod.pllLock_disabled (hen : m.base.tileEnabled t = false) : m.pllLock t = m := by
  simp [Mod.pllLock, hen]

end

/-! ### Bits arrive on a lane (R242 to R244) -/

section
variable {m : Mod} {l : Nat} {bs : List Bool}

/-- The checker of a lane takes what its receiver gets. -/
theorem Mod.patternIn_checks (h : m.base.isSet (Reg.SER_PRBS l) F.SER_PRBS_chk_en = true) :
    m.patternIn l bs =
      let g := Reg.SER_PRBS l
      let r := (m.laneRt l).chk.takeAll (m.base.rd g F.SER_PRBS_chk_sel) (m.base.isSet g F.SER_PRBS_chk_lock) bs
      ({ m with base := ((m.base.flag g F.SER_PRBS_chk_lock r.2.1).bumpBy (Reg.SER_CNT l 0) r.2.2.1).bumpBy (Reg.SER_CNT l 1) r.2.2.2 }
        : Mod).setLaneRt { (m.laneRt l) with chk := r.1 } :=
  if_neg (by simp [h])

theorem Mod.patternIn_idle (h : m.base.isSet (Reg.SER_PRBS l) F.SER_PRBS_chk_en = false) : m.patternIn l bs = m :=
  if_pos (by simp [h])

/-- In test mode with no loopback and no generator only the checker acts. -/
theorem Mod.lineBits_checker (htest : m.base.inTest (laneTile l) = true) (hmode : m.base.rd (Reg.SER_LOOP l) F.SER_LOOP_mode = 0)
    (hgen : m.base.isSet (Reg.SER_PRBS l) F.SER_PRBS_gen_en = false) : m.lineBits l bs = m.patternIn l bs := by
  simp only [Mod.lineBits, htest, Mod.patternOut, hmode, hgen, if_true]
  rfl

/-- Under a far-end loopback what comes goes back, and the checker takes it too. -/
theorem Mod.lineBits_farEnd (htest : m.base.inTest (laneTile l) = true) (hmode : m.base.rd (Reg.SER_LOOP l) F.SER_LOOP_mode = 3) :
    m.lineBits l bs = ({ m with base := m.base.sendBits l bs } : Mod).patternIn l bs := by
  simp only [Mod.lineBits, htest, Mod.patternOut, hmode, if_true]
  rfl

theorem Mod.lineBits_normal (htest : m.base.inTest (laneTile l) = false) :
    m.lineBits l bs = if (m.laneRt l).slave then { m with base := m.base.sendBits l bs } else m :=
  if_neg (ne_true_of_eq_false htest)

end

end Sys2Proof.Machine

open Sys2Proof Sys2Proof.Machine

/-- Settles O41: each command finds the core running, and its function takes the branch that the case names. -/
theorem laneCommands : Obligations.LaneCommands := by
  intro s m l t hm
  refine ⟨fun hon _ hb => ?signal, fun x => ⟨fun hsig hl => ?noSignal, fun hl => ?camtex, fun start hsig hat hb hl => ?adapted⟩,
    fun scan taps => ⟨fun h => ?dropped, fun hp hr => ?kept⟩, fun hcam c => ?notMargined, fun hpcie => ?margined,
    fun hpcie htest hgate hidle => ?gate, ?ungate, fun ht => ⟨?loss, fun hlo hhi htest hen => ?lock⟩, fun hen => ?disabled,
    fun bs => ⟨fun htest hmode hgen hchk => ?checker, fun htest hmode hchk => ?farEnd, fun htest hs => ?slave, fun htest hs => ?nothing⟩⟩
  case signal => rw [exec_of_coreIs hm rfl, Mod.signalDetect_pcie hon rfl hb]
  case noSignal => rw [exec_of_coreIs hm rfl, Mod.adaptDone_pcie hl, Mod.adaptDoneAt_noSignal hsig]
  case camtex => rw [exec_of_coreIs hm rfl, Mod.adaptDone_camtex hl]
  case adapted =>
    rw [exec_of_coreIs hm rfl, Mod.adaptDone_pcie hl, Mod.adaptDoneAt_pcie hsig hat hb]
    rfl
  case dropped =>
    rw [exec_of_coreIs hm rfl, Base.eyeDone_dropped h]
    rfl
  case kept =>
    rw [exec_of_coreIs hm rfl, Base.eyeDone_kept hp hr]
    rfl
  case notMargined => rw [exec_of_coreIs hm rfl, Mod.marginCommand_camtex hcam]
  case margined =>
    have say {c : MarginCmd} {n : Mod} (hc : m.marginCommand l.val c = n) : exec (.marginCommand l c) s = .next (s.ends n) := by
      rw [exec_of_coreIs hm rfl, hc]
    have told (sel v : Nat) (hv : marginReport sel = some v) := exec_marginReport hm hpcie hv
    have other : ¬m.base.camTile (laneTile l.val) = true := ne_true_of_eq_false hpcie
    exact ⟨say (if_neg other), say (if_neg other), told 0x88 _ rfl, told 0x89 _ rfl, told 0x8A _ rfl, told 0x8B _ rfl, told 0x8C _ rfl,
      told 0x8D _ rfl, told 0x8E _ rfl, told 0x90 _ rfl, fun n => say (if_neg other), say (if_neg other),
      fun d n => ⟨say (if_neg other), say (if_neg other)⟩⟩
  case gate =>
    rw [exec_of_coreIs hm rfl, Mod.tileGate_idle hpcie htest hgate hidle]
    exact ⟨fun hq => by rw [if_neg (ne_true_of_eq_false hq)], fun hq => by rw [if_pos hq]⟩
  case ungate =>
    rw [exec_of_coreIs hm rfl]
    rfl
  case loss => rw [exec_of_coreIs hm rfl, Mod.pllLoss_pcie ht]
  case lock =>
    rw [exec_of_coreIs hm rfl, if_pos (by rw [decide_eq_true hlo, decide_eq_true hhi]; rfl), Mod.pllLock_pcie ht hen htest]
  case disabled =>
    rw [exec_of_coreIs hm rfl, Mod.pllLock_disabled hen, ite_self]
  case checker => rw [exec_of_coreIs hm rfl, Mod.lineBits_checker htest hmode hgen, Mod.patternIn_checks hchk]
  case farEnd => rw [exec_of_coreIs hm rfl, Mod.lineBits_farEnd htest hmode, Mod.patternIn_idle hchk]
  case slave => rw [exec_of_coreIs hm rfl, Mod.lineBits_normal htest, if_pos hs]
  case nothing => rw [exec_of_coreIs hm rfl, Mod.lineBits_normal htest, if_neg (ne_true_of_eq_false hs)]
end

section
/-! A counterexample to the statement of spec/12_camtex_link.md on flits: a segment of a stream that waits for the answer to its SYNC does
not go out (R278), however much credit and window there is. -/

namespace Sys2Proof.Machine

/-! ### A segment that waits for the answer to a SYNC (R278) -/

/-- Camtex port 7 is ACTIVE, with credit for one request; the one segment that it has to send is of a stream of this module's own that waits
for the answer to its SYNC. -/
def syncAwaited : State :=
  let b := ({ coreOn := true } : Base).wr Reg.CLK_STATUS F.CLK_STATUS_stage 6
  let b := (b.wr (Reg.PRT_CFG 63) F.PRT_CFG_role 4).wr (Reg.SER_STATUS 248) F.SER_STATUS_port 63
  { mod := { base := b.setCamState 7 6, pl := { powered := true, dieOn := true },
             cams := [{ k := 7, running := true, clReq := 1, tx := [{}] }],
             bnd := { outs := [{ path := 0, cls := .request, state := 1 }] } } }

/-- How many flits Camtex port `k` holds for a replay in the state that a command answers. -/
def heldAfter (k : Nat) : Answer → Option Nat
  | .next t => some (t.mod.cam k).held.length
  | _ => none

end Sys2Proof.Machine

open Sys2Proof Sys2Proof.Machine

/-- Refutes O43: the statement sends the first segment that credit and window allow, where the model passes over one whose stream waits for
the answer to its SYNC. With no other segment to send, the model ends with no flit held and the statement with one. -/
theorem not_flitCommands : ¬ Obligations.FlitCommands := by
  intro h
  obtain ⟨hsend, -⟩ := h syncAwaited syncAwaited.mod.begun 7
  obtain ⟨-, -, -, hdata⟩ := hsend 63 ⟨by decide +kernel, rfl⟩ (by decide +kernel) (by decide +kernel) (by decide)
  have hstated := hdata {} (by decide +kernel) (by decide +kernel) (by decide +kernel)
  have hheld : heldAfter 7 (exec (.flitSend 7) syncAwaited) = some 0 := by decide +kernel
  rw [hstated] at hheld
  exact absurd hheld (by decide +kernel)
end

section
/-! PROOFS of the statement of spec/13_bonds.md on the writes of bond registers (R272, R285, R293). Before it stand the rules of the
registers that are written, and what the functions that they call do in each case. -/

namespace Sys2Proof.Machine

/-! ### Bond registers are written (R272, R285, R293) -/

/-- The lend command and the stream peek are single registers. -/
theorem regAt_bondCommands_name :
    (regAt Reg.BND_LEND_CTL).map (fun h => (h.row.name, h.i1)) = some (.BND_LEND_CTL, 0) ∧
      (regAt Reg.BND_STREAM_IDX).map (fun h => (h.row.name, h.i1)) = some (.BND_STREAM_IDX, 0) := by
  decide +kernel

/-- The names of the eight registers of a routing entry (R287). -/
def rtName (i : Fin 8) : RegName :=
  [RegName.BND_RT0, .BND_RT1, .BND_RT2, .BND_RT3, .BND_RT4, .BND_RT5, .BND_RT6, .BND_RT7].getD i.val .BND_RT0

/-- The index lists each register of a routing entry with one instance for each entry, 32 bytes apart. -/
theorem rtRows : ∀ i : Fin 8, ∃ r ∈ allRows, r.name = rtName i ∧ r.base = Reg.BND_RT0 0 + 4 * i.val ∧ r.n1 = 65536 ∧ r.s1 = 0x20 ∧
    r.n2 = 1 ∧ r.s2 = 0 ∧ r.words = 1 := by
  decide +kernel

theorem regAt_rtOff_name (e : Fin 65536) (i : Fin 8) :
    (regAt (rtOff e.val i.val)).map (fun h => (h.row.name, h.i1)) = some (rtName i, e.val) := by
  obtain ⟨r, hr, hn, hb, hn1, hs1, hn2, hs2, hw⟩ := rtRows i
  have hoff : rtOff e.val i.val = r.wordAt e.val 0 0 := by
    unfold rtOff RegRow.wordAt
    rw [hb, hs1, hs2]
    unfold Reg.BND_RT0
    omega
  rw [hoff, regAt_at hr (by omega) (by omega) (by omega), Option.map_some, hn]

section
variable {s : State} {m : Mod} {w : Who} {c : Instr} {h : RegHit} {off v : Nat} {i : Fin 8}

theorem Mod.wordWrite_BND_LEND_CTL (hn : h.row.name = .BND_LEND_CTL) : m.wordWrite w off h v = m.lendGo v := by
  unfold Mod.wordWrite
  rw [hn]

theorem Mod.wordWrite_BND_STREAM_IDX (hn : h.row.name = .BND_STREAM_IDX) : m.wordWrite w off h v = m.streamPeek v := by
  unfold Mod.wordWrite
  rw [hn]

theorem rtName_ne_PRK_PEEK_IDX : ∀ i : Fin 8, rtName i ≠ .PRK_PEEK_IDX := by
  decide

theorem Mod.wordWrite_rt (hn : h.row.name = rtName i) :
    m.wordWrite w off h v = if i = 0 then m.rtCommit w h.i1 v else m.rtWrite w h.i1 i.val v := by
  unfold Mod.wordWrite
  rw [hn]
  fin_cases i <;> rfl

/-- A write of register `i` of a routing entry, by either row that makes it. -/
theorem exec_of_rtWrites {e : Fin 65536} (hw : s.writes w (rtOff e.val i.val) m h)
    (hc : exec c s = .next (s.run (fun m => m.rowWrite w (rtOff e.val i.val) false v))) :
    exec c s = .next (s.ends (if i = 0 then m.rtCommit w e.val v else m.rtWrite w e.val i.val v)) :=
  exec_of_unitWrites (rule := fun e => if i = 0 then m.rtCommit w e v else m.rtWrite w e i.val v) (regAt_rtOff_name e i)
    (rtName_ne_PRK_PEEK_IDX i) Mod.wordWrite_rt hw hc

/-- The registers once BND_LEND_CTL is written, before a request goes out (R285). -/
def Base.lendCtlWritten (b : Base) (v : Nat) : Base :=
  let keep := (b.word Reg.BND_LEND_CTL).toNat
  b.setWord Reg.BND_LEND_CTL (BitVec.ofNat 32 (v % 2 ^ 28 + 2 ^ 29 * bits keep ⟨29, 1⟩ + 2 ^ 30 * (if bitOf v 30 then 0 else bits keep ⟨30, 1⟩)))

/-- A lend or an unlend goes to the keystone while no request is out. -/
theorem Mod.lendGo_asks (hgo : bitOf v 28 = true) (hdone : m.base.isSet Reg.BND_LEND_CTL F.BND_LEND_CTL_done = true)
    (hop : bits v F.BND_LEND_CTL_op = 1 ∨ bits v F.BND_LEND_CTL_op = 2)
    (hfab : (m.base.lendCtlWritten v).isSet Reg.BND_CFG F.BND_CFG_fabric = true) (hon : (m.base.lendCtlWritten v).bondOn = true) :
    m.lendGo v =
      let b := m.base.lendCtlWritten v
      let r : LendReq := { unlend := bits v F.BND_LEND_CTL_op == 2, ownerPath := bits v F.BND_LEND_CTL_owner_path,
                           slot := bits v F.BND_LEND_CTL_slot, borrowerPath := b.path, partition := bits v F.BND_LEND_CTL_partition,
                           dev := bits v F.BND_LEND_CTL_dev }
      ({ m with base := b.wr Reg.BND_LEND_CTL F.BND_LEND_CTL_done 0, bnd := { m.bnd with asks := [r] } } : Mod).askKeystone r := by
  have hsent : (!bitOf v 28 || !bitOf (m.base.word Reg.BND_LEND_CTL).toNat 29) = false := by
    rw [hgo, show bitOf (m.base.word Reg.BND_LEND_CTL).toNat 29 = true from hdone]
    rfl
  have hknown : (decide (bits v F.BND_LEND_CTL_op ≠ 1) && decide (bits v F.BND_LEND_CTL_op ≠ 2) ||
      !(m.base.lendCtlWritten v).isSet Reg.BND_CFG F.BND_CFG_fabric || !(m.base.lendCtlWritten v).bondOn) = false := by
    rcases hop with hop | hop <;> simp [hop, hfab, hon]
  exact (if_neg (ne_true_of_eq_false hsent)).trans (if_neg (ne_true_of_eq_false hknown))

theorem Mod.streamPeek_index (hgo : bitOf v 31 = false) :
    m.streamPeek v = { m with base := m.base.setWord Reg.BND_STREAM_IDX (BitVec.ofNat 32 (v % 2 ^ 14)) } := by
  simp only [Mod.streamPeek, hgo, Bool.not_false, if_true]

/-- A peek of an inbound stream. -/
theorem Mod.streamPeek_in (hgo : bitOf v 31 = true) (hin : bitOf v 13 = true) :
    m.streamPeek v =
      let x := m.inStream (v % 4096) (if bitOf v 12 then SegClass.response else SegClass.request)
      { m with base := (m.base.setWord Reg.BND_STREAM_IDX (BitVec.ofNat 32 (v % 2 ^ 14))).setWord64 Reg.BND_STREAM_DATA
                 (x.e + 2 ^ 52 * (if x.synced then 2 else 0) + 2 ^ 63) } := by
  simp only [Mod.streamPeek, hgo, hin, Bool.not_true, Bool.false_eq_true, if_false, if_true]

/-- What BND_STREAM_DATA shows of an outbound stream, below its valid bit (R272). -/
def OutStream.shown (o : OutStream) : Nat := o.next + 2 ^ 32 * o.held.length + 2 ^ 49 * o.port.getD 0 + 2 ^ 52 * o.state

theorem Mod.streamPeek_out (hgo : bitOf v 31 = true) (hout : bitOf v 13 = false) :
    m.streamPeek v =
      let o := m.bnd.out (v % 4096) (if bitOf v 12 then SegClass.response else SegClass.request)
      { m with base := (m.base.setWord Reg.BND_STREAM_IDX (BitVec.ofNat 32 (v % 2 ^ 14))).setWord64 Reg.BND_STREAM_DATA
                 ((o.map OutStream.shown).getD 0 + 2 ^ 63) } := by
  simp only [Mod.streamPeek, hgo, hout, Bool.not_true, Bool.false_eq_true, if_false]
  cases m.bnd.out (v % 4096) (if bitOf v 12 then SegClass.response else SegClass.request) <;> rfl

end

end Sys2Proof.Machine

open Sys2Proof Sys2Proof.Machine

/-- Settles O25: each write reaches its register's own rule, a routing entry's by the register of the entry. -/
theorem bondRegisterWrites : Obligations.BondRegisterWrites := by
  intro s w m h v
  refine ⟨fun hw hgo hdone => ?lend, fun e i hw hi => ?stage, fun e hw => ?commit,
    fun hw => ⟨fun hgo => ?index, fun hgo hin => ?inbound, fun hgo hout => ?outbound⟩⟩
  case lend =>
    intro a keep b op hop hfab hon r
    rw [exec_of_unitWrites (rule := fun _ => m.lendGo v.toNat) regAt_bondCommands_name.1 (by decide) Mod.wordWrite_BND_LEND_CTL hw rfl,
      Mod.lendGo_asks hgo hdone hop hfab hon]
    rfl
  case stage =>
    rw [exec_of_rtWrites hw rfl, if_neg (by rintro rfl; exact absurd hi (by decide))]
    rfl
  case commit =>
    rw [exec_of_rtWrites (i := 0) hw rfl, if_pos rfl]
    rfl
  all_goals
    rw [exec_of_unitWrites (rule := fun _ => m.streamPeek v.toNat) regAt_bondCommands_name.2 (by decide) Mod.wordWrite_BND_STREAM_IDX hw
      rfl]
  case index => rw [Mod.streamPeek_index hgo]
  case inbound => rw [Mod.streamPeek_in hgo hin]
  case outbound =>
    rw [Mod.streamPeek_out hgo hout]
    dsimp only
    cases m.bnd.out (v.toNat % 4096) (if bitOf v.toNat 12 then SegClass.response else SegClass.request) <;> rfl
end

section
/-! PROOFS of the statement of spec/13_bonds.md on keystones: elections, heartbeats, members and orphans (R280, R281, R283, R284, R292).
Before it stand the lemmas that say what the functions that its commands call do in each case. -/

namespace Sys2Proof.Machine

/-! ### A candidate and a heartbeat are heard (R280, R283) -/

section
variable {m : Mod} {i term path : Nat} {key : Nat × Nat} (hon : m.base.bondOn = true) (hi : i < m.base.depth)
include hon hi

/-- Outside a collection a candidate's term alone is kept. -/
theorem Mod.candidateIn_unheard
    (h : (m.hearTerm i term).base.electing i = false ∨ (m.hearTerm i term).base.armed (.collect i) = false) :
    m.candidateIn i term key path = m.hearTerm i term := by
  rcases h with h | h <;> simp [Mod.candidateIn, hon, Nat.not_le.2 hi, h]

section
variable (hel : (m.hearTerm i term).base.electing i = true) (hcol : (m.hearTerm i term).base.armed (.collect i) = true)
include hel hcol

theorem Mod.candidateIn_sameTerm (ht : term = m.base.term i) :
    m.candidateIn i term key path =
      let n := m.hearTerm i term
      let e := n.elect i
      if keyLess key (e.prio, e.serial) then n.setElect { e with prio := key.1, serial := key.2, path := path } else n := by
  subst ht
  simp [Mod.candidateIn, hon, Nat.not_le.2 hi, hel, hcol]

/-- A newer term is taken up, and led by the lower of the candidate's key and the module's own. -/
theorem Mod.candidateIn_newTerm (ht : term ≠ m.base.term i) (hn : newer 16 term (m.base.term i) = true) :
    m.candidateIn i term key path =
      let n := m.hearTerm i term
      let e := n.elect i
      let x : Mod := { n with base := n.base.wr (Reg.BND_KEYSTONE i) F.BND_KEYSTONE_term term }
      if keyLess key n.base.ownKey then x.setElect { e with prio := key.1, serial := key.2, path := path }
      else x.setElect { e with prio := n.base.ownKey.1, serial := n.base.ownKey.2, path := x.base.path } := by
  simp [Mod.candidateIn, hon, Nat.not_le.2 hi, hel, hcol, ht, hn]

end

variable (hp : path ≠ m.base.path)
include hp

/-- A keystone that hears another reports the split, and follows a newer term, or at its own term a lower key. -/
theorem Mod.heartbeatIn_keystone (hks : (m.hearTerm i term).base.ksSelf i = true) :
    m.heartbeatIn i term key path =
      let n := m.hearTerm i term
      let x : Mod := { n with base := n.base.raise { group := 12, bit := 3, sev := 1, detail := i + 1 } }
      if newer 16 term (m.base.term i) || (term == m.base.term i && keyLess key x.base.ownKey) then x.follow i term key path else x := by
  simp only [Mod.heartbeatIn, hon, decide_eq_false (Nat.not_le.2 hi), decide_eq_false hp, hks, Bool.not_true, Bool.or_self,
    Bool.false_eq_true, if_false, if_true]

theorem Mod.heartbeatIn_election (hks : (m.hearTerm i term).base.ksSelf i = false) (ht : term = m.base.term i)
    (hel : (m.hearTerm i term).base.electing i = true) :
    m.heartbeatIn i term key path = (m.hearTerm i term).follow i term key path := by
  subst ht
  simp [Mod.heartbeatIn, hon, Nat.not_le.2 hi, hp, hks, hel]

end

/-! ### Members answer, are lost, and leave orphans (R281, R284, R292) -/

section
variable {m : Mod} {a : HbAck} {i idx path : Nat}

theorem Mod.ackIn_stranger (h : m.base.memberIndex a.path = none) : m.ackIn i a = m := by
  simp only [Mod.ackIn, h]

/-- The member's answer as it is recorded. -/
def Mod.memberAnswered (m : Mod) (i : Nat) (a : HbAck) : Mod :=
  let x := (m.bnd.members.find? (fun y => y.level == i && y.path == a.path)).getD { level := i, path := a.path }
  { m with bnd := { m.bnd with members := m.bnd.members.filter (fun y => !(y.level == i && y.path == a.path)) ++
                      [{ x with misses := 0, ports := a.ports, kept := [], busy := a.busy }] } }

/-- A present member answers its keystone; one that may sleep as it asks becomes ASLEEP. -/
theorem Mod.ackIn_present (hidx : m.base.memberIndex a.path = some idx) (hks : m.base.ksSelf i = true)
    (hin : m.base.inBond i a.path = true) (hst : m.base.memberState a.path = 1) (hl : idx / 8 = i) :
    m.ackIn i a =
      let n := ((m.memberAnswered i a).record i idx 1).computeRoutes i
      if a.m2Request && n.maySleep a.path then n.record i idx 2 else n := by
  have hold : ¬m.base.memberState a.path = 3 := by omega
  simp only [Mod.ackIn, hidx, hks, hin, hold, hl, Bool.not_true, Bool.or_self, Bool.false_eq_true, if_false, if_true, decide_true,
    Bool.and_true]
  rfl

theorem Mod.heartbeatTimer_eq : m.heartbeatTimer i = if m.base.ksSelf i then (m.beat i).computeRoutes i else m := rfl

theorem Mod.collectEnd_electing (hel : m.base.electing i = true) :
    m.collectEnd i =
      if (m.elect i).path = m.base.path then m.becomeKeystone i else { m with base := m.base.arm (.ksLoss i) m.base.hbNs } := by
  simp only [Mod.collectEnd, hel, Bool.not_true, Bool.false_eq_true, if_false]

section
variable (hidx : m.base.memberIndex path = some idx) (hon : m.base.bondOn = true) (hst : m.base.memberState path = 1)
include hidx hon hst

theorem Mod.memberLost_told (hks : m.base.ksSelf (idx / 8) = false) : m.memberLost path = m.setMember idx 3 := by
  simp [Mod.memberLost, hidx, hon, hst, hks]

/-- The keystone forgets what the member showed, records the loss and computes routes without it. -/
theorem Mod.memberLost_missed (hks : m.base.ksSelf (idx / 8) = true)
    (hmiss : m.bnd.members.any (fun x => x.level == idx / 8 && x.path == path && decide (3 ≤ x.misses)) = true) :
    m.memberLost path =
      (({ m with bnd := { m.bnd with members := m.bnd.members.map (fun x =>
          if x.level == idx / 8 && x.path == path then { x with ports := [], kept := [], routes := [] } else x) } }
        : Mod).record (idx / 8) idx 3).computeRoutes (idx / 8) := by
  simp only [Mod.memberLost, hidx, hon, hst, hks, hmiss, Bool.not_true, ne_eq, not_true_eq_false, decide_false, Bool.or_self,
    Bool.false_eq_true, if_false, if_true]

end

theorem Mod.orphanEnd_found {e : Nat} {g : Guest}
    (h : m.prk.guests.find? (fun g => guestKey g.owner g.idx == e && g.orphan && !g.sent) = some g) :
    m.orphanEnd e =
      { m with base := m.base.raise { group := 12, bit := 9, detail := g.idx, detail2 := g.owner },
               prk := { m.prk with guests := m.prk.guests.filter (fun x => x != g) } } := by
  simp only [Mod.orphanEnd, h]

end

end Sys2Proof.Machine

open Sys2Proof Sys2Proof.Machine

/-- Settles O45: each command by the term and key that it brings, by who the keystone is, or by what is recorded of the member. -/
theorem keystoneCommands : Obligations.KeystoneCommands := by
  intro s m i term prio serial path
  refine ⟨fun h hon hi => ⟨fun hel hcol => ⟨fun ht => ?sameTerm, fun ht hn => ?newTerm⟩, fun hun => ?unheard, fun hks hp => ?split,
      fun hks hp ht hel => ?joins⟩,
    fun a h ha => ?stranger, fun a idx h hidx hks hin hst hl => ?answered, fun h => ?beat, fun h hel => ?collected, fun h => ?lost,
    fun idx h hidx hon hst => ⟨fun hks => ?told, fun hks hmiss => ?missed⟩, fun e g h hg => ?orphan⟩
  case sameTerm =>
    rw [exec_of_coreIs h rfl, Mod.candidateIn_sameTerm hon hi hel hcol ht]
    exact ⟨fun hk => by rw [if_pos hk], fun hk => by rw [if_neg (ne_true_of_eq_false hk)]⟩
  case newTerm =>
    rw [exec_of_coreIs h rfl, Mod.candidateIn_newTerm hon hi hel hcol ht hn]
    exact ⟨fun hk => by rw [if_pos hk], fun hk => by rw [if_neg (ne_true_of_eq_false hk)]⟩
  case unheard => rw [exec_of_coreIs h rfl, Mod.candidateIn_unheard hon hi hun]
  case split =>
    rw [exec_of_coreIs h rfl, Mod.heartbeatIn_keystone hon hi hp hks]
    exact ⟨fun hk => by rw [if_pos hk], fun hk => by rw [if_neg (ne_true_of_eq_false hk)]⟩
  case joins => rw [exec_of_coreIs h rfl, Mod.heartbeatIn_election hon hi hp hks ht hel]
  case stranger => rw [exec_of_coreIs h rfl, Mod.ackIn_stranger ha]
  case answered =>
    rw [exec_of_coreIs h rfl, Mod.ackIn_present hidx hks hin hst hl]
    exact ⟨fun hz => State.next_ends_congr s (if_neg (ne_true_of_eq_false hz)), fun hz => State.next_ends_congr s (if_pos hz)⟩
  case beat =>
    rw [exec_of_coreDue h rfl, Mod.heartbeatTimer_eq]
    exact ⟨fun hks => by rw [if_pos hks], fun hks => by rw [if_neg (ne_true_of_eq_false hks)]⟩
  case collected =>
    rw [exec_of_coreDue h rfl, Mod.collectEnd_electing hel]
    exact ⟨fun hp => by rw [if_pos hp], fun hp => by rw [if_neg hp]⟩
  case lost =>
    rw [exec_of_coreDue h rfl]
    rfl
  case told => rw [exec_of_coreIs h rfl, Mod.memberLost_told hidx hon hst hks]
  case missed => rw [exec_of_coreIs h rfl, Mod.memberLost_missed hidx hon hst hks hmiss]
  case orphan => rw [exec_of_coreDue h rfl, Mod.orphanEnd_found hg]
end

section
/-! PROOFS of the statement of spec/15_counters.md on the writes of software's counters and of high-water marks (R72, R316). Before it stand
the rules of their registers, by the word that is written. -/

namespace Sys2Proof.Machine

/-! ### Counters and high-water marks are written (R72, R316) -/

/-- The top bit of a word is its sign bit. -/
theorem bitOf_toNat_last {n : Nat} (v : BitVec (n + 1)) : bitOf v.toNat n = v.msb := by
  rw [BitVec.msb_eq_getLsbD_last, ← BitVec.testBit_toNat, Nat.add_sub_cancel, Nat.testBit_eq_decide_div_mod_eq, bitOf]
  rfl

/-- The top bit of a 64-bit word is the top bit of its upper half. -/
theorem bitOf_upperHalf (v : W64) : bitOf (v.toNat / 2 ^ 32) 31 = v.msb := by
  rw [← bitOf_toNat_last, bitOf, bitOf, Nat.div_div_eq_div_mul, ← Nat.pow_add]

/-- The lower word that a write of the upper word takes with it: the held one, or the present one. -/
def Base.lowerWord (b : Base) (a : Nat) : Nat :=
  match b.cntHold with
  | some (x, word) => if x = a then word.toNat else (b.word a).toNat
  | none => (b.word a).toNat

theorem Base.countWrite_upper (b : Base) (a v : Nat) :
    b.countWrite a 2 v =
      let n := { b with cntHold := none }
      ((if bitOf v 31 then n.wr a F.CNT_ovf 0 else n).wr a F.CNT_count (b.lowerWord a + 2 ^ 32 * (v % 65536))).newPoint a := by
  unfold Base.countWrite Base.lowerWord
  cases b.cntHold <;> rfl

section
variable {s : State} {m : Mod} {w : Who} {off a v : Nat} {h : RegHit} {c : Instr}

theorem ne_PRK_PEEK_IDX_of_name (hat : regAt off = some h) (hn : h.row.name ≠ .PRK_PEEK_IDX) : off ≠ Reg.PRK_PEEK_IDX := by
  rintro rfl
  exact hn (name_of_regAt regAt_PRK_PEEK_IDX_name hat)

theorem ne_PRK_PEEK_IDX_of_countsAt (hat : regAt off = some h) (hc : h.countsAt a) : off ≠ Reg.PRK_PEEK_IDX := by
  refine ne_PRK_PEEK_IDX_of_name hat ?_
  rcases hc with ⟨hn, -⟩ | ⟨hn, -⟩ <;> simp [hn]

theorem wholeWrite_of_countsAt (hc : h.countsAt a) : wholeWrite h.row.name = true := by
  rcases hc with ⟨hn, -⟩ | ⟨hn, -⟩ <;> simp [hn, wholeWrite]

theorem Mod.wordWrite_counter (hc : h.countsAt a) :
    m.wordWrite w off h v = { m with base := m.base.countWrite a (h.word + 1) v } := by
  unfold Mod.wordWrite
  rcases hc with ⟨hn, rfl⟩ | ⟨hn, rfl⟩ <;> rw [hn]

theorem Mod.pairWrite_counter (hc : h.countsAt a) : m.pairWrite w off h v = { m with base := m.base.countWrite off 0 v } := by
  unfold Mod.pairWrite
  rcases hc with ⟨hn, -⟩ | ⟨hn, -⟩ <;> rw [hn]

theorem Mod.wordWrite_SCH_Q_HWM (hn : h.row.name = .SCH_Q_HWM) :
    m.wordWrite w off h v = m.markClear off F.SCH_Q_HWM_mark (m.depthAt off) v := by
  unfold Mod.wordWrite
  rw [hn]

theorem Mod.wordWrite_SCH_BUF_HWM (hn : h.row.name = .SCH_BUF_HWM) :
    m.wordWrite w off h v = m.markClear off F.SCH_BUF_HWM_mark (m.depthAt off) v := by
  unfold Mod.wordWrite
  rw [hn]

theorem Mod.wordWrite_BND_HOLD_HWM (hn : h.row.name = .BND_HOLD_HWM) :
    m.wordWrite w off h v = m.markClear off F.BND_HOLD_HWM_mark m.holdUsed v := by
  unfold Mod.wordWrite
  rw [hn]

/-- A mark takes the present depth when bit 31 of the word is 1. -/
theorem Mod.markClear_set {f : Fld} {d : Nat} {v : W32} (hv : v.msb = true) :
    m.markClear off f d v.toNat = { m with base := m.base.wr off f d } :=
  if_pos ((bitOf_toNat_last v).trans hv)

end

end Sys2Proof.Machine

open Sys2Proof Sys2Proof.Machine

/-- Settles O17: each write reaches the rule of the counter or of the mark. -/
theorem countersAndMarksAreWritten : Obligations.CountersAndMarksAreWritten := by
  intro s w off m h
  refine ⟨fun v hw hc h0 => ?lower, fun v hw hc h1 => ?upper, fun v n hr hat h0 hc hs => ?whole, fun v hw hn hv => ?queue,
    fun v hw hn hv => ?buffer, fun v hw hn hv => ?hold⟩
  case lower =>
    have ⟨_, hat, _⟩ := hw
    rw [exec_of_writes hw (ne_PRK_PEEK_IDX_of_countsAt hat hc) rfl, Mod.wordWrite_counter hc, h0]
    rfl
  case upper =>
    have ⟨_, hat, _⟩ := hw
    rw [exec_of_writes hw (ne_PRK_PEEK_IDX_of_countsAt hat hc) rfl, Mod.wordWrite_counter hc, h1, Base.countWrite_upper]
    rfl
  case whole =>
    have hlo : v.toNat % 2 ^ 32 + 2 ^ 32 * (v.toNat / 2 ^ 32 % 65536) = v.toNat % 2 ^ 48 := by omega
    calc exec (.counterWrite w off true v) s
        = .next (s.ends (n.decodeWide w off v.toNat)) :=
          congrArg Host.Outcome.next (State.run_wide hr _ (ne_PRK_PEEK_IDX_of_countsAt hat hc))
      _ = .next (s.ends { n with base := (n.base.dropHold off).countWrite off 0 v.toNat }) := by
          rw [Mod.decodeWide_whole hat (wholeWrite_of_countsAt hc) h0 hs, Mod.pairWrite_counter hc]
      _ = _ := by
          rw [← hlo, ← bitOf_upperHalf]
          rfl
  case queue =>
    have ⟨_, hat, _⟩ := hw
    rw [exec_of_writes hw (ne_PRK_PEEK_IDX_of_name hat (by simp [hn])) rfl, Mod.wordWrite_SCH_Q_HWM hn, Mod.markClear_set hv]
  case buffer =>
    have ⟨_, hat, _⟩ := hw
    rw [exec_of_writes hw (ne_PRK_PEEK_IDX_of_name hat (by simp [hn])) rfl, Mod.wordWrite_SCH_BUF_HWM hn, Mod.markClear_set hv]
  case hold =>
    have ⟨_, hat, _⟩ := hw
    rw [exec_of_writes hw (ne_PRK_PEEK_IDX_of_name hat (by simp [hn])) rfl, Mod.wordWrite_BND_HOLD_HWM hn, Mod.markClear_set hv]
end

section
/-! PROOFS of the statement of spec/16_clocks_reset_lifecycle.md on the ends of take-downs, block resets, updates and saves, and on lost
locks (R298, R324, R329 to R331, R334, R335, R343). Before it stands what the functions that its commands call do in each case. -/

namespace Sys2Proof.Machine

/-! ### Take-downs, updates and saves end (R298, R329 to R331, R334, R335, R343) -/

section
variable {m : Mod} {t : TakeDown} {x : ImgRun} {result : Nat}

/-- No shelf asks for power any more. -/
def Mod.powerRequestsEnded (m : Mod) : Mod :=
  { m with prk := { m.prk with slots := m.prk.slots.map (fun (x : Slot) => { x with pwrreq := false }) } }

/-- The escalations of the last hour, this one with them (R298). -/
def Mod.escalationsNow (m : Mod) : List Nat := m.pl.escalations.filter (fun x => decide (m.base.now < x + hour)) ++ [m.base.now]

/-- The die boots cold; no fatal event stands before it. -/
def Mod.bootCold (m : Mod) (cause : Nat) : Mod :=
  { m.bootDie false false cause with pl := { (m.bootDie false false cause).pl with lastFatal := none } }

/-- The die boots warm, keeping what it may; a fatal event's time is noted. -/
def Mod.bootWarm (m : Mod) (t : TakeDown) : Mod :=
  let x := m.bootDie true m.mayKeep t.cause
  { x with pl := { x.pl with lastFatal := if t.fatal then some x.base.now else none } }

/-- What follows the end of a take-down. -/
def Mod.afterTakeDown (m : Mod) (t : TakeDown) : Mod :=
  if t.off = 2 then { m.dieOff 4 6 with base := (m.dieOff 4 6).base.gateOff }
  else if t.off = 1 then { m.dieOff 6 6 with base := (m.dieOff 6 6).base.gateOff }
  else if t.fatal && t.cold && t.cause = 5 then
    let n : Mod := { m with pl := { m.pl with escalations := m.escalationsNow } }
    if 3 ≤ m.escalationsNow.length then n.goHalted else n.bootCold 5
  else if t.cold then m.bootCold t.cause
  else m.bootWarm t

theorem Mod.takedownEnd_of (ht : m.pl.take = some t) : m.takedownEnd = m.powerRequestsEnded.afterTakeDown t := by
  unfold Mod.takedownEnd
  rw [ht]
  rfl

theorem Mod.afterTakeDown_critical (h : t.off = 2) :
    m.afterTakeDown t = { m.dieOff 4 6 with base := (m.dieOff 4 6).base.gateOff } := if_pos h

theorem Mod.afterTakeDown_off (h : t.off = 1) :
    m.afterTakeDown t = { m.dieOff 6 6 with base := (m.dieOff 6 6).base.gateOff } := by
  simp only [Mod.afterTakeDown, h, if_true, OfNat.one_ne_ofNat, if_false]

/-- A cold reset that is no escalation. -/
theorem Mod.afterTakeDown_cold (h : t.off = 0) (hc : t.cold = true) (hf : t.fatal = false ∨ t.cause ≠ 5) :
    m.afterTakeDown t = m.bootCold t.cause := by
  have hno : (t.fatal && true && decide (t.cause = 5)) = false := by
    rcases hf with hf | hf <;> simp [hf]
  simp only [Mod.afterTakeDown, h, hno, hc, Nat.reduceEqDiff, Bool.false_eq_true, if_true, if_false]

/-- A fatal event that escalates: the third within the hour halts the module. -/
theorem Mod.afterTakeDown_escalation (h : t.off = 0) (hc : t.cold = true) (hf : t.fatal = true) (h5 : t.cause = 5) :
    m.afterTakeDown t =
      if 3 ≤ m.escalationsNow.length then ({ m with pl := { m.pl with escalations := m.escalationsNow } } : Mod).goHalted
      else ({ m with pl := { m.pl with escalations := m.escalationsNow } } : Mod).bootCold 5 := by
  simp only [Mod.afterTakeDown, h, hc, hf, h5, Nat.reduceEqDiff, Bool.and_self, decide_true, if_true, if_false]

theorem Mod.afterTakeDown_warm (h : t.off = 0) (hc : t.cold = false) : m.afterTakeDown t = m.bootWarm t := by
  simp only [Mod.afterTakeDown, h, hc, Nat.reduceEqDiff, Bool.and_false, Bool.false_and, Bool.false_eq_true, if_false]

/-- The reads of an image file that are still out end for nobody (log entry 47). -/
def Mod.imageReadsDrained (m : Mod) : Mod :=
  { m with tags := m.tags.map (fun t => if t.owner == some .image then { t with owner := some .drained } else t) }

theorem Mod.imgDone_smbus (hx : m.pl.img = some x) (hs : x.smbus = true) : m.imgDone result = m := by
  simp only [Mod.imgDone, hx, hs, if_true]

theorem Mod.imgDone_run (hx : m.pl.img = some x) (hs : x.smbus = false) :
    m.imgDone result = m.imageReadsDrained.imgFinish x.kind result := by
  simp only [Mod.imgDone, hx, hs, Bool.false_eq_true, if_false]
  rfl

/-- An update that fails leaves its result. -/
theorem Mod.imgFinish_failed {k : Nat} (hr : result ≠ 0) :
    m.imgFinish k result =
      { m with base := (m.base.wr Reg.CLK_IMG_CTL F.CLK_IMG_CTL_done 1).wr Reg.CLK_IMG_CTL F.CLK_IMG_CTL_result result,
               pl := { m.pl with img := none } } :=
  if_pos hr

/-- A good firmware file's slot becomes the active one. -/
theorem Mod.imgFinish_firmware :
    m.imgFinish 0 0 =
      let b := (m.base.wr Reg.CLK_IMG_CTL F.CLK_IMG_CTL_done 1).wr Reg.CLK_IMG_CTL F.CLK_IMG_CTL_result 0
      ({ m with pl := { m.pl with img := none, fwAct := 1 - m.pl.fwAct },
                base := b.wr Reg.CLK_IMG_STATUS F.CLK_IMG_STATUS_fw_valid
                  (putBits (b.rd Reg.CLK_IMG_STATUS F.CLK_IMG_STATUS_fw_valid) ⟨1 - m.pl.fwAct, 1⟩ 1) } : Mod).showMirrors :=
  rfl

theorem Mod.calSaved_busy (hb : m.base.isSet Reg.CLK_CAL_STATUS F.CLK_CAL_STATUS_busy = true) :
    m.calSaved =
      ({ m with base := (m.base.wr Reg.CLK_CAL_STATUS F.CLK_CAL_STATUS_busy 0).raise { group := 2, bit := 3 },
                pl := { m.pl with cal := { good := true, words := m.pl.calCopy }, calSaved := true, calCopy := [] } } : Mod).showMirrors := by
  simp only [Mod.calSaved, hb, Bool.not_true, Bool.false_eq_true, if_false]

theorem Mod.corePllLoss_locked (hl : m.base.isSet Reg.CLK_STATUS F.CLK_STATUS_core_lock = true) :
    m.corePllLoss = { m with base := (m.base.wr Reg.CLK_STATUS F.CLK_STATUS_core_lock 0).raise { group := 2, bit := 0, sev := 2 } } := by
  simp only [Mod.corePllLoss, hl, Bool.not_true, Bool.false_eq_true, if_false]

theorem Mod.dramClockLoss_locked (hl : m.base.isSet Reg.CLK_STATUS F.CLK_STATUS_dram_lock = true) :
    m.dramClockLoss = { m with base := (m.base.wr Reg.CLK_STATUS F.CLK_STATUS_dram_lock 0).raise { group := 2, bit := 1, sev := 2 } } := by
  simp only [Mod.dramClockLoss, hl, Bool.not_true, Bool.false_eq_true, if_false]

end

end Sys2Proof.Machine

open Sys2Proof Sys2Proof.Machine

/-- Settles O48: a take-down by what follows it, an update by who runs it and its result. -/
theorem resetCommands : Obligations.ResetCommands := by
  intro s m
  refine ⟨fun t h ht => ⟨fun h2 => ?critical, fun h1 => ?off, fun h0 hc hf => ?cold,
      fun h0 hc hf h5 => ⟨fun h3 => ?halted, fun h3 => ?escalated⟩, fun h0 hc => ?warm⟩,
    fun h => ?block, fun x result h hx => ⟨fun hs => ?otherUpdate, fun hs hr => ?failed, fun hs hk => ?firmware⟩,
    fun h hb => ?saved, fun h => ⟨fun hl => ?coreLock, fun hl => ?dramLock⟩⟩
  case critical => rw [exec_of_plinthDue h rfl, Mod.takedownEnd_of ht, Mod.afterTakeDown_critical h2]; rfl
  case off => rw [exec_of_plinthDue h rfl, Mod.takedownEnd_of ht, Mod.afterTakeDown_off h1]; rfl
  case cold => rw [exec_of_plinthDue h rfl, Mod.takedownEnd_of ht, Mod.afterTakeDown_cold h0 hc hf]; rfl
  case halted =>
    rw [exec_of_plinthDue h rfl, Mod.takedownEnd_of ht, Mod.afterTakeDown_escalation h0 hc hf h5]
    exact State.next_ends_congr s (if_pos h3)
  case escalated =>
    rw [exec_of_plinthDue h rfl, Mod.takedownEnd_of ht, Mod.afterTakeDown_escalation h0 hc hf h5]
    exact State.next_ends_congr s (if_neg (Nat.not_le.2 h3))
  case warm => rw [exec_of_plinthDue h rfl, Mod.takedownEnd_of ht, Mod.afterTakeDown_warm h0 hc]; rfl
  case block => rw [exec_of_coreDue h rfl, Base.blkDone]
  case otherUpdate => rw [exec_of_dieIs h rfl, Mod.imgDone_smbus hx hs]
  case failed =>
    rw [exec_of_dieIs h rfl, Mod.imgDone_run hx hs, Mod.imgFinish_failed hr]
    rfl
  case firmware =>
    rw [exec_of_dieIs h rfl, Mod.imgDone_run hx hs, hk]
    rfl
  case saved => rw [exec_of_plinthDue h rfl, Mod.calSaved_busy hb]
  case coreLock => rw [exec_of_dieIs h rfl, Mod.corePllLoss_locked hl]
  case dramLock => rw [exec_of_dieIs h rfl, Mod.dramClockLoss_locked hl]
end

section
/-! PROOFS of the statement of spec/17_power_front_end.md on what starts and stops the load (R343, R349 to R355, R360). Before it stands
what the functions that its commands call do in each case. -/

namespace Sys2Proof.Machine

/-! ### The load starts and stops (R343, R349 to R355, R360) -/

/-- What left the module before a command plays no part in the command's end. -/
theorem Mod.settle_begun (before m : Mod) : before.begun.settle m = before.settle m := by rfl

section
variable {m : Mod} {x y : Bool} {d t v : Nat} {cal : CalLoad}

/-- The arrival of power with no retry pending. -/
theorem Mod.plinthUp_calm (h : m.pl.powered = false)
    (hp : (m.base.setWord64 Reg.PWR_ENERGY m.pl.energySaved).isSet Reg.PWR_STATUS F.PWR_STATUS_retry_pending = false) :
    m.plinthUp =
      ({ m with base := m.base.setWord64 Reg.PWR_ENERGY m.pl.energySaved, pl := { m.pl with powered := true } } : Mod).showMirrors := by
  simp only [Mod.plinthUp, h, hp, Bool.false_eq_true, if_false]

/-- A retry that is pending when power arrives starts anew. -/
theorem Mod.plinthUp_retries (h : m.pl.powered = false)
    (hp : (m.base.setWord64 Reg.PWR_ENERGY m.pl.energySaved).isSet Reg.PWR_STATUS F.PWR_STATUS_retry_pending = true) :
    m.plinthUp =
      ({ m with base := ((m.base.setWord64 Reg.PWR_ENERGY m.pl.energySaved).setFe 4).arm .retry (10 * sec),
                pl := { m.pl with powered := true } } : Mod).showMirrors := by
  simp only [Mod.plinthUp, h, hp, Bool.false_eq_true, if_false, if_true]

theorem Mod.gateFull_inrush (hf : m.base.feState = 1) (hd : m.base.due .inrush = some d) :
    m.gateFull =
      let b : Base := { m.base with now := max m.base.now (d - 60 * ms + m.base.rd Reg.PWR_MEAS_V F.PWR_MEAS_V_v * 1100) }
      let b := ((b.setFe 2).wr Reg.PWR_STATUS F.PWR_STATUS_gate_full 1).wr Reg.PWR_STATUS F.PWR_STATUS_limit 0
      { m with base := (b.disarm .inrush).arm .pgQual (2 * ms) } := by
  simp only [Mod.gateFull, hf, hd, ne_eq, not_true_eq_false, if_false, Option.getD_some]

theorem Mod.powerGood_qualified (hd : m.base.due .pgQual = some t) (hf : m.base.feState = 2)
    (hl : m.base.isSet Reg.PWR_STATUS F.PWR_STATUS_limit = false) :
    m.powerGood cal =
      let b := ((({ m.base with now := max m.base.now t } : Base).disarm .pgQual).wr Reg.PWR_STATUS F.PWR_STATUS_pg 1).setFe 3
      ({ m with base := b.arm .retryClear (60 * sec),
                pl := { m.pl with cal := if m.pl.calSaved then { m.pl.cal with good := cal.good } else cal } } : Mod).bootDie
        false false m.pl.cause := by
  simp only [Mod.powerGood, hd, hf, hl, ne_eq, not_true_eq_false, decide_false, Bool.or_self, Bool.false_eq_true, if_false]

theorem Mod.inrushEnd_inrush (hf : m.base.feState = 1) :
    m.inrushEnd = m.powerFault 2 m.base.sampleV 4 { group := 1, bit := 4, detail := 1 } true :=
  if_neg (not_not_intro hf)

theorem Mod.faultEnd_on (hg : m.base.gateOn = true) : m.faultEnd = m.powerFault 1 m.base.sampleV 3 { group := 1, bit := 4 } false :=
  if_pos hg

theorem Mod.fuseTrip_on (hg : m.base.gateOn = true) : m.fuseTrip = m.powerFault 3 m.base.sampleV 5 { group := 1, bit := 5 } true :=
  if_pos hg

/-- The input leaves the start window, and the zone is told (R346, R349). -/
def Mod.inputOut (m : Mod) (zone : Nat) : Mod :=
  { m with base := (m.base.disarm .inputQual).wr Reg.PWR_STATUS F.PWR_STATUS_zone zone, pl := { m.pl with qualified := false } }

theorem Mod.overVoltage_notAbove (hv : v ≤ m.base.ovV) : m.overVoltage v = m := if_pos hv

theorem Mod.overVoltage_above (hv : m.base.ovV < v) (hg : (m.inputOut 3).base.gateOn = true) :
    m.overVoltage v = (m.inputOut 3).powerFault 4 v 6 { group := 1, bit := 6 } false :=
  (if_neg (Nat.not_le.2 hv)).trans (if_pos hg)

theorem Mod.supplyReset_notBelow (hv : m.base.resetV ≤ v) : m.supplyReset v = m := if_pos hv

theorem Mod.supplyReset_noDip (hv : v < m.base.resetV) (hd : m.pl.dip = none) :
    m.supplyReset v = if (m.inputOut 4).base.gateOn then (m.inputOut 4).loadOff 0 1 false else m.inputOut 4 := by
  unfold Mod.supplyReset
  rw [if_neg (Nat.not_le.2 hv)]
  split
  next => rfl
  next d hsome => exact absurd (hd.symm.trans hsome) (Option.some_ne_none d).symm

/-- Both presence pins as the module shows them. -/
def Base.presentBoth (b : Base) : Bool :=
  b.isSet Reg.PWR_STATUS F.PWR_STATUS_present_a && b.isSet Reg.PWR_STATUS F.PWR_STATUS_present_b

/-- The presence pins are shown as they now are. -/
def Mod.presentAs (m : Mod) (x y : Bool) : Mod :=
  { m with base := (m.base.flag Reg.PWR_STATUS F.PWR_STATUS_present_a x).flag Reg.PWR_STATUS F.PWR_STATUS_present_b y }

theorem Mod.presence_lost (hwas : m.base.presentBoth = true) (hnow : (x && y) = false) :
    m.presence x y =
      let n : Mod := { m.presentAs x y with base := (m.presentAs x y).base.disarm .debounce,
                                            pl := { (m.presentAs x y).pl with debounced := false } }
      if n.base.gateOn then n.loadOff 0 6 false else n :=
  if_pos (by rw [hnow]; exact congrArg (· && true) hwas)

theorem Mod.presence_made (hwas : m.base.presentBoth = false) (hnow : (x && y) = true) :
    m.presence x y =
      let n := m.presentAs x y
      let b := (n.base.wr Reg.PWR_RETRY F.PWR_RETRY_used 0).arm .debounce (100 * ms)
      { n with base := if b.feState = 5 ∨ b.feState = 6 then b.setFe 0 else b, pl := { n.pl with debounced := false } } := by
  have hwas' : (m.base.isSet Reg.PWR_STATUS F.PWR_STATUS_present_a && m.base.isSet Reg.PWR_STATUS F.PWR_STATUS_present_b) = false := hwas
  have hmade : (!false && x && y) = true := hnow
  simp only [Mod.presence, hwas', hmade, Bool.false_and, Bool.false_eq_true, if_false, if_true, Bool.or_eq_true, decide_eq_true_eq]
  rfl

theorem Mod.presence_same (hsame : m.base.presentBoth = (x && y)) : m.presence x y = m.presentAs x y := by
  have hsame' : (m.base.isSet Reg.PWR_STATUS F.PWR_STATUS_present_a && m.base.isSet Reg.PWR_STATUS F.PWR_STATUS_present_b) = (x && y) :=
    hsame
  simp only [Mod.presence, hsame', Bool.and_not_self, Bool.and_assoc, Bool.not_and_self, Bool.false_eq_true, if_false]
  rfl

/-- The end of the retry timer in state RETRY_WAIT: no retry is left, or one is made. -/
theorem Mod.retryEnd_waiting (hf : (m.base.wr Reg.PWR_STATUS F.PWR_STATUS_retry_pending 0).feState = 4) :
    m.retryEnd =
      let b := m.base.wr Reg.PWR_STATUS F.PWR_STATUS_retry_pending 0
      let used := b.rd Reg.PWR_RETRY F.PWR_RETRY_used
      if b.rd Reg.PWR_RETRY F.PWR_RETRY_count ≠ 0 ∧ b.rd Reg.PWR_RETRY F.PWR_RETRY_count ≤ used then { m with base := b.setFe 5 }
      else ({ m with base := ((b.wr Reg.PWR_RETRY F.PWR_RETRY_used (used + 1)).bump (Reg.PWR_CNT 7)).setFe 0 } : Mod).tryPowerUp := by
  simp only [Mod.retryEnd, hf, ne_eq, not_true_eq_false, if_false, Bool.and_eq_true, decide_eq_true_eq, decide_not, Bool.not_eq_eq_eq_not,
    Bool.not_true, decide_eq_false_iff_not]

theorem Mod.plinthLoss_calm (h : m.base.rd Reg.PWR_STATUS F.PWR_STATUS_retry_pending = 0) :
    m.plinthLoss =
      { base := { regs := m.base.regs.filter (fun x => [Reg.GLB_PRODUCT_ID, Reg.GLB_SERIAL, Reg.GLB_SERIAL + 4, Reg.PWR_RETRY,
                    Reg.PWR_FAULT, Reg.PWR_FAULT_TOD, Reg.PWR_FAULT_TOD + 4].contains x.1),
                  freeCtr := m.base.freeCtr, out := m.base.out },
        pl := { powered := false, lc := m.pl.lcNext.getD m.pl.lc, cal := m.pl.cal, calSaved := m.pl.calSaved, fwAct := m.pl.fwAct,
                imgAct := m.pl.imgAct, energySaved := m.pl.energySaved } } := by
  simp only [Mod.plinthLoss, h, if_true]

end

end Sys2Proof.Machine

open Sys2Proof Sys2Proof.Machine

/-- Settles O51: each command by the state of the front end that it finds. -/
theorem loadCommands : Obligations.LoadCommands := by
  intro s m
  refine ⟨fun h => ⟨fun hp => ?calm, fun hp => ?retries⟩, fun h => ?again, fun h => ?debounced, fun h => ?qualified,
    fun d h hf hd => ?gateFull, fun cal t h hd hf hl => ?good, fun h hf => ?inrush, fun h hg => ?limit, fun h hg => ?fuse,
    fun v h => ⟨fun hv => ?notHigh, fun hv => ?high, fun hv => ?notLow, fun hv hd => ?low⟩,
    fun h => ?presence, fun h => ?gateOff,
    fun h => ⟨fun hf h0 hu => ?locked, fun hf hu => ?retry⟩, fun h => ?clear, fun h => ⟨?saved, fun hp => ?loss⟩⟩
  case calm => rw [exec_plinthPowerUp_off h, ← Mod.settle_begun, Mod.plinthUp_calm (m := s.mod.begun) h hp]; rfl
  case retries => rw [exec_plinthPowerUp_off h, ← Mod.settle_begun, Mod.plinthUp_retries (m := s.mod.begun) h hp]; rfl
  case again => rw [exec_of_powerIs h (exec_plinthPowerUp_on h.1), id]
  case debounced => rw [exec_of_plinthDue h rfl, Mod.debounceEnd]
  case qualified => rw [exec_of_plinthDue h rfl, Mod.inputOk]
  case gateFull => rw [exec_of_powerIs h rfl, Mod.gateFull_inrush hf hd]
  case good => rw [exec_of_powerIs h rfl, Mod.powerGood_qualified hd hf hl]
  case inrush => rw [exec_of_plinthDue h rfl, Mod.inrushEnd_inrush hf]
  case limit => rw [exec_of_plinthDue h rfl, Mod.faultEnd_on hg]
  case fuse => rw [exec_of_powerIs h rfl, Mod.fuseTrip_on hg]
  case notHigh => rw [exec_of_powerIs h rfl, Mod.overVoltage_notAbove hv]
  case high =>
    intro n hg
    rw [exec_of_powerIs h rfl, Mod.overVoltage_above hv hg]
    rfl
  case notLow => rw [exec_of_powerIs h rfl, Mod.supplyReset_notBelow hv]
  case low =>
    rw [exec_of_powerIs h rfl, Mod.supplyReset_noDip hv hd]
    exact ⟨fun hg => State.next_ends_congr s (if_pos hg), fun hg => State.next_ends_congr s (if_neg (ne_true_of_eq_false hg))⟩
  case presence =>
    intro a was x y n
    rw [exec_of_powerIs h rfl]
    refine ⟨fun hwas hnow => ?_, fun hwas hnow => ?_, fun hsame => ?_⟩
    · rw [Mod.presence_lost hwas hnow]
      exact ⟨fun hg => State.next_ends_congr s (if_pos hg), fun hg => State.next_ends_congr s (if_neg (ne_true_of_eq_false hg))⟩
    · rw [Mod.presence_made hwas hnow]
      rfl
    · rw [Mod.presence_same hsame]
      rfl
  case gateOff => rw [exec_of_plinthDue h rfl, Mod.gateOffEnd]
  case locked =>
    rw [exec_of_plinthDue h rfl, Mod.retryEnd_waiting hf]
    exact State.next_ends_congr s (if_pos ⟨h0, hu⟩)
  case retry =>
    rw [exec_of_plinthDue h rfl, Mod.retryEnd_waiting hf]
    exact State.next_ends_congr s (if_neg (fun hx => hu.elim hx.1 (Nat.not_lt.2 hx.2)))
  case clear => rw [exec_of_plinthDue h rfl, Base.retryCountClear]
  case saved => rw [exec_of_powerIs h rfl, Mod.auxLow]
  case loss => rw [exec_of_powerIs h rfl, Mod.plinthLoss_calm hp]
end

section
/-! PROOFS of the statement of spec/17_power_front_end.md on what the front end measures and watches (R346, R348, R351, R352, R357 to R360,
R365, R366). Before it stands what the functions that its commands call do in each case. -/

namespace Sys2Proof.Machine

/-! ### Samples (R360) -/

section
variable {m : Mod} {x y v i t : Nat} {cages : List Nat}

/-- The base that a sample finds: the next 100 µs step has come, and two free values are taken. -/
def Base.sampleTime (b : Base) : Base := ({ b with now := (b.now / (100 * us) + 1) * (100 * us) } : Base).fresh.2.fresh.2

/-- The registers once a sample's voltage, current, power and temperature are in, the energy `uj` and the peak, and the cage currents. -/
def Base.sampled (b : Base) (v i p uj t : Nat) (cages : List Nat) : Base :=
  let b := ((b.wr Reg.PWR_MEAS_V F.PWR_MEAS_V_v v).wr Reg.PWR_MEAS_I F.PWR_MEAS_I_i i).wr Reg.PWR_MEAS_P F.PWR_MEAS_P_p p
  let b := b.wr Reg.PWR_MEAS_T F.PWR_MEAS_T_t t
  let b := (b.setWord64 Reg.PWR_ENERGY (b.word64 Reg.PWR_ENERGY + uj)).occ 0x340 0 none uj
  let b := b.wr Reg.PWR_PEAK F.PWR_PEAK_i (max i (b.rd Reg.PWR_PEAK F.PWR_PEAK_i))
  (List.range 8).foldl (fun (b : Base) c =>
    match cages[c]? with
    | some x => if b.rd (Reg.PWR_CAGE c) F.PWR_CAGE_i = x % 65536 then b else b.wr (Reg.PWR_CAGE c) F.PWR_CAGE_i x
    | none => b) b

/-- A sample's values are taken: they meet the registers, the zones and the start window. -/
def Mod.measured (m : Mod) (v i p uj t : Nat) (cages : List Nat) : Mod :=
  let b := m.base.sampleTime.sampled v i p uj t cages
  let pl := if tempReaches t (b.rd Reg.PWR_TEMP_CFG F.PWR_TEMP_CFG_temp_warn_c) then m.pl else { m.pl with tempWarnAt := none }
  ((({ m with base := b, pl := pl } : Mod).classify v).qualify v).tryPowerUp

/-- A sample's values, where the free values decide what the spec does not state of them (R360). -/
theorem Mod.telemetry_measured :
    m.telemetry x y t cages =
      let free := (Config.freeWord m.base.freeCtr).toNat
      let odd := (Config.freeWord (m.base.freeCtr + 1)).toNat
      let v := (sensed (m.base.word Reg.PWR_CAL_V).toNat (x % 65536) (free / 2 % 2)).getD (odd % 65536)
      let i := (sensed (m.base.word Reg.PWR_CAL_I).toNat (y % 65536) (free / 4 % 2)).getD (odd / 65536)
      m.measured v i
        (if v * i / 10000 + 1 < 65536 then v * i / 10000 + (if v * i % 10000 = 0 then 0 else free / 8 % 2) else free / 65536)
        (if v * i % 5000 = 2500 then v * i / 5000 + free % 2 else (v * i + 2500) / 5000) t cages := by
  rfl

/-- A sample whose values are exact and fit their registers. -/
theorem Mod.telemetry_exact (hx : x < 65536) (hy : y < 65536)
    (hv : ∀ up, up < 2 → sensed (m.base.word Reg.PWR_CAL_V).toNat x up = some v)
    (hi : ∀ up, up < 2 → sensed (m.base.word Reg.PWR_CAL_I).toNat y up = some i) (hexact : v * i % 10000 = 0)
    (hfits : v * i / 10000 < 65535) :
    m.telemetry x y t cages = m.measured v i (v * i / 10000) (v * i / 5000) t cages := by
  have hbit : (n : Nat) → n % 2 < 2 := fun n => Nat.mod_lt n (by decide)
  have hroom : v * i / 10000 + 1 < 65536 := by omega
  have hhalf : ¬v * i % 5000 = 2500 := by omega
  have hround : (v * i + 2500) / 5000 = v * i / 5000 := by omega
  simp only [Mod.telemetry_measured, Nat.mod_eq_of_lt hx, Nat.mod_eq_of_lt hy, hv _ (hbit _), hi _ (hbit _), Option.getD_some, hexact,
    hroom, hhalf, hround, if_true, if_false, Nat.add_zero]

end

/-! ### Dips, the run-time limit, cages and temperature (R346, R348, R351, R352, R357 to R359, R365, R366) -/

section
variable {m : Mod} {c n p t : Nat} {d : Dip} {level : Bool}

/-- 50 ms at the resume level: the dip is logged and told, and every shedding is undone. -/
theorem Mod.dipEnd_of (hd : m.pl.dip = some d) :
    m.dipEnd =
      let fin := d.wait.getD m.base.now
      let n : Mod := { m with base := m.base.logDip d fin false, pl := { m.pl with dip := none } }
      (n.plinthEvent { group := 1, bit := 1, detail := d.minV, detail2 := (fin - d.since) / ms }).setZone 0 := by
  simp only [Mod.dipEnd, hd]

theorem Mod.limitOn_engages (hfull : m.base.isSet Reg.PWR_STATUS F.PWR_STATUS_gate_full = true)
    (hoff : m.base.isSet Reg.PWR_STATUS F.PWR_STATUS_limit = false) (hg : m.base.gateOn = true) :
    m.limitOn =
      let b := (m.base.wr Reg.PWR_STATUS F.PWR_STATUS_limit 1).bump (Reg.PWR_CNT 2)
      let b := ((b.disarm .limitClear).disarm .pgQual).arm .faultTimer (5 * ms - m.pl.faultAcc)
      ({ m with base := b, pl := { m.pl with limitSince := some b.now } } : Mod).plinthEvent { group := 1, bit := 3 } := by
  simp only [Mod.limitOn, hfull, hoff, hg, Bool.not_true, Bool.or_self, Bool.false_eq_true, if_false]

theorem Mod.limitOff_releases (ht : m.pl.limitSince = some t) :
    m.limitOff =
      let b := ((m.base.wr Reg.PWR_STATUS F.PWR_STATUS_limit 0).disarm .faultTimer).arm .limitClear (2 * ms)
      { m with base := if b.feState = 2 then b.arm .pgQual (2 * ms) else b,
               pl := { m.pl with limitSince := none, faultAcc := m.pl.faultAcc + (m.base.now - t) } } := by
  simp only [Mod.limitOff, ht]

theorem Mod.cageOver_on (hon : m.base.isSet (Reg.PWR_CAGE c) F.PWR_CAGE_on = true) :
    m.cageOver c =
      ({ m with base := (m.base.wr (Reg.PWR_CAGE c) F.PWR_CAGE_fault 1).raise { group := 1, bit := 7, sev := 1, detail := c },
                pl := m.pl.setCage { (m.pl.cage c) with tripped := true } } : Mod).refreshCages := by
  simp only [Mod.cageOver, hon, Bool.not_true, Bool.false_eq_true, if_false]

/-- The cage's ResetL is released. -/
def Mod.cageFreed (m : Mod) (c : Nat) : Mod := { m with pl := m.pl.setCage { (m.pl.cage c) with released := true } }

/-- A PCI Express cage's port trains unless its tile is in test or its PLL has no lock. -/
theorem Mod.cageReleased_pcie (hc : m.base.camTile (24 + c) = false) :
    m.cageReleased c =
      if m.base.inTest (24 + c) || !m.base.isSet (Reg.SER_TILE_STATUS (24 + c)) F.SER_TILE_STATUS_pll_lock then m.cageFreed c
      else (m.cageFreed c).tileTrain (24 + c) :=
  if_neg (ne_true_of_eq_false hc)

theorem Mod.tempWarn_below (h : tempReaches t (m.base.rd Reg.PWR_TEMP_CFG F.PWR_TEMP_CFG_temp_warn_c) = false) : m.tempWarn t = m := by
  simp only [Mod.tempWarn, h, Bool.not_false, Bool.true_or, if_true]

/-- Within a minute of a warning no other is given. -/
theorem Mod.tempWarn_soon {x : Nat} (hx : m.pl.tempWarnAt = some x) (hsoon : m.base.now < x + 60 * sec) : m.tempWarn t = m := by
  simp only [Mod.tempWarn, hx, hsoon, decide_true, Bool.or_true, if_true]

theorem Mod.tempWarn_warns (h : tempReaches t (m.base.rd Reg.PWR_TEMP_CFG F.PWR_TEMP_CFG_temp_warn_c) = true)
    (hlate : m.pl.tempWarnAt = none ∨ ∃ x, m.pl.tempWarnAt = some x ∧ x + 60 * sec ≤ m.base.now) :
    m.tempWarn t = ({ m with pl := { m.pl with tempWarnAt := some m.base.now } } : Mod).plinthEvent { group := 1, bit := 8 } := by
  rcases hlate with hnone | ⟨x, hx, hle⟩
  · simp only [Mod.tempWarn, h, hnone, Bool.not_true, Bool.or_self, Bool.false_eq_true, if_false]
  · simp only [Mod.tempWarn, h, hx, Nat.not_lt.2 hle, decide_false, Bool.not_true, Bool.or_self, Bool.false_eq_true, if_false]

/-- A critical temperature is fatal and recorded; the take-down follows, or the load goes off at once where the die is off. -/
theorem Mod.tempCrit_critical (h : tempReaches t (m.base.rd Reg.PWR_TEMP_CFG F.PWR_TEMP_CFG_temp_crit_c) = true)
    (hg : m.base.gateOn = true) :
    m.tempCrit t =
      let n : Mod := { m with base := (m.base.raise { group := 1, bit := 9, sev := 2 }).recordFault 5 m.base.sampleV }
      if m.pl.dieOn then n.requestDown { cold := true, cause := 6, off := 2, fatal := true } else n.loadOff 4 6 true := by
  simp only [Mod.tempCrit, h, hg, Bool.not_true, Bool.or_self, Bool.false_eq_true, if_false]

theorem Mod.alertChange_same (h : (m.prk.slot n).alert = level) : m.alertChange n level = m := by
  simp only [Mod.alertChange, h, beq_self_eq_true, if_true]

/-- A shelf's alert that changes is told to the borrower of the shelf's port, or raised by the port. -/
theorem Mod.alertChange_told (hdie : m.pl.dieOn = true) (h : (m.prk.slot n).alert ≠ level) (hp : m.base.slotPort n = some p) :
    m.alertChange n level =
      let x : Mod := { m with prk := m.prk.setSlot { (m.prk.slot n) with alert := level } }
      if m.base.isSet (Reg.BND_PORT_LEND p) F.BND_PORT_LEND_valid then x.tellBorrower n 1 (leBytes 4 (b2n level))
      else { x with base := m.base.raise { m.base.portEv p 4 0 with detail := b2n level } } := by
  simp only [Mod.alertChange, beq_false_of_ne h, hdie, hp, Bool.not_true, Bool.false_eq_true, if_false]

end

end Sys2Proof.Machine

open Sys2Proof Sys2Proof.Machine

/-- Settles O52: each command by the readings, lines and timers that it finds. -/
theorem frontEndCommands : Obligations.FrontEndCommands := by
  intro s m c
  refine ⟨fun x y v i t cages h hx hy hv hi hexact hfits => ?sample, fun d h hd => ?dip, fun h hfull hoff hg => ?engage,
    fun t h ht => ?release, fun h => ?rested, fun h hon => ?cageFault, fun present h => ?cagePresence, fun h hc => ?cageRelease, fun h => ?interrupt,
    fun t h => ⟨fun hno => ?cool, fun hwarm hlate => ?warns, fun x hx hsoon => ?soon, fun hcrit hg => ?critical⟩,
    fun n level h => ⟨fun hsame => ?same, fun p hne hp => ?told⟩⟩
  case sample => rw [exec_of_powerIs h rfl, Mod.telemetry_exact hx hy hv hi hexact hfits]; rfl
  case dip => rw [exec_of_plinthDue h rfl, Mod.dipEnd_of hd]
  case engage => rw [exec_of_powerIs h rfl, Mod.limitOn_engages hfull hoff hg]
  case release => rw [exec_of_powerIs h rfl, Mod.limitOff_releases ht]
  case rested => rw [exec_of_plinthDue h rfl, Mod.limitClear]
  case cageFault => rw [exec_of_powerIs h rfl, Mod.cageOver_on hon]
  case cagePresence => rw [exec_of_powerIs h rfl, Mod.cagePresence]
  case cageRelease =>
    rw [exec_of_plinthDue h rfl, Mod.cageReleased_pcie hc]
    exact ⟨fun hno => State.next_ends_congr s (if_pos hno), fun hgo => State.next_ends_congr s (if_neg (ne_true_of_eq_false hgo))⟩
  case interrupt => rw [exec_of_dieIs h rfl, Base.cageInt]
  case cool => rw [exec_of_powerIs h rfl, Mod.tempWarn_below hno]
  case warns => rw [exec_of_powerIs h rfl, Mod.tempWarn_warns hwarm hlate]
  case soon => rw [exec_of_powerIs h rfl, Mod.tempWarn_soon hx hsoon]
  case critical =>
    rw [exec_of_powerIs h rfl, Mod.tempCrit_critical hcrit hg]
    exact ⟨fun hd => State.next_ends_congr s (if_pos hd), fun hd => State.next_ends_congr s (if_neg (ne_true_of_eq_false hd))⟩
  case same => rw [exec_of_dieIs h rfl, Mod.alertChange_same hsame]
  case told =>
    have hdie : m.pl.dieOn = true := by
      obtain ⟨hlive, rfl⟩ := h
      rw [State.dieLive, Bool.and_eq_true, Bool.and_eq_true] at hlive
      obtain ⟨⟨-, hdie⟩, -⟩ := hlive
      exact hdie
    rw [exec_of_dieIs h rfl, Mod.alertChange_told hdie hne hp]
    exact ⟨fun hl => State.next_ends_congr s (if_pos hl), fun hl => State.next_ends_congr s (if_neg (ne_true_of_eq_false hl))⟩
end

section
/-! PROOFS of the statement of spec/18_connector_ratings.md on SMBus (R329, R334, R368 to R371). Before it stand what a command does whose
PEC fails and whose PEC holds, and what the functions that the commands call do in each case. -/

namespace Sys2Proof.Machine

/-! ### SMBus commands (R329, R334, R368 to R371) -/

section
variable {s : State} {m n : Mod} {c : Instr} {f : Mod → Mod} {data : List Byte} {result v : Nat} {x : ImgRun} {cold : Bool}

/-- A command whose PEC holds acts on the module. -/
theorem exec_of_pec (h : s.powerIs m) (hc : exec c s = .next (s.run (fun m => m.withPec true f))) :
    exec c s = .next (s.ends (f m)) :=
  exec_of_powerIs h hc

/-- A command whose PEC fails is refused. -/
theorem exec_of_badPec (h : s.powerIs m) (hc : exec c s = .next (s.run (fun m => m.withPec false f))) :
    exec c s = .next (s.ends m.nack) :=
  exec_of_powerIs h hc

theorem Mod.smbAddr_block (hl : data.length = 4) : m.smbAddr data = { m with pl := { m.pl with smbAddr := leNat data } } := if_pos hl

theorem Mod.smbAddr_misfit (hl : data.length ≠ 4) : m.smbAddr data = m.nack := if_neg hl

theorem Mod.smbWrite_misfit (hl : data.length ≠ 4) : m.smbWrite data = m.nack := if_pos hl

theorem Mod.smbImgBegin_misfit (hl : data.length ≠ 4) : m.smbImgBegin data = m.nack := if_pos hl

section
variable (hp : m.plinthOnly = true)
include hp

/-- The plinth alone answers from an offset that it shows. -/
theorem Mod.smbRead_plinth (ha : m.pl.smbAddr % 4 = 0) (hr : m.plinthReads m.pl.smbAddr = true) (hk : plinthClkMask m.pl.smbAddr = 0) :
    m.smbRead =
      let r := m.readWord .smbus m.pl.smbAddr false
      { r.1 with base := r.1.base.emit (.smbus (leBytes 4 r.2) false) } := by
  simp only [Mod.smbRead, hp, hr, ha, hk, Bool.not_true, bne_self_eq_false, Bool.or_self, Bool.false_eq_true, if_true, if_false]

theorem Mod.smbRead_unseen (hr : m.plinthReads m.pl.smbAddr = false) : m.smbRead = m.nack := by
  simp only [Mod.smbRead, hp, hr, Bool.not_false, Bool.true_or, if_true]

theorem Mod.smbWrite_plinth (hl : data.length = 4) (ha : m.pl.smbAddr % 4 = 0) (hr : inPwr m.pl.smbAddr = true) :
    m.smbWrite data = m.decodeWrite .smbus m.pl.smbAddr (leNat data) := by
  simp only [Mod.smbWrite, hp, hl, hr, ha, ne_eq, not_true_eq_false, beq_self_eq_true, Bool.and_self, if_true, if_false]

end

section
variable (hp : m.plinthOnly = false)
include hp

theorem Mod.smbRead_die (hr : m.readAccess .smbus m.pl.smbAddr 4 none = (n, some v)) :
    m.smbRead = { n with base := n.base.emit (.smbus (leBytes 4 v) false) } := by
  simp only [Mod.smbRead, hp, hr, Bool.false_eq_true, if_false]

theorem Mod.smbWrite_die (hl : data.length = 4) : m.smbWrite data = m.writeAccess .smbus m.pl.smbAddr 4 none (leNat data) := by
  simp only [Mod.smbWrite, hp, hl, ne_eq, not_true_eq_false, Bool.false_eq_true, if_false]

end

theorem Mod.smbReset_coded (hl : data.length = 2) (hv : leNat data = Config.resetCode) :
    m.smbReset data cold = m.requestReset cold (if cold then 3 else 9) := by
  simp only [Mod.smbReset, hl, hv, decide_true, Bool.and_self, if_true]

theorem Mod.smbReset_miscoded (hv : leNat data ≠ Config.resetCode) : m.smbReset data cold = m.nack := by
  simp only [Mod.smbReset, hv, decide_false, Bool.and_false, Bool.false_eq_true, if_false]

theorem Mod.smbImgBegin_busy (hl : data.length = 4) (hb : m.imgBusy = true) :
    m.smbImgBegin data = { m with base := m.base.wr Reg.CLK_IMG_CTL F.CLK_IMG_CTL_result 6 } := by
  simp only [Mod.smbImgBegin, hl, hb, ne_eq, not_true_eq_false, if_false, if_true]

theorem Mod.smbImgBegin_opens (hl : data.length = 4) (hb : m.imgBusy = false) :
    m.smbImgBegin data =
      let a := Reg.CLK_IMG_CTL
      let len := bits (leNat data) F.CLK_IMG_CTL_len_kib
      { m with base := ((m.base.wr a F.CLK_IMG_CTL_type (leNat data % 4)).wr a F.CLK_IMG_CTL_len_kib len).wr a F.CLK_IMG_CTL_done 0,
               pl := { m.pl with img := some { kind := leNat data % 4, len := len, smbus := true } } } := by
  simp only [Mod.smbImgBegin, hl, hb, ne_eq, not_true_eq_false, Bool.false_eq_true, if_false]

section
variable (hx : m.pl.img = some x) (hs : x.smbus = true)
include hx hs

theorem Mod.smbImgData_beyond (hl : data.length = 32) (hg : 1024 * x.len < x.got + 32) :
    m.smbImgData data result = m.imgFinish x.kind 3 := by
  simp only [Mod.smbImgData, hl, hx, hs, hg, ne_eq, not_true_eq_false, Bool.not_true, Bool.false_eq_true, if_false, if_true]

theorem Mod.smbImgData_takes (hl : data.length = 32) (hg : x.got + 32 ≤ 1024 * x.len) :
    m.smbImgData data 0 = { m with pl := { m.pl with img := some { x with got := x.got + 32 } } } := by
  simp only [Mod.smbImgData, hl, hx, hs, Nat.not_lt.2 hg, ne_eq, not_true_eq_false, Bool.not_true, Bool.false_eq_true, if_false]

theorem Mod.smbImgEnd_open : m.smbImgEnd result = m.imgFinish x.kind result := by
  simp only [Mod.smbImgEnd, hx, hs, if_true]

end

/-- With no update open the end of one gets result 6. -/
theorem Mod.smbImgEnd_none (hx : m.pl.img = none) :
    m.smbImgEnd result = { m with base := (m.base.wr Reg.CLK_IMG_CTL F.CLK_IMG_CTL_done 1).wr Reg.CLK_IMG_CTL F.CLK_IMG_CTL_result 6 } := by
  simp only [Mod.smbImgEnd, Mod.noUpdate, hx, Option.isSome_none, Bool.false_eq_true, if_false]

theorem Mod.alertResponse_asserted (ha : m.base.smbAlert = true) :
    m.alertResponse = { m with base := m.base.emit (.smbus [BitVec.ofNat 8 (2 * (0x60 + Config.slotAddress.toNat))] false) } :=
  if_pos ha

theorem Mod.alertResponse_silent (ha : m.base.smbAlert = false) : m.alertResponse = m.nack := if_neg (ne_true_of_eq_false ha)

end

end Sys2Proof.Machine

open Sys2Proof Sys2Proof.Machine

/-- Settles O53: each command by its PEC, its length, and by who answers. -/
theorem smbusCommands : Obligations.SmbusCommands := by
  intro s m data result h refused
  refine ⟨?badPec, fun hl => ?address, fun hl => ?misfit,
    fun hp ha => ⟨fun hr hk => ?plinthRead, fun hr => ?unseen, fun hl hr => ?plinthWrite⟩,
    fun hp => ⟨fun n v hr => ?dieRead, fun hl => ?dieWrite⟩, ⟨fun hl hv => ?miscoded, fun hl hv => ?coded⟩, fun hl hb => ?busy,
    fun hl hb => ?opens, fun hl x hx hs => ⟨fun hg => ?beyond, fun hg => ?takes⟩, fun x hx hs => ?ends, fun hx => ?none,
    fun ha => ?alert, fun ha => ?silent⟩
  case badPec =>
    exact ⟨exec_of_badPec h rfl, exec_of_badPec h rfl, exec_of_badPec h rfl, exec_of_badPec h rfl, exec_of_badPec h rfl,
      exec_of_badPec h rfl, exec_of_badPec h rfl, exec_of_badPec h rfl, exec_of_badPec h rfl⟩
  case address => rw [exec_of_pec h rfl, Mod.smbAddr_block hl]
  case misfit =>
    rw [exec_of_pec h rfl, exec_of_pec h rfl, exec_of_pec h rfl, Mod.smbAddr_misfit hl, Mod.smbWrite_misfit hl, Mod.smbImgBegin_misfit hl]
    exact ⟨rfl, rfl, rfl⟩
  case plinthRead => rw [exec_of_pec h rfl, Mod.smbRead_plinth hp ha hr hk]
  case unseen => rw [exec_of_pec h rfl, Mod.smbRead_unseen hp hr]; rfl
  case plinthWrite => rw [exec_of_pec h rfl, Mod.smbWrite_plinth hp hl ha hr]
  case dieRead => rw [exec_of_pec h rfl, Mod.smbRead_die hp hr]
  case dieWrite => rw [exec_of_pec h rfl, Mod.smbWrite_die hp hl]
  case miscoded =>
    rw [exec_of_pec h rfl, exec_of_pec h rfl, Mod.smbReset_miscoded hv, Mod.smbReset_miscoded hv]
    exact ⟨rfl, rfl⟩
  case coded =>
    rw [exec_of_pec h rfl, exec_of_pec h rfl, Mod.smbReset_coded hl hv, Mod.smbReset_coded hl hv]
    exact ⟨rfl, rfl⟩
  case busy => rw [exec_of_pec h rfl, Mod.smbImgBegin_busy hl hb]
  case opens => rw [exec_of_pec h rfl, Mod.smbImgBegin_opens hl hb]
  case beyond => rw [exec_of_pec h rfl, Mod.smbImgData_beyond hx hs hl hg]
  case takes => rw [exec_of_pec h rfl, Fin.val_zero, Mod.smbImgData_takes hx hs hl hg]
  case ends => rw [exec_of_pec h rfl, Mod.smbImgEnd_open hx hs]
  case none => rw [exec_of_pec h rfl, Mod.smbImgEnd_none hx]
  case alert => rw [exec_of_powerIs h rfl, Mod.alertResponse_asserted ha]
  case silent => rw [exec_of_powerIs h rfl, Mod.alertResponse_silent ha]; rfl
end

section
/-! PROOFS of the statement of spec/18_connector_ratings.md on the boundary-scan port (R372; log entry 18). Before it stand when an
instruction of the TAP acts, and what the external tests and DEBUG do in each case. -/

namespace Sys2Proof.Machine

/-! ### The boundary-scan port (R372) -/

section
variable {s : State} {m : Mod} {c : Instr} {f : Mod → Mod} {kind : Nat}

/-- An instruction of the TAP acts while the die has power. -/
theorem exec_of_tap (h : s.powerIs m) (hd : m.pl.dieOn = true) (hc : exec c s = .next (s.run (fun m => m.tap' f))) :
    exec c s = .next (s.ends (f m)) :=
  (exec_of_powerIs h hc).trans (State.next_ends_congr s (if_pos hd))

/-- With the die off the port is dead (log entry 18). -/
theorem exec_of_deadTap (h : s.powerIs m) (hd : m.pl.dieOn = false) (hc : exec c s = .next (s.run (fun m => m.tap' f))) :
    exec c s = .next (s.ends m) :=
  (exec_of_powerIs h hc).trans (State.next_ends_congr s (if_neg (ne_true_of_eq_false hd)))

/-- In stages POR, LC_HOLD and HALTED the preloaded cells drive the pins. -/
theorem Mod.extest_drives (h : m.base.stage = 0 ∨ m.base.stage = 7 ∨ m.base.stage = 8) :
    m.extest kind = { m with base := m.base.emit (.pins kind m.pl.preload) } := by
  have hst : (decide (m.base.stage = 0) || decide (m.base.stage = 7) || decide (m.base.stage = 8)) = true := by
    simpa only [Bool.or_eq_true, decide_eq_true_eq, or_assoc] using h
  exact if_pos hst

/-- In the stages between the instruction acts as BYPASS, with an advisory event. -/
theorem Mod.extest_bypass (h0 : 0 < m.base.stage) (h7 : m.base.stage < 7) :
    m.extest kind = { m with base := (m.base.raise (misuseEv m.base.manager)).emit (.jtag [false]) } := by
  have hst : (decide (m.base.stage = 0) || decide (m.base.stage = 7) || decide (m.base.stage = 8)) = false := by
    simp only [Bool.or_eq_false_iff, decide_eq_false_iff_not]
    omega
  exact if_neg (ne_true_of_eq_false hst)

theorem Mod.debugOpen_opens (h : m.pl.lc ≠ 4) : m.debugOpen = { m with pl := { m.pl with debugOpen := true } } := if_neg h

/-- A decommissioned module answers as BYPASS. -/
theorem Mod.debugOpen_decommissioned (h : m.pl.lc = 4) : m.debugOpen = { m with base := m.base.emit (.jtag [false]) } := if_pos h

end

end Sys2Proof.Machine

open Sys2Proof Sys2Proof.Machine

/-- Settles O54: each instruction of the TAP with the die's power, an external test by the boot stage, DEBUG by the life cycle. -/
theorem jtagCommands : Obligations.JtagCommands := by
  intro s m pins cells h
  refine ⟨fun hd => ⟨?shortest, ?idcode, ?sample, fun hst => ?drives, fun h0 h7 => ?bypass,
      fun hlc => ?opens, fun hlc => ?decommissioned⟩, fun hd => ?dead⟩
  case shortest => rw [exec_of_tap h hd rfl, Mod.bypass]
  case idcode => rw [exec_of_tap h hd rfl, Mod.idcode]
  case sample => rw [exec_of_tap h hd rfl, Mod.samplePreload]
  case drives =>
    rw [exec_of_tap h hd rfl, exec_of_tap h hd rfl, exec_of_tap h hd rfl, Mod.extest_drives hst, Mod.extest_drives hst,
      Mod.extest_drives hst]
    exact ⟨rfl, rfl, rfl⟩
  case bypass =>
    rw [exec_of_tap h hd rfl, exec_of_tap h hd rfl, exec_of_tap h hd rfl, Mod.extest_bypass h0 h7, Mod.extest_bypass h0 h7,
      Mod.extest_bypass h0 h7]
    exact ⟨rfl, rfl, rfl⟩
  case opens => rw [exec_of_tap h hd rfl, Mod.debugOpen_opens hlc]
  case decommissioned => rw [exec_of_tap h hd rfl, Mod.debugOpen_decommissioned hlc]
  case dead =>
    exact ⟨exec_of_deadTap h hd rfl, exec_of_deadTap h hd rfl, exec_of_deadTap h hd rfl, exec_of_deadTap h hd rfl,
      exec_of_deadTap h hd rfl, exec_of_deadTap h hd rfl, exec_of_deadTap h hd rfl⟩
end

section
/-! PROOFS of the statement of spec/16_clocks_reset_lifecycle.md on the writes that command the module as a whole (R315, R329, R331, R334,
R335, R338, R339, R343, R349, R354). Before it stand the rules of the registers that are written, and what the functions that they call do
in each case. -/

namespace Sys2Proof.Machine

/-! ### Registers of the whole module are written -/

/-- The registers that command the module as a whole, each a single register. -/
def moduleRegs : List (Nat × RegName) :=
  [(Reg.PMC_GLOBAL, .PMC_GLOBAL), (Reg.CLK_RESET, .CLK_RESET), (Reg.CLK_BLK_RESET, .CLK_BLK_RESET), (Reg.CLK_LC_CMD, .CLK_LC_CMD),
    (Reg.CLK_IMG_CTL, .CLK_IMG_CTL), (Reg.CLK_CAL_CTL, .CLK_CAL_CTL), (Reg.PWR_CTL, .PWR_CTL)]

theorem moduleRegs_name : ∀ x ∈ moduleRegs, (regAt x.1).map (fun h => h.row.name) = some x.2 ∧ x.2 ≠ .PRK_PEEK_IDX := by
  decide +kernel

section
variable {s : State} {m : Mod} {w : Who} {c : Instr} {h : RegHit} {off v : Nat}

theorem Mod.wordWrite_PMC_GLOBAL (hn : h.row.name = .PMC_GLOBAL) :
    m.wordWrite w off h v = { m with base := m.base.codedWrite off h v } := by
  unfold Mod.wordWrite
  rw [hn]

theorem Mod.wordWrite_CLK_RESET (hn : h.row.name = .CLK_RESET) : m.wordWrite w off h v = m.clkReset w v := by
  unfold Mod.wordWrite
  rw [hn]

theorem Mod.wordWrite_CLK_BLK_RESET (hn : h.row.name = .CLK_BLK_RESET) : m.wordWrite w off h v = m.blkReset v := by
  unfold Mod.wordWrite
  rw [hn]

theorem Mod.wordWrite_CLK_LC_CMD (hn : h.row.name = .CLK_LC_CMD) : m.wordWrite w off h v = m.lifecycle w v := by
  unfold Mod.wordWrite
  rw [hn]

theorem Mod.wordWrite_CLK_IMG_CTL (hn : h.row.name = .CLK_IMG_CTL) : m.wordWrite w off h v = m.imgCtl v := by
  unfold Mod.wordWrite
  rw [hn]

theorem Mod.wordWrite_CLK_CAL_CTL (hn : h.row.name = .CLK_CAL_CTL) : m.wordWrite w off h v = m.calSave w v := by
  unfold Mod.wordWrite
  rw [hn]

theorem Mod.wordWrite_PWR_CTL (hn : h.row.name = .PWR_CTL) : m.wordWrite w off h v = m.pwrCtl w v := by
  unfold Mod.wordWrite
  rw [hn]

/-- A write of one of them, by any row that makes it: `r` is what the register's own rule makes. -/
theorem exec_of_moduleWrites {n : RegName} {r : Mod} (hreg : (off, n) ∈ moduleRegs) (hrule : h.row.name = n → m.wordWrite w off h v = r)
    (hw : s.writes w off m h) (hc : exec c s = .next (s.run (fun m => m.rowWrite w off false v))) : exec c s = .next (s.ends r) := by
  have ⟨_, hat, _⟩ := hw
  obtain ⟨hname, hpeek⟩ := moduleRegs_name _ hreg
  have hn : h.row.name = n := name_of_regAt hname hat
  rw [exec_of_writes hw (ne_PRK_PEEK_IDX_of_name hat (hn ▸ hpeek)) hc, hrule hn]

/-! ### Resets and the life cycle (R329, R331, R338, R339, R343) -/

section
variable (hcode : bits v F.CLK_RESET_code = Config.resetCode)
include hcode

/-- A write of CLK_RESET with its code: a reset first, then power off. -/
theorem Mod.clkReset_coded :
    m.clkReset w v =
      let n := if bitOf v 1 then m.requestReset true 2 else if bitOf v 0 then m.requestReset false 8 else m
      if bitOf v 2 && n.pl.dieOn && n.base.stage != 8 then n.requestDown { cold := true, cause := 6, off := 1 } else n :=
  if_neg (not_not_intro hcode)

theorem Mod.clkReset_warm (h2 : bitOf v 2 = false) (h1 : bitOf v 1 = false) (h0 : bitOf v 0 = true) :
    m.clkReset w v = m.requestReset false 8 := by
  simp only [Mod.clkReset_coded hcode, h2, h1, h0, Bool.false_and, Bool.false_eq_true, if_false, if_true]

theorem Mod.clkReset_cold (h2 : bitOf v 2 = false) (h1 : bitOf v 1 = true) : m.clkReset w v = m.requestReset true 2 := by
  simp only [Mod.clkReset_coded hcode, h2, h1, Bool.false_and, Bool.false_eq_true, if_false, if_true]

theorem Mod.clkReset_off (h2 : bitOf v 2 = true) (h1 : bitOf v 1 = false) (h0 : bitOf v 0 = false) (hd : m.pl.dieOn = true)
    (hst : m.base.stage ≠ 8) : m.clkReset w v = m.requestDown { cold := true, cause := 6, off := 1 } := by
  have hst' : (m.base.stage != 8) = true := bne_iff_ne.2 hst
  simp only [Mod.clkReset_coded hcode, h2, h1, h0, hd, hst', Bool.and_self, Bool.false_eq_true, if_false, if_true]

end

theorem Mod.clkReset_miscoded (hcode : bits v F.CLK_RESET_code ≠ Config.resetCode) :
    m.clkReset w v = { m with base := m.base.misuse w 0 } := if_pos hcode

/-- The registers once CLK_BLK_RESET is written, before anything is reset. -/
def Base.blkNamed (b : Base) (v : Nat) : Base :=
  (b.wr Reg.CLK_BLK_RESET F.CLK_BLK_RESET_kind (v % 8)).wr Reg.CLK_BLK_RESET F.CLK_BLK_RESET_index (bits v F.CLK_BLK_RESET_index)

/-- A block reset that may go resets a block that it may reset, and refuses another. -/
theorem Mod.blkReset_go (hkeep : bitOf v 29 = false) (hgo : bitOf v 31 = true)
    (hdone : (m.base.blkNamed v).isSet Reg.CLK_BLK_RESET F.CLK_BLK_RESET_done = true) :
    m.blkReset v =
      let i := bits v F.CLK_BLK_RESET_index
      if m.blockOk (v % 8) i then
        ({ m with base := ((m.base.blkNamed v).wr Reg.CLK_BLK_RESET F.CLK_BLK_RESET_done 0).arm .blockReset ms } : Mod).resetBlock
          (v % 8) i
      else { m with base := (m.base.blkNamed v).wr Reg.CLK_BLK_RESET F.CLK_BLK_RESET_refused 1 } := by
  have hok : ({ m with base := m.base.blkNamed v } : Mod).blockOk (v % 8) (bits v F.CLK_BLK_RESET_index) =
    m.blockOk (v % 8) (bits v F.CLK_BLK_RESET_index) := by rfl
  unfold Base.blkNamed at hdone hok ⊢
  simp only [Mod.blkReset, hkeep, hgo, hdone, hok, Bool.not_true, Bool.or_self, Bool.false_eq_true, if_false]
  cases m.blockOk (v % 8) (bits v F.CLK_BLK_RESET_index) <;> rfl

theorem Mod.lifecycle_allowed (hcode : bits v F.CLK_LC_CMD_code = Config.lifecycleCode) (hn : m.pl.lcNext = none)
    (ha : lcAllowed m.pl.lc (bits v F.CLK_LC_CMD_target) m.pl.token = true) :
    m.lifecycle w v =
      ({ m with base := ((m.base.wr Reg.CLK_LC_STATE F.CLK_LC_STATE_pending 1).raise { group := 2, bit := 4 }).flush,
                pl := { m.pl with lcNext := some (bits v F.CLK_LC_CMD_target), token := none } } : Mod).requestReset true 4 := by
  simp only [Mod.lifecycle, hcode, hn, ha, ne_eq, not_true_eq_false, decide_false, Option.isSome_none, Bool.not_true, Bool.or_self,
    Bool.false_eq_true, if_false]

theorem Mod.lifecycle_refused (hno : bits v F.CLK_LC_CMD_code ≠ Config.lifecycleCode ∨ m.pl.lcNext.isSome = true ∨
      lcAllowed m.pl.lc (bits v F.CLK_LC_CMD_target) m.pl.token = false) :
    m.lifecycle w v = { m with base := m.base.misuse w 0 } := by
  refine if_pos ?_
  simpa only [Bool.or_eq_true, decide_eq_true_eq, Bool.not_eq_eq_eq_not, Bool.not_true, or_assoc] using hno

/-! ### Image files and the calibration set (R334, R335) -/

/-- The registers once CLK_IMG_CTL is written, before an update starts. -/
def Base.imgNamed (b : Base) (v : Nat) : Base :=
  (b.wr Reg.CLK_IMG_CTL F.CLK_IMG_CTL_type (v % 4)).wr Reg.CLK_IMG_CTL F.CLK_IMG_CTL_len_kib (bits v F.CLK_IMG_CTL_len_kib)

/-- The update that go starts. -/
def Base.imgRun (b : Base) (v : Nat) : ImgRun :=
  { kind := v % 4, len := (b.imgNamed v).rd Reg.CLK_IMG_CTL F.CLK_IMG_CTL_len_kib, smbus := false }

/-- The module once go has started an update, before its file is read. -/
def Mod.imgStarted (m : Mod) (v : Nat) : Mod :=
  { m with base := (m.base.imgNamed v).wr Reg.CLK_IMG_CTL F.CLK_IMG_CTL_done 0, pl := { m.pl with img := some (m.base.imgRun v) } }

theorem Mod.imgCtl_go (hgo : bitOf v 2 = true) (hfree : m.imgBusy = false)
    (hcal : (m.base.imgNamed v).isSet Reg.CLK_CAL_STATUS F.CLK_CAL_STATUS_busy = false) : m.imgCtl v = (m.imgStarted v).imgPump := by
  have hfree' := hfree
  rw [Mod.imgBusy, Bool.or_eq_false_iff, Bool.or_eq_false_iff] at hfree'
  obtain ⟨⟨himg, hlc⟩, -⟩ := hfree'
  have hnow : ({ m with base := m.base.imgNamed v } : Mod).imgBusy = false := by
    rw [Mod.imgBusy, himg, hlc, hcal]
    rfl
  unfold Base.imgNamed at hnow
  simp only [Mod.imgCtl, himg, hgo, hnow, Bool.not_true, Bool.false_eq_true, if_false]
  rfl

/-- The read of an image file's next part, as guard 20 checks it (R334). -/
def Mod.imgRead (m : Mod) (x : ImgRun) : Access :=
  { space := 1, sel := m.base.manager, addr := m.base.word64 Reg.CLK_IMG_ADDR / 4096 * 4096 + x.got,
    len := min 4096 (1024 * x.len - x.got), rd := true, secure := true, pasid := some (m.base.slicePasid 0), ident := 20 }

theorem Mod.imgRead_first {x : ImgRun} (hg : x.got = 0) :
    m.imgRead x =
      { space := 1, sel := m.base.manager, addr := m.base.word64 Reg.CLK_IMG_ADDR / 4096 * 4096, len := min 4096 (1024 * x.len),
        rd := true, secure := true, pasid := some (m.base.slicePasid 0), ident := 20 } := by
  simp only [Mod.imgRead, hg, Nat.add_zero, Nat.sub_zero]

section
variable {x : ImgRun} (hx : m.pl.img = some x) (hmore : (x.smbus || decide (1024 * x.len ≤ x.got) || (m.tagOf .image).isSome) = false)
include hx hmore

theorem Mod.imgPump_reads {port t : Nat} (hp : m.base.upstreamPort m.base.manager = some port) (hb : m.base.bme m.base.manager = true)
    (ht : m.freeTag port = some t) :
    m.imgPump =
      let r := m.base.guard 20 (m.imgRead x)
      if r.2.isSome then ({ m with base := r.1 } : Mod).imgFail
      else ({ m with base := r.1.emit (.hostRead m.base.manager (m.imgRead x).addr (some (m.base.slicePasid 0)) (m.imgRead x).len x.got) }
        : Mod).takeTag port t (m.imgRead x).len .image := by
  simp only [Mod.imgPump, hx, hmore, hp, hb, ht, Bool.false_eq_true, if_false]
  rfl

/-- Without Bus Master Enable the file cannot be read. -/
theorem Mod.imgPump_masterOff (hb : m.base.bme m.base.manager = false) : m.imgPump = m.imgFail := by
  simp only [Mod.imgPump, hx, hmore, hb, Bool.false_eq_true, if_false]
  cases m.base.upstreamPort m.base.manager <;> rfl

end

theorem Mod.calSave_go (hcode : bits v F.CLK_CAL_CTL_code = Config.calCode) (hgo : bitOf v 0 = true)
    (hfree : m.base.isSet Reg.CLK_CAL_STATUS F.CLK_CAL_STATUS_busy = false) :
    m.calSave w v =
      { m with base := (m.base.wr Reg.CLK_CAL_STATUS F.CLK_CAL_STATUS_busy 1).arm .calSave (50 * ms),
               pl := { m.pl with calCopy := calRegs.filterMap (fun a =>
                         let x := m.base.word a &&& maskWord RegRow.cal a
                         if x = 0#32 then none else some (a, x)) } } := by
  simp only [Mod.calSave, hcode, hgo, hfree, ne_eq, not_true_eq_false, Bool.not_true, Bool.or_self, Bool.false_eq_true, if_false]

/-! ### The load's commands (R349, R354) -/

section
variable (hcode : bits v F.PWR_CTL_code = 0x5F0A)
include hcode

theorem Mod.pwrCtl_powerOn (h0 : bitOf v 0 = true) (h1 : bitOf v 1 = false) (hf : m.base.feState = 6) :
    m.pwrCtl w v = ({ m with base := m.base.setFe 0 } : Mod).tryPowerUp := by
  simp only [Mod.pwrCtl, hcode, h0, h1, hf, ne_eq, not_true_eq_false, beq_self_eq_true, Bool.and_self, Bool.false_and, Bool.false_eq_true,
    if_false, if_true]

theorem Mod.pwrCtl_retryClear (h0 : bitOf v 0 = false) (h1 : bitOf v 1 = true) :
    m.pwrCtl w v =
      let b := m.base.wr Reg.PWR_RETRY F.PWR_RETRY_used 0
      ({ m with base := if b.feState = 5 then b.setFe 0 else b } : Mod).tryPowerUp := by
  simp only [Mod.pwrCtl, hcode, h0, h1, ne_eq, not_true_eq_false, Bool.false_and, Bool.true_and, beq_iff_eq, Bool.false_eq_true,
    if_false, if_true]

end

theorem Mod.pwrCtl_miscoded (hcode : bits v F.PWR_CTL_code ≠ 0x5F0A) : m.pwrCtl w v = { m with base := m.base.misuse w 0 } :=
  if_pos hcode

end

end Sys2Proof.Machine

open Sys2Proof Sys2Proof.Machine

/-- Settles O26: each write reaches its register's own rule, which goes by the word's code and bits. -/
theorem moduleRegisterWrites : Obligations.ModuleRegisterWrites := by
  intro s w m h v
  refine ⟨fun hw => ?run,
    fun hw => ⟨fun hcode h2 => ⟨fun h1 h0 => ?warm, fun h1 => ?cold⟩, fun hcode h2 h1 h0 hd hst => ?off, fun hcode => ?noReset⟩,
    fun hw hkeep hgo hdone => ?block, fun hw => ⟨fun hcode hn ha => ?transition, fun hno => ?noTransition⟩,
    fun hw hgo hfree htag hcal hlen => ?image, fun hw hcode hgo hfree => ?save,
    fun hw => ⟨fun hcode h0 h1 hf => ?powerOn, fun hcode h0 h1 => ?retryClear, fun hcode => ?noPower⟩⟩
  case run => rw [exec_of_moduleWrites (by simp [moduleRegs]) Mod.wordWrite_PMC_GLOBAL hw rfl]; rfl
  case warm => rw [exec_of_moduleWrites (by simp [moduleRegs]) Mod.wordWrite_CLK_RESET hw rfl, Mod.clkReset_warm hcode h2 h1 h0]
  case cold => rw [exec_of_moduleWrites (by simp [moduleRegs]) Mod.wordWrite_CLK_RESET hw rfl, Mod.clkReset_cold hcode h2 h1]
  case off =>
    rw [exec_of_moduleWrites (by simp [moduleRegs]) Mod.wordWrite_CLK_RESET hw rfl, Mod.clkReset_off hcode h2 h1 h0 hd hst]
  case noReset =>
    rw [exec_of_moduleWrites (by simp [moduleRegs]) Mod.wordWrite_CLK_RESET hw rfl, Mod.clkReset_miscoded hcode]
  case block =>
    rw [exec_of_moduleWrites (by simp [moduleRegs]) Mod.wordWrite_CLK_BLK_RESET hw rfl, Mod.blkReset_go hkeep hgo hdone]
    exact ⟨fun hok => State.next_ends_congr s (if_pos hok), fun hok => State.next_ends_congr s (if_neg (ne_true_of_eq_false hok))⟩
  case transition =>
    rw [exec_of_moduleWrites (by simp [moduleRegs]) Mod.wordWrite_CLK_LC_CMD hw rfl, Mod.lifecycle_allowed hcode hn ha]
  case noTransition =>
    rw [exec_of_moduleWrites (by simp [moduleRegs]) Mod.wordWrite_CLK_LC_CMD hw rfl, Mod.lifecycle_refused hno]
  case image =>
    have hmore : ((m.base.imgRun v.toNat).smbus || decide (1024 * (m.base.imgRun v.toNat).len ≤ (m.base.imgRun v.toNat).got) ||
        ((m.imgStarted v.toNat).tagOf .image).isSome) = false := by
      have hlen' : ¬1024 * (m.base.imgRun v.toNat).len ≤ 0 := Nat.not_le.2 (Nat.mul_pos (by decide) hlen)
      have htag' : (m.imgStarted v.toNat).tagOf .image = none := htag
      rw [htag']
      exact (Bool.or_false _).trans (decide_eq_false hlen')
    rw [exec_of_moduleWrites (by simp [moduleRegs]) Mod.wordWrite_CLK_IMG_CTL hw rfl, Mod.imgCtl_go hgo hfree hcal]
    refine ⟨fun port t hp hb ht => ?reads, fun hb => ?masterOff⟩
    case reads =>
      rw [Mod.imgPump_reads (m := m.imgStarted v.toNat) (x := m.base.imgRun v.toNat) rfl hmore hp hb ht, Mod.imgRead_first rfl]
      exact ⟨fun hr => State.next_ends_congr s (if_neg (Option.not_isSome_iff_eq_none.2 hr)),
        fun hr => State.next_ends_congr s (if_pos hr)⟩
    case masterOff => rw [Mod.imgPump_masterOff (m := m.imgStarted v.toNat) (x := m.base.imgRun v.toNat) rfl hmore hb]; rfl
  case save => rw [exec_of_moduleWrites (by simp [moduleRegs]) Mod.wordWrite_CLK_CAL_CTL hw rfl, Mod.calSave_go hcode hgo hfree]
  case powerOn =>
    rw [exec_of_moduleWrites (by simp [moduleRegs]) Mod.wordWrite_PWR_CTL hw rfl, Mod.pwrCtl_powerOn hcode h0 h1 hf]
  case retryClear =>
    rw [exec_of_moduleWrites (by simp [moduleRegs]) Mod.wordWrite_PWR_CTL hw rfl, Mod.pwrCtl_retryClear hcode h0 h1]
  case noPower =>
    rw [exec_of_moduleWrites (by simp [moduleRegs]) Mod.wordWrite_PWR_CTL hw rfl, Mod.pwrCtl_miscoded hcode]
end
